-- ==== Sys2Proof/Word.lean ====
section
/-! DEFINITION. The bit-vector types of the Shudal and their plainest readings (R2, R3).

A register of the scalar stream and a lane of a vector register hold 32 bits (R13); a latch, a
register pair and a system address hold 64; the smallest addressable unit of every memory level is
the byte. -/
namespace Sys2Proof

/-- A 32-bit register, address offset or code word. -/
abbrev Word := BitVec 32

/-- A 64-bit value: a latch, a register pair, a virtual address (R120, R314). -/
abbrev DWord := BitVec 64

/-- A byte of memory. -/
abbrev Byte := BitVec 8

/-- A word from a number, modulo 2^32. -/
abbrev word (n : Nat) : Word := BitVec.ofNat 32 n

/-- A 64-bit value from a number, modulo 2^64. -/
abbrev dword (n : Nat) : DWord := BitVec.ofNat 64 n

end Sys2Proof
end

