-- ==== Sys2Proof/Config.lean ====
section
/-! DEFINITION. What the Shudal's specification leaves open, as constants without a body.

Nothing in Lean can evaluate one of them, so a theorem about the model holds for every value they
could take. Each use is named in the assumption log. -/
namespace Sys2Proof.Config

/-- The `n`-th undefined value of 32 bits (R6), `n` counted by `State.freeCount` (DESIGN CHOICE, log 2). -/
opaque freeWord (n : Nat) : Word

/-- The `n`-th undefined byte (R6). -/
opaque freeByte (n : Nat) : Byte

/-- The `n`-th undefined bit (R6): which of two allowed outcomes a device takes. -/
opaque freeBit (n : Nat) : Bool

/-- What byte `a` of a storage array reads before anything is written to it, for an array whose
contents are undefined when its owner receives it: a spill stack (R54), tile registers and B slots
(R193). `seed` numbers the array's grants. -/
opaque undefByte (seed a : Nat) : Byte

/-- The special functions of R132 on a binary32 input: a fixed function of the input bits for each
function number. The meanings keep the special values and exact cases that R132 states.
DESIGN CHOICE: log 7. -/
opaque special (fn : Nat) (x : Word) : Word

/-- Byte `i` of the SHAKE256 output of a byte string (R360). DESIGN CHOICE: log 30. -/
opaque shake256 (m : List Byte) (i : Nat) : Byte

/-- Byte `i` of the signature of an attestation report under the device identity key (R357). -/
opaque attestSign (report : List Byte) (i : Nat) : Byte

/-- Byte `i` of the public key of the device identity key (R357). -/
opaque identityKey (i : Nat) : Byte

/-- Byte `i` of KMAC256 of a message under a key, with the customisation string of R363. -/
opaque kmac256 (key : Nat) (m : List Byte) (i : Nat) : Byte

/-- Whether an SLH-DSA-SHAKE-256s signature over an image verifies under a public key (R356). -/
opaque slhVerify (key image sig : List Byte) : Bool

/-- Byte `i` of the digest of the public key that is fused in the root of trust (R356). -/
opaque fusedDigest (i : Nat) : Byte

/-- Which of a die's 16 event counters counts the packets dropped under R289 (R365). DESIGN CHOICE: log 29. -/
opaque dropCounter : Fin 16

/-- Which of the others counts the die's engine operations (R365). DESIGN CHOICE: log 29. -/
opaque engineCounter : Fin 15

/-- The junction temperature of a die as the `n`-th measurement finds it, in steps of 0.125 degrees (R360, R366).
DESIGN CHOICE: log 29. -/
opaque temperature (n : Nat) (die : Nat) : Nat

/-- Byte `i` of the device's serial number (R357). -/
opaque serial (i : Nat) : Byte

/-- The hash of destination, window and offset[31:8] that chooses among the live paths (R288).
DESIGN CHOICE: log 97. -/
opaque pathHash (dst win block : Nat) : Nat

/-- The die whose HBM holds a physical address: the specification states no map of addresses to dies
(R358). DESIGN CHOICE: log 31. -/
opaque dieOfAddr (pa : Nat) : Fin 8

end Sys2Proof.Config
end

