-- ==== Sys2Proof/Syntax.lean ====
section
/-! DEFINITION. The instructions and events of the Shudal, one constructor per row of
spec/opcode_table.json.

A scalar instruction and a lane instruction carry the fields of their encodings (R55 to R67). A row
without a code word is a step of an agent beside the warps (a copy unit, the matrix array, an
engine, the ringmaster, the management island) or an action of a party outside the device; its
operands name the agent and, where the step depends on it, what the outside party supplies. The
instructions come first, then the events, in the table's order. -/
namespace Sys2Proof

/-- The lane types of R62, in the order of their codes 0 to 18. -/
inductive LaneTy where
  | b32 | i8 | i16 | i32 | i64 | n8 | n16 | n32 | n64 | f16 | bf16 | f32 | f64
  | e4m3 | e5m2 | e2m1 | q4 | q8 | b64
  deriving DecidableEq, Repr

/-- A source operand of a lane instruction (R61). An instruction that does not read a source holds
`v 0` there, whose field is 0x000. -/
inductive Src where
  /-- Vector register. -/
  | v (r : Nat)
  /-- Latch of instruction `k` of the run. -/
  | q (k : Nat)
  /-- The w2 word. -/
  | w2
  /-- Run argument a0 to a3. -/
  | arg (i : Nat)
  /-- Lane id. -/
  | lane
  /-- Warp index in the team. -/
  | warp
  /-- Fragment mask bit. -/
  | frag
  /-- Predicate p0 to p7. -/
  | pred (p : Nat)
  deriving DecidableEq, Repr

/-- The fields of a lane instruction beside its opcode (R60): lane type, guard predicate and its
negation, write-back suppression, destination, the three sources, the modifier and the w2 word. -/
structure LaneOp where
  ty : LaneTy
  pg : Nat
  pn : Bool
  nw : Bool
  d  : Nat
  a  : Src
  b  : Src
  c  : Src
  fn : Nat
  w2 : Word
  deriving DecidableEq, Repr


/-- A mapping request to a die's scanner (R69): the context, the first virtual address, the length
in bytes, the kind of section (`lane` true for a lane section), the partner lane unit that a scalar
unit names, and where the report is written. -/
structure ScanReq where
  asid    : Nat
  va      : Nat
  len     : Nat
  lane    : Bool
  partner : Option Nat
  report  : Nat
  deriving DecidableEq, Repr

/-- A packet of a peer as it arrives at a port of this device: whether its TAG verifies there, and the header
fields that the receiver uses (R289). -/
structure PktHdr where
  port  : Nat
  tagOk : Bool
  ver   : Nat
  kind  : Nat
  src   : Nat
  job   : Nat
  queue : Nat
  rcnt  : Nat
  win   : Nat
  seq   : Nat
  deriving DecidableEq, Repr

/-- What the token inbox does next (R276, R277): it serves a warp's own TOKSEND to SELF, or a peer's
message; or it writes WSEQ for the record that it has written. -/
inductive TokenMsg where
  | own (w id : Nat)
  | peer (h : PktHdr) (stream : Nat) (token : Word)
  | wseq (stream : Nat)
  deriving DecidableEq, Repr

/-- A FAX request packet of a peer (R289): its header, sub-operation and type, and per lane the offset or
element, the data and the new value of a CAS. -/
structure PeerReq where
  h     : PktHdr
  fn    : Nat
  ty    : LaneTy
  lanes : List (Nat × Nat × Nat × Nat)
  deriving DecidableEq, Repr

/-- What this device does as a home (R296): it accepts packet `k` of a warp's own request to SELF, or a
peer's packet; or it performs one lane of an accepted packet. `refuse` is the choice that R291 leaves
open while the window is being revoked. -/
inductive FaxPkt where
  | own (w id k : Nat) (refuse : Bool)
  | peer (p : PeerReq) (refuse : Bool)
  | lane (home lane : Nat)
  deriving DecidableEq, Repr

/-- A response (R289, R297): its REASON, and per lane the words of the result. -/
structure FaxResp where
  reason : Nat
  lanes  : List (Nat × List Word)
  deriving DecidableEq, Repr

/-- A queue as its WPTR is written (R339, R341): through the doorbell page of a host, or through its block. -/
structure Bell where
  host  : Option Nat
  queue : Nat
  deriving DecidableEq, Repr

/-- A physical address that a host names (R341). -/
structure HostAddr where
  host : Nat
  pa   : Nat
  deriving DecidableEq, Repr

/-- A multicast line at this device as a member (R301): a warp's own line, a peer's line, a peer's line sent as unicast
stores, or the next granule of an accepted one. -/
inductive McLine where
  | own (w rec : Nat) (refuse : Bool)
  | peer (h : PktHdr) (win off : Nat) (bytes : List Byte) (refuse : Bool)
  | unicast (h : PktHdr) (off : Nat) (bytes : List Byte) (refuse : Bool)
  | granule (home g : Nat)
  deriving DecidableEq, Repr

/-- What is signed for the device (R356): a public key, an image, and the signature over it. -/
structure Signed where
  key   : List Byte
  image : List Byte
  sig   : List Byte
  deriving DecidableEq, Repr

/-- A flash slot of 256 MiB as the island reads it (R356): the magic, security version and image length of its header, and
the boot image with its key and the header's signature. What the magic is, and where the public key stands, is not stated. -/
structure BootSlot where
  magic   : Nat
  version : Nat
  len     : Nat
  boot    : Signed
  deriving DecidableEq, Repr

/-- A reset message of 512 bits as an island receives it (R362), and the senders whose accepted messages are by
now more than 2^22 ticks old (R364). -/
structure QuorumMsg where
  bits    : BitVec 512
  expired : List Nat
  deriving DecidableEq, Repr

/-- A port and whose it is (R288): this device's, or that of the peer with a device number. -/
structure PortAt where
  port : Nat
  peer : Option Nat
  deriving DecidableEq, Repr

/-- Device memory that a general core names: main memory, or a grid's scratchpad region on a die. -/
inductive DevAddr where
  | main (pa : Nat)
  | scratch (grid die off : Nat)
  deriving DecidableEq, Repr

/-- A word of a context's state (R254, R255): its record's fields, NEXT, the count of abandoned positions, a layer's
frontier, and those of the queues that reserved the positions and of a layer's states. -/
inductive CtxWord where
  | asid | cap | layers | scope | user | next | abandoned
  | queues (k : Nat)
  | frontier (layer : Nat)
  | window (layer k : Nat)
  deriving DecidableEq, Repr

/-- Where a bit error arises (R358): `corrected` is a single-bit error in a die's arrays, in a core of it or
not; the others are double-bit errors, `array` one of an array whose data no entry names: a cache, a TLB, the
ringmaster's. -/
inductive SoftErr where
  | corrected (die : Nat) (core : Option Nat)
  | array (die : Nat)
  | vreg (w L r : Nat)
  | sreg (w r : Nat)
  | main (pa : Nat)
  | shared (team off : Nat)
  | scratch (grid die off : Nat)
  | spill (w off : Nat)
  | tile (core t off : Nat)
  | bslot (core slot off : Nat)
  | context (ctx : Nat) (word : CtxWord)
  | forest (f e : Nat)
  | port (port : Nat)
  deriving DecidableEq, Repr

/-- What the supervisor may do to a forest whose queue has been reset (R250). -/
inductive ForestAct where
  | undo | keep | close
  deriving DecidableEq, Repr

/-- What the supervisor does without a device register (R17, R69, R75, R179, R209, R235, R250, R276, R287,
R322, R328, R332, R341, R354, R361): its answers to what the device asks, and what it sets up. -/
inductive SupReply where
  /-- The status of an SVC of a fragment. -/
  | svc (w slot : Nat) (status : Nat)
  /-- A copy, transfer or EQREL stopped at a translation fault resumes or fails. -/
  | copy (w id : Nat) (resume : Bool)
  /-- The pages that an EQ.OPEN asks for are pinned, or refused. -/
  | pin (w id : Nat) (granted : Bool)
  /-- A forest that is left open is undone, kept or closed. -/
  | forest (f : Nat) (act : ForestAct)
  /-- A handle fetch of an array stopped at a translation fault resumes or fails. -/
  | fetch (core op : Nat) (resume : Bool)
  /-- An aborted idempotent team starts again, or is given up. -/
  | idem (team : Nat) (requeue : Bool)
  /-- A translation fault of a queue's packet, signal, descriptor, image or argument is resolved or
  declined. -/
  | queue (q : Nat) (resolved : Bool)
  /-- A translation fault of a child grid's acceptance or of a grid's completion update is resolved or
  declined. -/
  | grid (g : Nat) (resolved : Bool)
  /-- The ringmaster firmware is verified and loaded. -/
  | firmware (fw : Signed)
  /-- A queue is assigned to a host, or to none; a range of memory is mapped for a host. -/
  | host (q : Nat) (host : Option Nat)
  | hostMap (host base len : Nat)
  /-- A translation fault of the hub's copy is resolved or declined. -/
  | hub (id : Nat) (resolved : Bool)
  /-- A stream of the token inbox is bound to a ring; or unbound. -/
  | bind (stream grid off peers : Nat)
  | unbind (stream : Nat)
  /-- The table root of an address space; an address space with none ends. -/
  | root (asid : Nat) (pa : Option Nat)
  /-- The job of a context, and the devices of a job. -/
  | job (asid job : Nat)
  | peers (job : Nat) (devices : List Nat)
  /-- An executable mapping is removed. -/
  | unmap (asid va : Nat)
  /-- A scan of a unit is asked of a die's scanner, which SCAN_REQUEST serves (R69). -/
  | scan (die : Nat) (req : ScanReq)
  /-- The four partners. -/
  | partners (devices : List Nat)
  deriving DecidableEq, Repr

/-- What an array's turn is: the next unit of its oldest operation; or the operand fetcher reads
ahead (R204): a granule of a warp's shared memory or scratchpad, or a granule of the tile that
operation `op` fetches through a handle. -/
inductive MxTurn where
  | unit
  | ahead (w : Nat) (scratch : Bool) (g : Nat)
  | fetch (op g : Nat)
  deriving DecidableEq, Repr


/-- One instruction or event of the Shudal. -/
inductive Instr where
  /-- ADD (R98). Scalar add modulo 2^32 of two registers. -/
  | add (d a b : Nat)
  /-- SUB (R98). Scalar subtract modulo 2^32. -/
  | sub (d a b : Nat)
  /-- AND (R98). Scalar bitwise and. -/
  | and (d a b : Nat)
  /-- OR (R98). Scalar bitwise or. -/
  | or (d a b : Nat)
  /-- XOR (R98). Scalar bitwise exclusive or. -/
  | xor (d a b : Nat)
  /-- SHL (R98). Scalar shift left by B mod 32. -/
  | shl (d a b : Nat)
  /-- SHR (R98). Scalar logical shift right. -/
  | shr (d a b : Nat)
  /-- SRA (R98). Scalar arithmetic shift right. -/
  | sra (d a b : Nat)
  /-- MIN (R98). Scalar signed minimum. -/
  | min (d a b : Nat)
  /-- MAX (R98). Scalar signed maximum. -/
  | max (d a b : Nat)
  /-- MINN (R98). Scalar unsigned minimum. -/
  | minn (d a b : Nat)
  /-- MAXN (R98). Scalar unsigned maximum. -/
  | maxn (d a b : Nat)
  /-- SLT (R98). Scalar signed less-than compare. -/
  | slt (d a b : Nat)
  /-- SLTN (R98). Scalar unsigned less-than compare. -/
  | sltn (d a b : Nat)
  /-- SEQ (R98). Scalar equality compare. -/
  | seq (d a b : Nat)
  /-- SNE (R98). Scalar inequality compare. -/
  | sne (d a b : Nat)
  /-- MUL (R99). Scalar multiply, low 32 bits. -/
  | mul (d a b : Nat)
  /-- MULH (R99). Scalar signed multiply, high 32 bits. -/
  | mulh (d a b : Nat)
  /-- MULHN (R99). Scalar unsigned multiply, high 32 bits. -/
  | mulhn (d a b : Nat)
  /-- DIV (R99). Scalar signed divide; DIVZ trap under TCTL.DZ. -/
  | div (d a b : Nat)
  /-- DIVN (R99). Scalar unsigned divide. -/
  | divn (d a b : Nat)
  /-- REM (R99). Scalar signed remainder. -/
  | rem (d a b : Nat)
  /-- REMN (R99). Scalar unsigned remainder. -/
  | remn (d a b : Nat)
  /-- LEA (R100). Scalar add with shifted index. -/
  | lea (d a b sh : Nat)
  /-- POPC (R100). Scalar population count. -/
  | popc (d a : Nat)
  /-- CLZ (R100). Scalar count leading zeros. -/
  | clz (d a : Nat)
  /-- CTZ (R100). Scalar count trailing zeros. -/
  | ctz (d a : Nat)
  /-- BREV (R100). Scalar bit reverse. -/
  | brev (d a : Nat)
  /-- SELNZ (R100). Scalar conditional move when S[b] is non-zero. -/
  | selnz (d a b : Nat)
  /-- EXTB (R100). Scalar bit-field extract. -/
  | extb (d a pos len : Nat) (sx : Bool)
  /-- INSB (R100). Scalar bit-field insert. -/
  | insb (d a pos len : Nat)
  /-- ADDI (R101). Scalar add immediate. -/
  | addi (d a : Nat) (imm : Int)
  /-- ANDI (R101). Scalar and with sign-extended immediate. -/
  | andi (d a : Nat) (imm : Int)
  /-- ORI (R101). Scalar or with immediate. -/
  | ori (d a : Nat) (imm : Int)
  /-- XORI (R101). Scalar xor with immediate. -/
  | xori (d a : Nat) (imm : Int)
  /-- SHLI (R101). Scalar shift left by immediate. -/
  | shli (d a sh : Nat)
  /-- SHRI (R101). Scalar logical shift right by immediate. -/
  | shri (d a sh : Nat)
  /-- SRAI (R101). Scalar arithmetic shift right by immediate. -/
  | srai (d a sh : Nat)
  /-- SLTI (R101). Scalar signed compare with immediate. -/
  | slti (d a : Nat) (imm : Int)
  /-- SLTNI (R101). Scalar unsigned compare with sign-extended immediate. -/
  | sltni (d a : Nat) (imm : Int)
  /-- SEQI (R101). Scalar equality with immediate. -/
  | seqi (d a : Nat) (imm : Int)
  /-- MOVHI (R101). Load an 18-bit immediate into bits 31:14. -/
  | movhi (d : Nat) (imm : Int)
  /-- MOVI (R101). Load a sign-extended 18-bit immediate. -/
  | movi (d : Nat) (imm : Int)
  /-- MOVL (R101). Two-word load of a 32-bit literal. -/
  | movl (d : Nat) (lit : Word)
  /-- FADD (R102). Scalar binary32 add, rne. -/
  | fadd (d a b : Nat)
  /-- FSUB (R102). Scalar binary32 subtract. -/
  | fsub (d a b : Nat)
  /-- FMUL (R102). Scalar binary32 multiply. -/
  | fmul (d a b : Nat)
  /-- FMIN (R102). Scalar binary32 minimum. -/
  | fmin (d a b : Nat)
  /-- FMAX (R102). Scalar binary32 maximum. -/
  | fmax (d a b : Nat)
  /-- FEQ (R102). Scalar binary32 equal compare. -/
  | feq (d a b : Nat)
  /-- FLT (R102). Scalar binary32 less-than compare. -/
  | flt (d a b : Nat)
  /-- FLE (R102). Scalar binary32 less-or-equal compare. -/
  | fle (d a b : Nat)
  /-- FCVTI (R102). Convert binary32 to i32. -/
  | fcvti (d a : Nat)
  /-- FCVTF (R102). Convert i32 to binary32. -/
  | fcvtf (d a : Nat)
  /-- FABS (R102). Scalar clear of the sign bit. -/
  | fabs (d a : Nat)
  /-- FFMA (R102). Scalar fused multiply-add into S[d]. -/
  | ffma (d a b : Nat)
  /-- SLD (R103). Scalar load of a shared-memory word. -/
  | sld (d a : Nat) (off : Int)
  /-- SST (R103). Scalar store of a shared-memory word. -/
  | sst (d a : Nat) (off : Int)
  /-- XLD (R103). Scalar load of a scratchpad word. -/
  | xld (d a : Nat) (off : Int)
  /-- XST (R103). Scalar store of a scratchpad word. -/
  | xst (d a : Nat) (off : Int)
  /-- SPUSH (R105). Push a register onto the spill stack. -/
  | spush (a : Nat)
  /-- SPOP (R105). Pop a register from the spill stack. -/
  | spop (d : Nat)
  /-- BR (R106). Unconditional branch. -/
  | br (off : Int)
  /-- BEQZ (R106). Branch if register is zero. -/
  | beqz (a : Nat) (off : Int)
  /-- BNEZ (R106). Branch if register is non-zero. -/
  | bnez (a : Nat) (off : Int)
  /-- BLTZ (R106). Branch if register is negative. -/
  | bltz (a : Nat) (off : Int)
  /-- BGEZ (R106). Branch if register is non-negative. -/
  | bgez (a : Nat) (off : Int)
  /-- CALL (R106). Write the link offset and branch. -/
  | call (a : Nat) (off : Int)
  /-- JR (R106). Jump to the scalar offset in a register. -/
  | jr (a : Nat)
  /-- BRV (R109). Two-word split of a fragment on a lane predicate with a join address. -/
  | brv (neg : Bool) (p : Nat) (off join : Int)
  /-- EXIT (R107). End the executing fragment. -/
  | exit
  /-- YIELD (R108). Place the fragment last in round-robin order. -/
  | yield
  /-- LOOP (R106). Decrement counter and branch if non-zero. -/
  | loop (a : Nat) (off : Int)
  /-- LRUN (R112). Two-word enqueue of a run with arguments and await mask. -/
  | lrun (run await n x0 x1 x2 x3 : Nat)
  /-- LWAIT (R113). Wait until runs naming the tokens have committed and landed. -/
  | lwait (mask : Nat)
  /-- LGET (R114). Read one lane of a vector register into a scalar register. -/
  | lget (d a v : Nat)
  /-- LPUT (R114). Write one lane of a vector register after earlier runs commit. -/
  | lput (d a v : Nat)
  /-- PGET (R115). Read a predicate as a lane mask. -/
  | pget (d p : Nat)
  /-- PSET (R115). Write a predicate from a lane mask for the fragment's lanes. -/
  | pset (a p : Nat)
  /-- WAITP (R116). Wait until a path counter is at or below a threshold. -/
  | waitp (a path : Nat)
  /-- RDCNT (R116). Read a path counter. -/
  | rdcnt (d path : Nat)
  /-- FENCE (R218). Order earlier requests on named paths for a scope. -/
  | fence (scope mask : Nat)
  /-- BAR_INIT (R224). Set a barrier's count when it has no waiters or arrivals. -/
  | barInit (d a b : Nat)
  /-- BAR_ARR (R224). Arrive at a barrier and record the phase. -/
  | barArr (d a : Nat)
  /-- BAR_WAIT (R224). Wait for the phase of the warp's arrival record to complete. -/
  | barWait (d a : Nat)
  /-- BAR_ARRWAIT (R224). Arrive and wait for the phase to complete. -/
  | barArrwait (d a : Nat)
  /-- BAR_INV (R224). Invalidate a barrier and wake its waiters. -/
  | barInv (d a : Nat)
  /-- BAR_TEST (R224). Test whether the recorded phase has completed. -/
  | barTest (d a : Nat)
  /-- WAITV_EQ_SH (R228). Wait until a shared word equals a value. -/
  | waitvEqSh (d a b : Nat)
  /-- WAITV_NE_SH (R228). Wait until a shared word differs from a value. -/
  | waitvNeSh (d a b : Nat)
  /-- WAITV_EQ_SC (R228). Wait until a scratchpad word equals a value. -/
  | waitvEqSc (d a b : Nat)
  /-- WAITV_NE_SC (R228). Wait until a scratchpad word differs from a value. -/
  | waitvNeSc (d a b : Nat)
  /-- SCOPESET (R214). Write a programmable scope entry from a core bitmap. -/
  | scopeset (d k b : Nat)
  /-- CPY_LIN (R166). Issue a linear copy. -/
  | cpyLin (a : Nat)
  /-- CPY_TILE (R166). Issue a tiled copy through a handle. -/
  | cpyTile (a : Nat)
  /-- CPY_RING (R166). Issue a copy from a descriptor ring. -/
  | cpyRing (a : Nat)
  /-- CPYW (R175). Wait for a completion slot's non-zero STATUS; `off` counts slots of 64 bytes. -/
  | cpyw (d a : Nat) (off : Int)
  /-- THBIND (R165). Bind a tile handle to a layout record. -/
  | thbind (d h b : Nat)
  /-- CQPUT (R176). Append a value to the team stage queue. -/
  | cqput (a : Nat)
  /-- CQGET (R176). Remove the oldest stage-queue value. -/
  | cqget (d : Nat)
  /-- LXFER_RESTRICT (R181). Issue a restriction level transfer, optionally adding. -/
  | lxferRestrict (a : Nat) (add : Bool)
  /-- LXFER_PROLONG (R181). Issue a prolongation level transfer, optionally adding. -/
  | lxferProlong (a : Nat) (add : Bool)
  /-- LXFER_INJECT (R181). Issue an injection level transfer, optionally adding. -/
  | lxferInject (a : Nat) (add : Bool)
  /-- STBIND (R187). Bind a stencil table slot to a copy of a table. -/
  | stbind (d k b : Nat)
  /-- CPYPROG (R178). Read the progress of the oldest unretired copy. -/
  | cpyprog (d : Nat)
  /-- MACQ_SINGLE (R193). Queue for ownership of the array with reserved slots. -/
  | macqSingle (d n : Nat)
  /-- MACQ_PAIR (R193). Queue for ownership of this array and its neighbour's. -/
  | macqPair (d n : Nat)
  /-- MACQ_TRY (R193). Take the array only if it is free at once. -/
  | macqTry (d n : Nat)
  /-- MREL (R194). End ownership of the array. -/
  | mrel
  /-- MLD_ROW (R200). Load a tile register row-major. -/
  | mldRow (t a : Nat)
  /-- MLD_COL (R200). Load a tile register column-major. -/
  | mldCol (t a : Nat)
  /-- MST (R200). Store a tile register. -/
  | mst (t a : Nat)
  /-- MMA_TILE (R202). One K-step with A from a tile register. -/
  | mmaTile (acc t slot fmt : Nat)
  /-- MMA_HANDLE (R202). One K-step with A fetched through a handle. -/
  | mmaHandle (acc h slot fmt : Nat)
  /-- MBL_SHARED (R201). Fill a B slot from shared memory. -/
  | mblShared (slot a : Nat) (off : Int)
  /-- MBL_HANDLE (R201). Fill a B slot through a handle fetch. -/
  | mblHandle (slot a : Nat)
  /-- MFENCE (R206). Close the open matrix batch and return its number. -/
  | mfence (d : Nat)
  /-- MWAIT (R206). Wait for batches to retire and report failures. -/
  | mwait (a : Nat)
  /-- MOPF (R205). Mark the operand-fetch ordering point. -/
  | mopf
  /-- MDRAIN_SHARED (R207). Drain an accumulator into shared memory. -/
  | mdrainShared (acc a fmt : Nat)
  /-- MDRAIN_TILE (R207). Drain an accumulator into a tile register. -/
  | mdrainTile (acc t fmt : Nat)
  /-- MZERO (R200). Zero a tile register. -/
  | mzero (t : Nat)
  /-- MPROG (R210). Read the progress of the oldest matrix operation. -/
  | mprog (d : Nat)
  /-- EQ_OPEN (R235). Open a forest slot from a descriptor. -/
  | eqOpen (d n b : Nat)
  /-- EQ_CLOSE (R236). Close a forest and write it back. -/
  | eqClose (d n : Nat)
  /-- EQ_SNAP (R237). Open a forest snapshot. -/
  | eqSnap (d n : Nat)
  /-- EQ_UNDO (R237). Undo unions back to the snapshot. -/
  | eqUndo (d n : Nat)
  /-- EQ_KEEP (R237). Keep unions and close the snapshot. -/
  | eqKeep (d n : Nat)
  /-- EQ_STAT (R238). Read a page of class registers. -/
  | eqStat (d n page : Nat)
  /-- EQREL_ROOT (R245). Relabel elements with their roots. -/
  | eqrelRoot (a : Nat)
  /-- EQREL_DENSE (R245). Relabel elements with dense class numbers. -/
  | eqrelDense (a : Nat)
  /-- EQREL_SUM (R245). Sum a tensor over classes. -/
  | eqrelSum (a : Nat)
  /-- EQREL_MIN (R245). Minimum of a tensor over classes. -/
  | eqrelMin (a : Nat)
  /-- EQREL_MAX (R245). Maximum of a tensor over classes. -/
  | eqrelMax (a : Nat)
  /-- CTX_RES (R261). Reserve consecutive context positions. -/
  | ctxRes (d a b : Nat)
  /-- CTX_PUB (R262). Publish positions at a layer as a release. -/
  | ctxPub (d a b : Nat)
  /-- CTX_ACQ (R263). Acquire a layer's frontier and hole bitmap. -/
  | ctxAcq (d a b : Nat)
  /-- CTX_ABN (R264). Abandon positions at every open layer. -/
  | ctxAbn (d a b : Nat)
  /-- CTX_STAT (R265). Read one item of context state. -/
  | ctxStat (d a b : Nat)
  /-- TEMPC (R270). Classify a temperature and compute its factor. -/
  | tempc (d a : Nat)
  /-- MASKWAIT (R275). Wait for a mask block TAG with a timeout. -/
  | maskwait (d a b : Nat)
  /-- TOKSEND (R277). Send a token to a stream of a token inbox. -/
  | toksend (d a b : Nat)
  /-- FMC (R300). Multicast a line to a group and take a record. -/
  | fmc (d a b lenm1 : Nat)
  /-- FQUIET (R303). Wait until runs commit and the FB counter is zero. -/
  | fquiet
  /-- FGRP_SET (R299). Set a multicast group's bitmap. -/
  | fgrpSet (d a b : Nat)
  /-- FGRP_OR (R299). Add members to a multicast group. -/
  | fgrpOr (d a b : Nat)
  /-- FGRP_CLEAR (R299). Remove members from a multicast group. -/
  | fgrpClear (d a b : Nat)
  /-- FACK (R302). Read a page of a multicast record; page 3 frees it. -/
  | fack (d a page : Nat)
  /-- TRAP (R320). Raise a software trap. -/
  | trap (k : Nat)
  /-- TRET (R318). Return from a handler, re-enqueueing held runs. -/
  | tret
  /-- RDSR (R321). Read a system register. -/
  | rdsr (d r : Nat)
  /-- WRSR (R321). Write a system register by its access rule. -/
  | wrsr (a r : Nat)
  /-- LAUNCH (R351). Launch a child grid from a launch record. -/
  | launch (a : Nat)
  /-- SVC_PAGEIN (R322). Ask the supervisor to make a page resident. -/
  | svcPagein (d a : Nat)
  /-- SVC_NOTE (R322). Deliver a report word to the supervisor. -/
  | svcNote (d a : Nat)
  /-- EVSEL (R365). Select a core event counter's source and clear it. -/
  | evsel (k b : Nat)
  /-- EVRD (R365). Read a 48-bit core event counter. -/
  | evrd (d k : Nat)
  /-- SSAVE (R323). Save the scalar file to main memory. -/
  | ssave (a : Nat)
  /-- SREST (R323). Restore the scalar file from main memory. -/
  | srest (a : Nat)
  /-- LNOP (R126). Lane no-operation. -/
  | lnop (o : LaneOp)
  /-- TRAIL (R126). Close a run with a token and request its commit. -/
  | trail (o : LaneOp)
  /-- LANE_ADD (R129). Lane integer add. -/
  | laneAdd (o : LaneOp)
  /-- LANE_SUB (R129). Lane integer subtract. -/
  | laneSub (o : LaneOp)
  /-- LANE_MUL (R129). Lane integer multiply. -/
  | laneMul (o : LaneOp)
  /-- LANE_MULH (R129). Lane high half of product. -/
  | laneMulh (o : LaneOp)
  /-- MAD (R129). Lane integer multiply-add. -/
  | mad (o : LaneOp)
  /-- LANE_DIV (R129). Lane integer divide; DIVZ under TCTL.DZ. -/
  | laneDiv (o : LaneOp)
  /-- LANE_REM (R129). Lane integer remainder. -/
  | laneRem (o : LaneOp)
  /-- LANE_MIN (R129). Lane integer minimum. -/
  | laneMin (o : LaneOp)
  /-- LANE_MAX (R129). Lane integer maximum. -/
  | laneMax (o : LaneOp)
  /-- ABS (R129). Lane integer absolute value. -/
  | abs (o : LaneOp)
  /-- NEG (R129). Lane integer negate. -/
  | neg (o : LaneOp)
  /-- LANE_AND (R129). Lane bitwise and. -/
  | laneAnd (o : LaneOp)
  /-- LANE_OR (R129). Lane bitwise or. -/
  | laneOr (o : LaneOp)
  /-- LANE_XOR (R129). Lane bitwise xor. -/
  | laneXor (o : LaneOp)
  /-- NOT (R129). Lane bitwise complement. -/
  | not (o : LaneOp)
  /-- LANE_SHL (R129). Lane shift left. -/
  | laneShl (o : LaneOp)
  /-- LANE_SHR (R129). Lane logical shift right. -/
  | laneShr (o : LaneOp)
  /-- LANE_SRA (R129). Lane arithmetic shift right. -/
  | laneSra (o : LaneOp)
  /-- ROT (R129). Lane rotate left. -/
  | rot (o : LaneOp)
  /-- LANE_POPC (R129). Lane population count. -/
  | lanePopc (o : LaneOp)
  /-- LANE_CLZ (R129). Lane count leading zeros. -/
  | laneClz (o : LaneOp)
  /-- BFE (R130). Lane bit-field extract. -/
  | bfe (o : LaneOp)
  /-- BFI (R130). Lane bit-field insert. -/
  | bfi (o : LaneOp)
  /-- SAD (R129). Lane sum of absolute difference. -/
  | sad (o : LaneOp)
  /-- LANE_FADD (R131). Lane float add with rounding mode. -/
  | laneFadd (o : LaneOp)
  /-- LANE_FSUB (R131). Lane float subtract. -/
  | laneFsub (o : LaneOp)
  /-- LANE_FMUL (R131). Lane float multiply. -/
  | laneFmul (o : LaneOp)
  /-- LANE_FFMA (R131). Lane fused multiply-add. -/
  | laneFfma (o : LaneOp)
  /-- LANE_FMIN (R131). Lane float minimum. -/
  | laneFmin (o : LaneOp)
  /-- LANE_FMAX (R131). Lane float maximum. -/
  | laneFmax (o : LaneOp)
  /-- LANE_FABS (R131). Lane clear sign bit. -/
  | laneFabs (o : LaneOp)
  /-- FNEG (R131). Lane invert sign bit. -/
  | fneg (o : LaneOp)
  /-- FRCP (R131). Lane reciprocal. -/
  | frcp (o : LaneOp)
  /-- FRSQ (R132). Lane reciprocal square root. -/
  | frsq (o : LaneOp)
  /-- FSQRT (R131). Lane square root. -/
  | fsqrt (o : LaneOp)
  /-- FDIV (R131). Lane float divide. -/
  | fdiv (o : LaneOp)
  /-- FEXP2 (R132). Lane base-2 exponential. -/
  | fexp2 (o : LaneOp)
  /-- FEXP (R132). Lane natural exponential. -/
  | fexp (o : LaneOp)
  /-- FLOG2 (R132). Lane base-2 logarithm. -/
  | flog2 (o : LaneOp)
  /-- FSIN (R132). Lane sine. -/
  | fsin (o : LaneOp)
  /-- FCOS (R132). Lane cosine. -/
  | fcos (o : LaneOp)
  /-- FTANH (R132). Lane hyperbolic tangent. -/
  | ftanh (o : LaneOp)
  /-- FCLASS (R133). Lane float class mask. -/
  | fclass (o : LaneOp)
  /-- CVT (R136). Lane type conversion. -/
  | cvt (o : LaneOp)
  /-- CVTSR (R137). Lane stochastic rounding to bf16 or f16. -/
  | cvtsr (o : LaneOp)
  /-- QNT (R138). Lane quantise to q8 or q4. -/
  | qnt (o : LaneOp)
  /-- DQN (R139). Lane dequantise a code to binary32. -/
  | dqn (o : LaneOp)
  /-- PACK (R140). Lane pack one element into a word. -/
  | pack (o : LaneOp)
  /-- UNPK (R140). Lane unpack one element from a word. -/
  | unpk (o : LaneOp)
  /-- RNG4 (R141). Lane Philox-4x32-10 draw of four words. -/
  | rng4 (o : LaneOp)
  /-- SETP (R134). Lane compare into a predicate. -/
  | setp (o : LaneOp)
  /-- PLOG (R135). Lane logic on two conditions into a predicate. -/
  | plog (o : LaneOp)
  /-- SEL (R135). Lane select on a condition. -/
  | sel (o : LaneOp)
  /-- MOV (R135). Lane register move. -/
  | mov (o : LaneOp)
  /-- MOVP (R135). Lane move of a condition into a predicate. -/
  | movp (o : LaneOp)
  /-- PERM (R145). Lane permute from named source lanes. -/
  | perm (o : LaneOp)
  /-- SHFL (R146). Lane shuffle among member lanes. -/
  | shfl (o : LaneOp)
  /-- VOTE (R147). Lane vote all, any or ballot. -/
  | vote (o : LaneOp)
  /-- RED (R148). Lane reduction in fixed tree order. -/
  | red (o : LaneOp)
  /-- SCAN (R149). Lane prefix scan in ascending order. -/
  | scan (o : LaneOp)
  /-- MATCH (R150). Lane mask of lanes with equal values. -/
  | matchLanes (o : LaneOp)
  /-- LDS (R153). Lane load from shared memory. -/
  | lds (o : LaneOp)
  /-- STS (R153). Lane store to shared memory. -/
  | sts (o : LaneOp)
  /-- LDX (R153). Lane load from the die scratchpad. -/
  | ldx (o : LaneOp)
  /-- STX (R153). Lane store to the die scratchpad. -/
  | stx (o : LaneOp)
  /-- LDK (R153). Lane load from the spill stack. -/
  | ldk (o : LaneOp)
  /-- STK (R153). Lane store to the spill stack. -/
  | stk (o : LaneOp)
  /-- ATS (R157). Lane atomic on shared memory. -/
  | ats (o : LaneOp)
  /-- ATX (R157). Lane atomic on the scratchpad. -/
  | atx (o : LaneOp)
  /-- GATH (R169). Lane gather of one granule per lane through a handle. -/
  | gath (o : LaneOp)
  /-- SCAT (R169). Lane scatter of one granule per lane through a handle. -/
  | scat (o : LaneOp)
  /-- FAX_LD (R294). Lane fabric load of a word. -/
  | faxLd (o : LaneOp)
  /-- FAX_LDG (R294). Lane fabric load of a granule. -/
  | faxLdg (o : LaneOp)
  /-- FAX_ST (R294). Lane fabric store of a word. -/
  | faxSt (o : LaneOp)
  /-- FAX_UNITE (R294). Lane remote union on a window's forest. -/
  | faxUnite (o : LaneOp)
  /-- FAX_FIND (R294). Lane remote find on a window's forest. -/
  | faxFind (o : LaneOp)
  /-- FAX_ATOMIC (R294). Lane fabric atomic add, min, max, logic, xchg or cas. -/
  | faxAtomic (o : LaneOp)
  /-- UNITE (R240). Lane union request on a forest. -/
  | unite (o : LaneOp)
  /-- FIND (R240). Lane find request on a forest. -/
  | find (o : LaneOp)
  /-- MACQ_GRANT (R193). Queued warp reaches the head with room and is granted the array. -/
  | macqGrant (core : Nat)
  /-- EQREL_RUN (R247). Home engine performs an EQREL and writes its record. -/
  | eqrelRun (w id g : Nat)
  /-- CTX_RESERVATION_GRANT (R261). A waiting reservation proceeds once FMIN has risen enough. -/
  | ctxReservationGrant (ctx : Nat)
  /-- MASKWAIT_TIMEOUT (R275). MASKWAIT's cycle count reaches its timeout and returns TIMEOUT. -/
  | maskwaitTimeout (w slot : Nat)
  /-- TOKEN_INBOX_WRITE (R277). Inbox serves a token message, writing a record or refusing. -/
  | tokenInboxWrite (msg : TokenMsg)
  /-- TOKEN_REPLY (R277). The inbox reply reaches the sender and lowers FB. -/
  | tokenReply (w id : Nat) (status : Nat)
  /-- UNITE_SERVE (R242). Home engine serves one union lane in the linear order. -/
  | uniteServe (w id : Nat)
  /-- FIND_SERVE (R241). Home engine serves one find lane with path halving. -/
  | findServe (w id : Nat)
  /-- RUN_START (R119). A queued run starts once earlier runs and awaited tokens are done. -/
  | runStart (w : Nat)
  /-- RUN_COMMIT (R121). Run write-backs take effect together and its requests issue. -/
  | runCommit (w : Nat)
  /-- RESULT_LANDS (R122). A long-latency result is written into its registers. -/
  | resultLands (w id lane : Nat)
  /-- REQUEST_RETIRES (R159). A request is performed and retires, lowering its path counter. -/
  | requestRetires (w id : Nat)
  /-- FRAGMENT_WAKE (R111). A waiting fragment's awaited condition holds and it becomes ready. -/
  | fragmentWake (w slot : Nat)
  /-- WARP_END (R107). Warp with no fragments, runs or outstanding requests ends and releases resources. -/
  | warpEnd (w : Nat)
  /-- ASYNC_TRAP_TAKEN (R315). A pending asynchronous trap is taken at a scalar boundary. -/
  | asyncTrapTaken (w : Nat)
  /-- COPY_GRANULE (R168). Copy unit advances an active copy by a granule. -/
  | copyGranule (w id g : Nat)
  /-- COPY_COMPLETE (R171). Copy writes its completion record and retires. -/
  | copyComplete (w id : Nat)
  /-- LXFER_POINT (R190). Copy unit computes and writes one destination point of a level transfer. -/
  | lxferPoint (w id : Nat)
  /-- MATRIX_OP_UNIT (R203). The array performs one unit of a matrix operation, retiring it after the last. -/
  | matrixOpUnit (core : Nat) (turn : MxTurn)
  /-- SCAN_REQUEST (R69). Scanner checks a mapping request's unit and writes its report. -/
  | scanRequest (req : ScanReq)
  /-- PREEMPT (R325). Pre-emption stops a team and saves its image. -/
  | preempt (team : Nat)
  /-- TEAM_RESUME (R327). A saved team resumes on a core. -/
  | teamResume (team core : Nat)
  /-- STALL_HINT (R304). A fabric port sends a stall hint for a backed-up peer. -/
  | stallHint (port peer : Nat)
  /-- STALL_HINT_LAPSE (R304). A stall hint lapses after 4,096 port cycles. -/
  | stallHintLapse (port peer : Nat)
  /-- PARKED_SWAP_OUT (R304). Core swaps out a team whose warps are all parked. -/
  | parkedSwapOut (team : Nat)
  /-- SHOOT_RANGE (R331). Shoot down a virtual range of TLB entries. -/
  | shootRange
  /-- SHOOT_ASID (R331). Shoot down every TLB entry of an ASID. -/
  | shootAsid
  /-- FLUSHAD (R331). Set A and D from every TLB. -/
  | flushad
  /-- CREATE (R256). Create an attention context from a record. -/
  | create (die : Nat)
  /-- DELETE (R256). Delete a context and withdraw its reservations. -/
  | delete (die : Nat)
  /-- ABANDONQ (R256). Abandon a queue's open positions of a context. -/
  | abandonq (die : Nat)
  /-- CTX_REPORT_READ (R256). A read of REPORT takes the next reset report entry. -/
  | ctxReportRead (die : Nat)
  /-- FAX_HOME_SERVE (R296). A home serves a FAX request packet through a window. -/
  | faxHomeServe (pkt : FaxPkt)
  /-- FAX_RESPONSE (R297). A FAX response arrives and its request retires. -/
  | faxResponse (w id : Nat) (resp : FaxResp)
  /-- MULTICAST_REPLICATE (R301). Switch chip replicates a multicast line to the group. -/
  | multicastReplicate (w rec chip : Nat)
  /-- MULTICAST_LINE_SERVE (R301). A member serves a multicast line whole or not at all. -/
  | multicastLineServe (line : McLine)
  /-- MULTICAST_AGGREGATE (R301). Aggregated answers complete the multicast record. -/
  | multicastAggregate (w rec dev reason : Nat)
  /-- PORT_FAILURE (R288). A fabric port dies and its traffic moves to live paths. -/
  | portFailure (port : PortAt)
  /-- LINK_TRAINING (R289). Links train, negotiate version and assign device numbers. -/
  | linkTraining (port : PortAt) (version dev : Nat)
  /-- LATE_REQUEST (R305). A request waits LATECYC cycles and is reported late. -/
  | lateRequest (w id : Nat)
  /-- LATEREP_READ (R292). A read of LATEREP takes the next late report. -/
  | laterepRead
  /-- RESET_NOTICE (R306). A device receives a queue reset notice and drops old packets. -/
  | resetNotice (peer q rcnt : Nat)
  /-- RESET_NOTICE_ACK (R306). A peer's acknowledgement of a reset notice arrives. -/
  | resetNoticeAck (peer q : Nat)
  /-- KEY_INSTALL (R307). Writing KCTL installs KEYNEXT at the next packet boundary. -/
  | keyInstall (port : Nat)
  /-- KEY_ALARM (R307). Key flit counter reaches 2^35 and raises the alarm. -/
  | keyAlarm (port : Nat)
  /-- KEY_EXHAUSTED (R307). Key counter reaches 2^36 − 2 and the port stops sending. -/
  | keyExhausted (port : Nat)
  /-- WRITE_WINDOW (R290). Write a peer window entry. -/
  | writeWindow
  /-- REVOKE (R291). Revoke a peer window. -/
  | revoke
  /-- REVOKE_COMPLETE (R291). Revocation completes once accepted requests are performed. -/
  | revokeComplete
  /-- DOORBELL (R339). A WPTR write announces new packets to a queue. -/
  | doorbell (q : Bell) (wptr : Nat)
  /-- QUEUE_RESET (R355). QCMD RESET starts a queue reset. -/
  | queueReset (q : Nat)
  /-- RESUME (R354). QCMD RESUME returns a halted queue to running. -/
  | resume (q : Nat)
  /-- DISABLE (R339). QCMD DISABLE disables an idle queue. -/
  | disable (q : Nat)
  /-- RESET_COMPLETE (R355). Queue reset completes after all acknowledgements; queue goes IDLE. -/
  | resetComplete (q : Nat)
  /-- PACKET_PREFETCH (R347). A ringmaster lane fetches packets ahead. -/
  | packetPrefetch (q : Nat)
  /-- NOP_PACKET (R344). Serve a NOP packet. -/
  | nopPacket (q : Nat)
  /-- RESET_PACKET (R355). Serve a RESET packet, resetting the queue. -/
  | resetPacket (q : Nat)
  /-- FETCHFENCE (R347). Discard prefetched packets behind it. -/
  | fetchfence (q : Nat)
  /-- SIGNAL (R344). Set or add to a signal. -/
  | signal (q : Nat)
  /-- WAITSIG (R344). Wait for a signal condition. -/
  | waitsig (q : Nat)
  /-- WAITSIG_TIMEOUT (R344). WAITSIG timeout expires and the queue halts. -/
  | waitsigTimeout (q : Nat)
  /-- IB (R345). Open an indirect buffer level. -/
  | ib (q : Nat)
  /-- IBRET (R345). Close the innermost buffer level. -/
  | ibret (q : Nat)
  /-- LAUNCH_PACKET (R349). Hand a grid to the distributor. -/
  | launchPacket (q : Nat)
  /-- NLAUNCH (R353). Hand a neighbourhood grid to the distributor. -/
  | nlaunch (q : Nat)
  /-- COPY_PACKET (R346). Start a copy on the hub copy engine. -/
  | copyPacket (q : Nat)
  /-- HARVEST (R344). Wait until every TLB has set A and D for the ASID. -/
  | harvest (q : Nat)
  /-- QUEUE_WAIT_END (R344). A waiting packet's condition holds and the queue resumes. -/
  | queueWaitEnd (q : Nat)
  /-- HUB_COPY_BLOCK (R346). Hub copy engine advances a copy by a 256-byte block. -/
  | hubCopyBlock (id g : Nat)
  /-- HUB_COPY_COMPLETE (R346). Hub copy finishes and updates its signal. -/
  | hubCopyComplete (id : Nat)
  /-- TEAM_PLACE (R352). Distributor places a team on a core and starts its warps. -/
  | teamPlace (grid : Nat)
  /-- NBHD_PLACE (R353). Distributor places a neighbourhood on a free rectangle. -/
  | nbhdPlace (grid : Nat)
  /-- GRID_RETIRE (R350). Grid retires and its completion signal is updated. -/
  | gridRetire (grid : Nat)
  /-- BOOT (R356). Island verifies a flash slot and boots the device. -/
  | boot (slots : List BootSlot)
  /-- SPARE (R359). Spare an HBM row. -/
  | spare (die : Nat)
  /-- ATTEST (R357). Write a signed attestation report. -/
  | attest
  /-- EXTEND (R360). Extend the extended digest. -/
  | extend
  /-- EVGRANT (R360). Grant or withdraw event counters for a context on a core. -/
  | evgrant
  /-- RAISEMIN (R360). Raise the fused minimum security version. -/
  | raisemin
  /-- HKEY (R363). Install the health key. -/
  | hkey
  /-- ELOG_READ (R360). A read of ELOG takes the next error log entry. -/
  | elogRead (die : Nat)
  /-- HBM_SCRUB (R358). Periodic scrub of every HBM row. -/
  | hbmScrub
  /-- HEARTBEAT_SEND (R361). Island sends heartbeats every 2^20 ticks. -/
  | heartbeatSend
  /-- HEARTBEAT_RECEIVE (R361). Island receives a partner's heartbeat. -/
  | heartbeatReceive (peer : Nat)
  /-- PARTNER_SILENT (R362). A partner's beat is absent too long; a reset message is sent. -/
  | partnerSilent (peer : Nat)
  /-- QUORUM_RESET_MESSAGE (R364). Island judges a reset message and resets on a quorum of three. -/
  | quorumResetMessage (msg : QuorumMsg)
  /-- THERMAL_WARNING (R366). TEMP exceeds 95 °C and a warning is reported. -/
  | thermalWarning
  /-- THERMAL_TRIP (R366). At 110 °C power is removed from the package. -/
  | thermalTrip
  /-- REGISTER_WRITE (R339). Write to a device register that has no behaviour of its own. -/
  | registerWrite (pa : Nat) (v : DWord)
  /-- EQ_SERVE (R239). The home equivalence engine serves a scalar OPEN, CLOSE, SNAP, UNDO, KEEP or STAT request at its place in the forest's linear order. -/
  | eqServe (w id : Nat)
  /-- CTX_SERVE (R258). The home context unit serves a CTX.RES, PUB, ACQ, ABN or STAT request at its place in the context's linear order. -/
  | ctxServe (w slot : Nat)
  /-- SUPERVISOR_REPLY (R322). The supervisor answers an SVC, a pin request of EQ.OPEN, or a reported translation fault of a copy, transfer, EQREL, handle fetch or idempotent team by resolving or declining it. -/
  | supervisorReply (r : SupReply)
  /-- GENERAL_CORE_STORE (R274). A general core stores to device memory, such as a mask bitmap, its TAG after a fence, or a translation table entry. -/
  | generalCoreStore (place : DevAddr) (bytes : List Byte)
  /-- HOST_MEMORY_WRITE (R341). A host writes queue packets into a ring through memory mapped for it over a PCIe host port. -/
  | hostMemoryWrite (pa : HostAddr) (bytes : List Byte)
  /-- GROUP_TABLE_UPDATE (R299). A switch chip replaces its group bitmap in one action and acknowledges the FGRP, or fails to acknowledge it. -/
  | groupTableUpdate (w slot chip : Nat) (ack : Bool)
  /-- SOFT_ERROR (R358). A bit error arises in an SRAM array, HBM, forest cache, context state or port buffer. -/
  | softError (err : SoftErr)
  /-- POWER_LOSS (R366). The module loses its supply, stopping the package and, without standby power, the always-on island. -/
  | powerLoss (standby : Bool)
  deriving DecidableEq, Repr

end Sys2Proof
end

