-- ==== Sys2Proof/Machine/LaneRules.lean ====
section
/-! DEFINITION. Which lane encodings are instructions (R60 to R68), on the fields of a slot.

One row per opcode and group of modifiers states what its class chapter accepts: the types, how each
source field is used, what the destination names. The scanner (R70), the decoder and well-formedness
all read this one table. -/
namespace Sys2Proof.Machine

/-- The scanner's reasons for one word or slot and for a run (R71). -/
inductive Reason where
  /-- 0x01 major opcode not in R57. -/
  | op
  /-- 0x02 fn value not listed for the opcode. -/
  | fn
  /-- 0x03 non-zero bits in a field marked as zero. -/
  | zero
  /-- 0x04 immediate or group outside its range. -/
  | range
  /-- 0x05 two-word form cut off. -/
  | cut
  /-- 0x06 static target not a start. -/
  | target
  /-- 0x10 lane opcode not in R64. -/
  | laneOp
  /-- 0x11 type not accepted. -/
  | laneTy
  /-- 0x12 fn or CVT fields not listed. -/
  | laneFn
  /-- 0x13 rsv, unread source or unused w2 not zero. -/
  | laneZero
  /-- 0x14 source selector or latch index not allowed. -/
  | laneSel
  /-- 0x15 guard, destination, nw or pairing. -/
  | laneDest
  /-- 0x16 run longer than 24. -/
  | runLong
  /-- 0x17 TRAIL missing or padding inside a run. -/
  | noTrail
  /-- 0x18 latch read of the same or a later instruction. -/
  | latchLate
  /-- 0x19 latch read of a long-latency or result-less instruction. -/
  | latchLong
  /-- 0x1A LRUN run field not a run start. -/
  | runField
  deriving DecidableEq, Repr

/-- The reason code of R71. -/
def Reason.code : Reason → Nat
  | .op => 0x01 | .fn => 0x02 | .zero => 0x03 | .range => 0x04 | .cut => 0x05 | .target => 0x06
  | .laneOp => 0x10 | .laneTy => 0x11 | .laneFn => 0x12 | .laneZero => 0x13 | .laneSel => 0x14
  | .laneDest => 0x15 | .runLong => 0x16 | .noTrail => 0x17 | .latchLate => 0x18
  | .latchLong => 0x19 | .runField => 0x1A

/-- The code of a lane type (R62). -/
def tyCode : LaneTy → Nat
  | .b32 => 0 | .i8 => 1 | .i16 => 2 | .i32 => 3 | .i64 => 4 | .n8 => 5 | .n16 => 6 | .n32 => 7
  | .n64 => 8 | .f16 => 9 | .bf16 => 10 | .f32 => 11 | .f64 => 12 | .e4m3 => 13 | .e5m2 => 14
  | .e2m1 => 15 | .q4 => 16 | .q8 => 17 | .b64 => 18

/-- The lane type of a code; codes 19 to 31 are not instructions (R62). -/
def tyOfCode : Nat → Option LaneTy
  | 0 => some .b32 | 1 => some .i8 | 2 => some .i16 | 3 => some .i32 | 4 => some .i64
  | 5 => some .n8 | 6 => some .n16 | 7 => some .n32 | 8 => some .n64 | 9 => some .f16
  | 10 => some .bf16 | 11 => some .f32 | 12 => some .f64 | 13 => some .e4m3 | 14 => some .e5m2
  | 15 => some .e2m1 | 16 => some .q4 | 17 => some .q8 | 18 => some .b64
  | _ => none

/-- The types of 64 bits, which name even registers of pairs (R63). -/
def wideTy (t : LaneTy) : Bool := t = .i64 || t = .n64 || t = .f64 || t = .b64

/-- The 9-bit field of a source (R61). -/
def srcField : Src → Nat
  | .v r => r
  | .q k => 0x100 + k
  | .w2 => 0x120
  | .arg i => 0x140 + i
  | .lane => 0x160
  | .warp => 0x161
  | .frag => 0x162
  | .pred p => 0x180 + p

/-- The operand a 9-bit source field selects; `none` where R61 calls it not an instruction. -/
def srcOfField (f : Nat) : Option Src :=
  if f < 0x100 then some (.v f)
  else if f ≤ 0x116 then some (.q (f - 0x100))
  else if f = 0x120 then some .w2
  else if 0x140 ≤ f ∧ f < 0x144 then some (.arg (f - 0x140))
  else if f = 0x160 then some .lane
  else if f = 0x161 then some .warp
  else if f = 0x162 then some .frag
  else if 0x180 ≤ f ∧ f < 0x188 then some (.pred (f - 0x180))
  else none

/-- How an instruction uses a source field. -/
inductive SrcUse where
  /-- Not read: the field is 0x000. -/
  | unread
  /-- Any operand but a predicate. -/
  | plain
  /-- A condition source (R135): a predicate source too. -/
  | cond
  /-- The member mask: a run argument only (R143). -/
  | member
  /-- A handle or a forest: the w2 immediate or a run argument (R169, R240). -/
  | immArg
  /-- The peer of FAX: a run argument or a vector register (R294). -/
  | peer
  /-- A vector register (R67, R294). -/
  | vec
  /-- The first of eight registers, a multiple of 8 (R169). -/
  | vec8
  /-- The w2 word, holding the memory offset (R67). -/
  | offset
  /-- FAX data: a vector register, a latch or the w2 immediate (R294). -/
  | data
  deriving DecidableEq, Repr

/-- Whether a use accepts an operand. -/
def SrcUse.accepts : SrcUse → Src → Bool
  | .unread, s => s = .v 0
  | .plain, .pred _ => false
  | .plain, _ => true
  | .cond, _ => true
  | .member, .arg _ => true
  | .member, _ => false
  | .immArg, .w2 => true
  | .immArg, .arg _ => true
  | .immArg, _ => false
  | .peer, .arg _ => true
  | .peer, .v _ => true
  | .peer, _ => false
  | .vec, .v _ => true
  | .vec, _ => false
  | .vec8, .v _ => true
  | .vec8, _ => false
  | .offset, .w2 => true
  | .offset, _ => false
  | .data, .v _ => true
  | .data, .q _ => true
  | .data, .w2 => true
  | .data, _ => false

/-- What the destination field names (R63). -/
inductive DestUse where
  /-- Nothing: nw = 1 and d = 0. -/
  | nothing
  /-- A predicate 1 to 7. -/
  | predicate
  /-- A vector register, or the even register of a pair for a 64-bit type. -/
  | reg
  /-- The first of `n` registers, a multiple of `n`. -/
  | group (n : Nat)
  deriving DecidableEq, Repr

/-- One row: the modifiers, the types, the use of each source, whether w2 holds extra fields, the
destination, whether nw = 1 with d = 0 is allowed, and whether the result is long-latency (R66). -/
structure LaneRow where
  fns   : List Nat
  tys   : List LaneTy
  a     : SrcUse
  b     : SrcUse
  c     : SrcUse
  extra : Bool
  dest  : DestUse
  nwOk  : Bool
  long  : Bool
  deriving DecidableEq, Repr

/-- The integer types, *int* of R129. -/
def intTys : List LaneTy := [.i8, .i16, .i32, .i64, .n8, .n16, .n32, .n64]
/-- *bits* of R129. -/
def bitTys : List LaneTy := intTys ++ [.b32, .b64]
/-- *fl* of R131. -/
def flTys : List LaneTy := [.f16, .bf16, .f32, .f64]
/-- The types of RED, SCAN and the atomics' additions and bounds (R148, R157). -/
def arTys : List LaneTy := [.i32, .n32, .i64, .n64]
/-- The bit-string types. -/
def bTys : List LaneTy := [.b32, .b64]
/-- The types CVT converts (R136). -/
def cvtTys : List LaneTy := intTys ++ [.f16, .bf16, .f32, .f64, .e4m3, .e5m2]
/-- The types local memory holds (R153). -/
def memTys : List LaneTy :=
  [.i8, .n8, .e4m3, .e5m2, .q8, .i16, .n16, .f16, .bf16, .b32, .i32, .n32, .f32,
   .b64, .i64, .n64, .f64]

/-- A register result from sources used as given. -/
def rowReg (fns : List Nat) (tys : List LaneTy) (a b c : SrcUse) : LaneRow :=
  ⟨fns, tys, a, b, c, false, .reg, true, false⟩

/-- A long-latency register result: nw is not allowed (R63, R66). -/
def rowLong (fns : List Nat) (tys : List LaneTy) (a b c : SrcUse) : LaneRow :=
  ⟨fns, tys, a, b, c, false, .reg, false, true⟩

/-- The rows of the atomics of local memory (R157): `nwOk`, long-latency. -/
def rowsAtomic (base : Nat) (a b c : SrcUse) : List LaneRow :=
  [ { rowLong [base] (arTys ++ [.f32]) a b c with nwOk := true },
    { rowLong [base + 1, base + 2] arTys a b c with nwOk := true },
    { rowLong [base + 3, base + 4, base + 5, base + 6] bTys a b c with nwOk := true },
    { rowLong [base + 7] bTys a b .vec with nwOk := true } ]

/-- The modes of a rounding instruction (R65). -/
def rndFns : List Nat := [0, 1, 2, 3]

/-- The rows of an opcode; an opcode of no row is not in R64. -/
def laneRows : Nat → List LaneRow
  | 0x000 => [⟨[0], [.b32], .unread, .unread, .unread, false, .nothing, true, false⟩]
  | 0x001 => [rowReg [0] intTys .plain .plain .unread]
  | 0x002 => [rowReg [0] intTys .plain .plain .unread]
  | 0x003 => [rowReg [0] intTys .plain .plain .unread]
  | 0x004 => [rowReg [0] intTys .plain .plain .unread]
  | 0x005 => [rowReg [0] intTys .plain .plain .plain]
  | 0x006 => [rowReg [0] intTys .plain .plain .unread]
  | 0x007 => [rowReg [0] intTys .plain .plain .unread]
  | 0x008 => [rowReg [0] intTys .plain .plain .unread]
  | 0x009 => [rowReg [0] intTys .plain .plain .unread]
  | 0x00A => [rowReg [0] [.i8, .i16, .i32, .i64] .plain .unread .unread]
  | 0x00B => [rowReg [0] intTys .plain .unread .unread]
  | 0x00C => [rowReg [0] bitTys .plain .plain .unread]
  | 0x00D => [rowReg [0] bitTys .plain .plain .unread]
  | 0x00E => [rowReg [0] bitTys .plain .plain .unread]
  | 0x00F => [rowReg [0] bitTys .plain .unread .unread]
  | 0x010 => [rowReg [0] bitTys .plain .plain .unread]
  | 0x011 => [rowReg [0] bitTys .plain .plain .unread]
  | 0x012 => [rowReg [0] bitTys .plain .plain .unread]
  | 0x013 => [rowReg [0] bitTys .plain .plain .unread]
  | 0x014 => [rowReg [0] bitTys .plain .unread .unread]
  | 0x015 => [rowReg [0] bitTys .plain .unread .unread]
  | 0x016 => [rowReg [0] arTys .plain .plain .plain]
  | 0x017 => [rowReg [0] bTys .plain .plain .plain]
  | 0x018 => [rowReg [0] [.i8, .i16, .i32, .n8, .n16, .n32] .plain .plain .plain]
  | 0x040 => [rowReg rndFns flTys .plain .plain .unread]
  | 0x041 => [rowReg rndFns flTys .plain .plain .unread]
  | 0x042 => [rowReg rndFns flTys .plain .plain .unread]
  | 0x043 => [rowReg rndFns flTys .plain .plain .plain]
  | 0x044 => [rowReg [0] flTys .plain .plain .unread]
  | 0x045 => [rowReg [0] flTys .plain .plain .unread]
  | 0x046 => [rowReg [0] flTys .plain .unread .unread]
  | 0x047 => [rowReg [0] flTys .plain .unread .unread]
  | 0x048 => [rowReg rndFns flTys .plain .unread .unread]
  | 0x049 => [rowReg [0] [.f16, .bf16, .f32] .plain .unread .unread]
  | 0x04A => [rowReg rndFns flTys .plain .unread .unread]
  | 0x04B => [rowReg rndFns flTys .plain .plain .unread]
  | 0x04C => [rowReg [0] [.f16, .bf16, .f32] .plain .unread .unread]
  | 0x04D => [rowReg [0] [.f16, .bf16, .f32] .plain .unread .unread]
  | 0x04E => [rowReg [0] [.f16, .bf16, .f32] .plain .unread .unread]
  | 0x04F => [rowReg [0] [.f16, .bf16, .f32] .plain .unread .unread]
  | 0x050 => [rowReg [0] [.f16, .bf16, .f32] .plain .unread .unread]
  | 0x051 => [rowReg [0] [.f16, .bf16, .f32] .plain .unread .unread]
  | 0x052 => [rowReg [0] flTys .plain .unread .unread]
  | 0x080 => [{ rowReg [0] cvtTys .plain .unread .unread with extra := true }]
  | 0x081 => [rowReg [0] [.bf16, .f16] .plain .plain .unread]
  | 0x082 => [rowReg [0, 1] [.q8, .q4] .plain .plain .plain]
  | 0x083 => [rowReg [0] [.q8, .q4] .plain .plain .plain]
  | 0x084 => [rowReg [0] [.f16, .bf16, .i16, .n16, .e4m3, .e5m2, .i8, .n8, .q8, .e2m1, .q4]
                .plain .plain .plain]
  | 0x085 => [rowReg [0] [.f16, .bf16, .i16, .n16, .e4m3, .e5m2, .i8, .n8, .q8, .e2m1, .q4]
                .plain .plain .unread]
  | 0x086 => [⟨[0], [.b32], .plain, .plain, .plain, true, .group 4, true, false⟩]
  | 0x0A0 =>
    [ ⟨[0, 1], intTys ++ flTys ++ bTys, .plain, .plain, .unread, false, .predicate, true, false⟩,
      ⟨[2, 3, 4, 5], intTys ++ flTys, .plain, .plain, .unread, false, .predicate, true, false⟩,
      ⟨[6], flTys, .plain, .plain, .unread, false, .predicate, true, false⟩ ]
  | 0x0A1 => [⟨[0, 1, 2], [.b32], .cond, .cond, .unread, false, .predicate, true, false⟩]
  | 0x0A2 => [rowReg [0] bTys .plain .plain .cond]
  | 0x0A3 => [rowReg [0] bTys .plain .unread .unread]
  | 0x0A4 => [⟨[0], [.b32], .cond, .unread, .unread, false, .predicate, true, false⟩]
  | 0x0C0 => [rowLong [0] bTys .plain .plain .plain]
  | 0x0C1 => [rowLong [0, 1, 2, 3] bTys .plain .plain .member]
  | 0x0C2 =>
    [ ⟨[0, 1], [.b32], .cond, .unread, .member, false, .predicate, false, true⟩,
      rowLong [2] [.b32] .cond .unread .member ]
  | 0x0C3 =>
    [ rowLong [0, 1, 2] (arTys ++ [.f32, .f64]) .plain .unread .member,
      rowLong [3, 4, 5] bTys .plain .unread .member ]
  | 0x0C4 =>
    [ rowLong [0, 1, 2, 8, 9, 10] (arTys ++ [.f32, .f64]) .plain .unread .member,
      rowLong [3, 4, 5, 11, 12, 13] bTys .plain .unread .member ]
  | 0x0C5 => [rowLong [0] bTys .plain .unread .member]
  | 0x0E0 => [rowLong [0] memTys .plain .offset .unread]
  | 0x0E1 => [⟨[0], memTys, .plain, .offset, .plain, false, .nothing, true, false⟩]
  | 0x0E2 => [rowLong [0] memTys .plain .offset .unread]
  | 0x0E3 => [⟨[0], memTys, .plain, .offset, .plain, false, .nothing, true, false⟩]
  | 0x0E4 => [rowLong [0] memTys .plain .offset .unread]
  | 0x0E5 => [⟨[0], memTys, .plain, .offset, .plain, false, .nothing, true, false⟩]
  | 0x0E6 => rowsAtomic 0 .plain .offset .plain
  | 0x0E7 => rowsAtomic 0 .plain .offset .plain
  | 0x100 => [⟨[0], bTys, .immArg, .plain, .unread, false, .group 8, false, true⟩]
  | 0x101 => [⟨[0], bTys, .immArg, .plain, .vec8, false, .nothing, true, false⟩]
  | 0x110 =>
    [ rowLong [0] bTys .peer .vec .unread,
      ⟨[1], [.b32], .peer, .vec, .unread, false, .group 8, false, true⟩,
      ⟨[2], bTys, .peer, .vec, .data, false, .nothing, true, false⟩,
      ⟨[3], [.n32], .peer, .vec, .data, false, .group 2, false, true⟩,
      rowLong [4] [.n32] .peer .vec .unread ] ++ rowsAtomic 8 .peer .vec .data
  | 0x120 => [⟨[0], [.n32], .plain, .plain, .immArg, false, .group 2, false, true⟩]
  | 0x121 => [rowLong [0] [.n32] .plain .unread .immArg]
  | 0x3C0 =>
    [⟨[0, 1, 2, 3, 4, 5, 6, 7], [.b32], .unread, .unread, .unread, false, .nothing, true, false⟩]
  | _ => []

/-- The raw fields of a slot (R60). -/
structure RawSlot where
  op  : Nat
  ty  : Nat
  pg  : Nat
  pn  : Nat
  nw  : Nat
  d   : Nat
  rsv : Nat
  a   : Nat
  b   : Nat
  c   : Nat
  fn  : Nat
  w2  : Nat
  deriving DecidableEq, Repr

/-- The row that an opcode, modifier and type select. -/
def laneRow (op fn : Nat) (t : LaneTy) : Option LaneRow :=
  (laneRows op).find? fun r => r.fns.contains fn && r.tys.contains t

/-- CVT's extra fields (R65, R136): a source type of R136 in [4:0], .sat in [8], the rest zero. -/
def cvtFieldsOk (w2 : Nat) : Bool :=
  (match tyOfCode (w2 % 32) with
    | some t => cvtTys.contains t
    | none => false) &&
  w2 / 32 % 8 = 0 && w2 / 512 = 0

/-- Whether a field is the selector of w2 (R61). -/
def isW2Field (f : Nat) : Bool := f / 32 = 9

/-- Whether a used source's selector is allowed (reason 0x14). -/
def selOk (r : LaneRow) (u : SrcUse) (f : Nat) : Bool :=
  match u with
  | .unread => true
  | _ =>
    match srcOfField f with
    | none => false
    | some s => u.accepts s && !(r.extra && s = .w2)

/-- Whether a vector source of the row is paired and aligned (R63, R67, R169). CVT's source is
read at its own type, S of w2[4:0] (R136). -/
def pairOk (op ty w2 : Nat) (u : SrcUse) (f : Nat) : Bool :=
  match u with
  | .unread => true
  | .vec8 => f % 8 = 0
  | _ =>
    let t := if op = 0x080 then w2 % 32 else ty
    let wide := match tyOfCode t with
      | some t => wideTy t
      | none => false
    !(wide && f < 0x100 && f % 2 = 1)

/-- Whether the destination and nw obey R63. -/
def destOk (r : LaneRow) (wide : Bool) (nw d : Nat) : Bool :=
  match r.dest with
  | .nothing => nw = 1 && d = 0
  | .predicate => if nw = 1 then r.nwOk && d = 0 else 1 ≤ d && d ≤ 7
  | .reg => if nw = 1 then r.nwOk && d = 0 else !(wide && d % 2 = 1)
  | .group n => if nw = 1 then r.nwOk && d = 0 else d % n = 0

/-- Whether the guard is an instruction's (R63, R65, R126): LNOP and TRAIL carry none. -/
def guardOk (op pg pn : Nat) : Bool :=
  if op = 0x000 || op = 0x3C0 then pg = 0 && pn = 0 else !(pg = 0 && pn = 1)

/-- The register or pair after the compare value of a .CAS lies within v0 to v255 (R67). -/
def casOk (op fn : Nat) (wide : Bool) (c : Nat) : Bool :=
  if (op = 0x0E6 || op = 0x0E7) && fn = 7 || op = 0x110 && fn = 15 then
    c + (if wide then 3 else 1) ≤ 255
  else true

/-- The lowest reason that a slot breaks (R71, R367), or none for an instruction. DEDUCED: log 35. -/
def laneReason (s : RawSlot) : Option Reason :=
  let rows := laneRows s.op
  match rows with
  | [] => some .laneOp
  | _ =>
    match tyOfCode s.ty with
    | none => some .laneTy
    | some t =>
      if !rows.any (fun r => r.tys.contains t) then some .laneTy
      else if !rows.any (fun r => r.fns.contains s.fn) then some .laneFn
      else match laneRow s.op s.fn t with
        | none => some .laneTy
        | some r =>
          let usesW2 := r.extra || (r.a != .unread && isW2Field s.a) ||
            (r.b != .unread && isW2Field s.b) || (r.c != .unread && isW2Field s.c)
          if s.op = 0x080 && !cvtFieldsOk s.w2 then some .laneFn
          else if s.rsv != 0 || (r.a = .unread && s.a != 0) || (r.b = .unread && s.b != 0) ||
            (r.c = .unread && s.c != 0) || (!usesW2 && s.w2 != 0) then some .laneZero
          else if !(selOk r r.a s.a && selOk r r.b s.b && selOk r r.c s.c) then some .laneSel
          else if !(guardOk s.op s.pg s.pn && destOk r (wideTy t) s.nw s.d &&
            pairOk s.op s.ty s.w2 r.a s.a && pairOk s.op s.ty s.w2 r.b s.b &&
            pairOk s.op s.ty s.w2 r.c s.c && casOk s.op s.fn (wideTy t) s.c) then some .laneDest
          else none

/-- The fields an operand record stands for under an opcode. -/
def LaneOp.raw (op : Nat) (o : LaneOp) : RawSlot :=
  { op := op, ty := tyCode o.ty, pg := o.pg, pn := o.pn.toNat, nw := o.nw.toNat, d := o.d, rsv := 0,
    a := srcField o.a, b := srcField o.b, c := srcField o.c, fn := o.fn, w2 := o.w2.toNat }

/-- Whether a source names a register, latch, argument or predicate that exists. -/
def srcInRange : Src → Bool
  | .v r => r < 256
  | .q k => k ≤ 22
  | .arg i => i < 4
  | .pred p => p < 8
  | .w2 => true
  | .lane => true
  | .warp => true
  | .frag => true

/-- A lane instruction's operands fit their fields and satisfy R61 to R67. -/
def laneWf (op : Nat) (o : LaneOp) : Bool :=
  srcInRange o.a && srcInRange o.b && srcInRange o.c && o.pg < 8 && o.d < 256 && o.fn < 32 &&
    (laneReason (LaneOp.raw op o)).isNone

/-- Whether the instruction of a row is long-latency (R66). -/
def isLong (op : Nat) (o : LaneOp) : Bool :=
  match laneRow op o.fn o.ty with
  | some r => r.long
  | none => false

end Sys2Proof.Machine
end

