-- ==== Sys2Proof/Machine/ScalarRules.lean ====
section
/-! DEFINITION. Conditions on the fields of scalar instructions that are more than a range (R59,
R321, R324). -/
namespace Sys2Proof.Machine

/-- The system register numbers that exist (R324). -/
def sysRegExists (r : Nat) : Bool :=
  r ≤ 0x00A || (0x010 ≤ r && r ≤ 0x014) || (0x020 ≤ r && r ≤ 0x024) || (0x040 ≤ r && r ≤ 0x07F)

/-- The numbers that WRSR may name (R321, R324): not TLEV, CYC, CYCH, ASID, TCAUSE, TVAL, TVALH,
TMASK, or words 6 and 7 of a TRQ entry. -/
def sysRegWritable (r : Nat) : Bool :=
  r = 0x000 || r = 0x001 || r = 0x003 || r = 0x004 || r = 0x008 || r = 0x009 || r = 0x00A ||
    r = 0x011 || r = 0x021 || (0x040 ≤ r && r ≤ 0x07F && r % 8 < 6)

/-- An LRUN's register fields beyond its argument count are zero (R59). -/
def argsBeyond (n x0 x1 x2 x3 : Nat) : Bool :=
  (1 ≤ n || x0 = 0) && (2 ≤ n || x1 = 0) && (3 ≤ n || x2 = 0) && (4 ≤ n || x3 = 0)

end Sys2Proof.Machine
end

