-- ==== Sys2Proof/WellFormed.lean ====
section
/-! DEFINITION. Which instructions are well formed: every field lies in the range that R58, R59 and
R61 to R67 give it. An event carries no code word, and every operand of it is well formed. -/
namespace Sys2Proof

open Sys2Proof.Machine

/-- An instruction's fields satisfy the encoding rules. -/
def Instr.wf : Instr → Bool
  | .add d a b => d < 128 && a < 128 && b < 128
  | .sub d a b => d < 128 && a < 128 && b < 128
  | .and d a b => d < 128 && a < 128 && b < 128
  | .or d a b => d < 128 && a < 128 && b < 128
  | .xor d a b => d < 128 && a < 128 && b < 128
  | .shl d a b => d < 128 && a < 128 && b < 128
  | .shr d a b => d < 128 && a < 128 && b < 128
  | .sra d a b => d < 128 && a < 128 && b < 128
  | .min d a b => d < 128 && a < 128 && b < 128
  | .max d a b => d < 128 && a < 128 && b < 128
  | .minn d a b => d < 128 && a < 128 && b < 128
  | .maxn d a b => d < 128 && a < 128 && b < 128
  | .slt d a b => d < 128 && a < 128 && b < 128
  | .sltn d a b => d < 128 && a < 128 && b < 128
  | .seq d a b => d < 128 && a < 128 && b < 128
  | .sne d a b => d < 128 && a < 128 && b < 128
  | .mul d a b => d < 128 && a < 128 && b < 128
  | .mulh d a b => d < 128 && a < 128 && b < 128
  | .mulhn d a b => d < 128 && a < 128 && b < 128
  | .div d a b => d < 128 && a < 128 && b < 128
  | .divn d a b => d < 128 && a < 128 && b < 128
  | .rem d a b => d < 128 && a < 128 && b < 128
  | .remn d a b => d < 128 && a < 128 && b < 128
  | .lea d a b sh => d < 128 && a < 128 && b < 128 && sh < 16
  | .popc d a => d < 128 && a < 128
  | .clz d a => d < 128 && a < 128
  | .ctz d a => d < 128 && a < 128
  | .brev d a => d < 128 && a < 128
  | .selnz d a b => d < 128 && a < 128 && b < 128
  | .extb d a pos len _ => d < 128 && a < 128 && pos < 32 && 1 ≤ len && len ≤ 32
  | .insb d a pos len => d < 128 && a < 128 && pos < 32 && 1 ≤ len && len ≤ 32
  | .addi d a imm => d < 128 && a < 128 && -1024 ≤ imm && imm < 1024
  | .andi d a imm => d < 128 && a < 128 && -1024 ≤ imm && imm < 1024
  | .ori d a imm => d < 128 && a < 128 && -1024 ≤ imm && imm < 1024
  | .xori d a imm => d < 128 && a < 128 && -1024 ≤ imm && imm < 1024
  | .shli d a sh => d < 128 && a < 128 && sh < 32
  | .shri d a sh => d < 128 && a < 128 && sh < 32
  | .srai d a sh => d < 128 && a < 128 && sh < 32
  | .slti d a imm => d < 128 && a < 128 && -1024 ≤ imm && imm < 1024
  | .sltni d a imm => d < 128 && a < 128 && -1024 ≤ imm && imm < 1024
  | .seqi d a imm => d < 128 && a < 128 && -1024 ≤ imm && imm < 1024
  | .movhi d imm => d < 128 && -131072 ≤ imm && imm < 131072
  | .movi d imm => d < 128 && -131072 ≤ imm && imm < 131072
  | .movl d _ => d < 128
  | .fadd d a b => d < 128 && a < 128 && b < 128
  | .fsub d a b => d < 128 && a < 128 && b < 128
  | .fmul d a b => d < 128 && a < 128 && b < 128
  | .fmin d a b => d < 128 && a < 128 && b < 128
  | .fmax d a b => d < 128 && a < 128 && b < 128
  | .feq d a b => d < 128 && a < 128 && b < 128
  | .flt d a b => d < 128 && a < 128 && b < 128
  | .fle d a b => d < 128 && a < 128 && b < 128
  | .fcvti d a => d < 128 && a < 128
  | .fcvtf d a => d < 128 && a < 128
  | .fabs d a => d < 128 && a < 128
  | .ffma d a b => d < 128 && a < 128 && b < 128
  | .sld d a off => d < 128 && a < 128 && -1024 ≤ off && off < 1024
  | .sst d a off => d < 128 && a < 128 && -1024 ≤ off && off < 1024
  | .xld d a off => d < 128 && a < 128 && -1024 ≤ off && off < 1024
  | .xst d a off => d < 128 && a < 128 && -1024 ≤ off && off < 1024
  | .spush a => a < 128
  | .spop d => d < 128
  | .br off => -131072 ≤ off && off < 131072
  | .beqz a off => a < 128 && -131072 ≤ off && off < 131072
  | .bnez a off => a < 128 && -131072 ≤ off && off < 131072
  | .bltz a off => a < 128 && -131072 ≤ off && off < 131072
  | .bgez a off => a < 128 && -131072 ≤ off && off < 131072
  | .call a off => a < 128 && -131072 ≤ off && off < 131072
  | .jr a => a < 128
  | .brv _ p off join => p < 8 && -131072 ≤ off && off < 131072 && -2147483648 ≤ join && join < 2147483648
  | .exit => true
  | .yield => true
  | .loop a off => a < 128 && -131072 ≤ off && off < 131072
  | .lrun run await n x0 x1 x2 x3 => run < 131072 && await < 256 && n ≤ 4 && x0 < 128 && x1 < 128 && x2 < 128 && x3 < 128 && argsBeyond n x0 x1 x2 x3
  | .lwait mask => mask < 256
  | .lget d a v => d < 128 && a < 128 && v < 256
  | .lput d a v => d < 128 && a < 128 && v < 256
  | .pget d p => d < 128 && p < 8
  | .pset a p => a < 128 && 1 ≤ p && p < 8
  | .waitp a path => a < 128 && path < 6
  | .rdcnt d path => d < 128 && path < 6
  | .fence scope mask => scope < 32 && mask < 128
  | .barInit d a b => d < 128 && a < 128 && b < 128
  | .barArr d a => d < 128 && a < 128
  | .barWait d a => d < 128 && a < 128
  | .barArrwait d a => d < 128 && a < 128
  | .barInv d a => d < 128 && a < 128
  | .barTest d a => d < 128 && a < 128
  | .waitvEqSh d a b => d < 128 && a < 128 && b < 128
  | .waitvNeSh d a b => d < 128 && a < 128 && b < 128
  | .waitvEqSc d a b => d < 128 && a < 128 && b < 128
  | .waitvNeSc d a b => d < 128 && a < 128 && b < 128
  | .scopeset d k b => d < 128 && b < 128 && 6 ≤ k && k < 32
  | .cpyLin a => 1 ≤ a && a ≤ 124
  | .cpyTile a => 1 ≤ a && a ≤ 124
  | .cpyRing a => 1 ≤ a && a ≤ 124
  | .cpyw d a off => d < 128 && a < 128 && -16 ≤ off && off < 16
  | .thbind d h b => d < 128 && b < 128 && h < 64
  | .cqput a => a < 128
  | .cqget d => d < 128
  | .lxferRestrict a _ => 1 ≤ a && a ≤ 124
  | .lxferProlong a _ => 1 ≤ a && a ≤ 124
  | .lxferInject a _ => 1 ≤ a && a ≤ 124
  | .stbind d k b => d < 128 && b < 128 && k < 16
  | .cpyprog d => d < 128
  | .macqSingle d n => d < 128 && n ≤ 256
  | .macqPair d n => d < 128 && n ≤ 256
  | .macqTry d n => d < 128 && n ≤ 256
  | .mrel => true
  | .mldRow t a => t < 16 && a < 128
  | .mldCol t a => t < 16 && a < 128
  | .mst t a => t < 16 && a < 128
  | .mmaTile acc t slot fmt => acc < 16 && t < 16 && slot < 256 && 1 ≤ fmt && fmt < 32
  | .mmaHandle acc h slot fmt => acc < 16 && h < 64 && slot < 256 && 1 ≤ fmt && fmt < 32
  | .mblShared slot a off => slot < 256 && a < 128 && -256 ≤ off && off < 256
  | .mblHandle slot a => slot < 256 && a < 128
  | .mfence d => d < 128
  | .mwait a => a < 128
  | .mopf => true
  | .mdrainShared acc a fmt => acc < 16 && a < 128 && 1 ≤ fmt && fmt < 32
  | .mdrainTile acc t fmt => acc < 16 && t < 16 && 1 ≤ fmt && fmt < 32
  | .mzero t => t < 16
  | .mprog d => d < 128
  | .eqOpen d n b => d < 128 && b < 128 && n < 32
  | .eqClose d n => d < 128 && n < 32
  | .eqSnap d n => d < 128 && n < 32
  | .eqUndo d n => d < 128 && n < 32
  | .eqKeep d n => d < 128 && n < 32
  | .eqStat d n page => 1 ≤ d && d ≤ 124 && n < 32 && page < 3
  | .eqrelRoot a => 1 ≤ a && a ≤ 124
  | .eqrelDense a => 1 ≤ a && a ≤ 124
  | .eqrelSum a => 1 ≤ a && a ≤ 124
  | .eqrelMin a => 1 ≤ a && a ≤ 124
  | .eqrelMax a => 1 ≤ a && a ≤ 124
  | .ctxRes d a b => d < 128 && a < 128 && b < 128
  | .ctxPub d a b => d < 128 && a < 128 && 1 ≤ b && b ≤ 126
  | .ctxAcq d a b => 1 ≤ d && d ≤ 125 && a < 128 && b < 128
  | .ctxAbn d a b => d < 128 && a < 128 && 1 ≤ b && b ≤ 126
  | .ctxStat d a b => d < 128 && a < 128 && b < 128
  | .tempc d a => 1 ≤ d && d ≤ 126 && a < 128
  | .maskwait d a b => d < 128 && a < 128 && b < 128
  | .toksend d a b => d < 128 && a < 128 && b < 128
  | .fmc d a b lenm1 => d < 128 && a < 128 && 1 ≤ b && b ≤ 126 && lenm1 < 8
  | .fquiet => true
  | .fgrpSet d a b => d < 128 && a < 128 && b < 128
  | .fgrpOr d a b => d < 128 && a < 128 && b < 128
  | .fgrpClear d a b => d < 128 && a < 128 && b < 128
  | .fack d a page => 1 ≤ d && d ≤ 124 && a < 128 && page < 4
  | .trap k => k < 64
  | .tret => true
  | .rdsr d r => d < 128 && sysRegExists r
  | .wrsr a r => a < 128 && sysRegWritable r
  | .launch a => 1 ≤ a && a ≤ 124
  | .svcPagein d a => d < 128 && a < 128
  | .svcNote d a => d < 128 && a < 128
  | .evsel k b => b < 128 && k < 8
  | .evrd d k => 1 ≤ d && d ≤ 126 && k < 8
  | .ssave a => a < 128
  | .srest a => a < 128
  | .lnop o => laneWf 0x000 o
  | .trail o => laneWf 0x3C0 o
  | .laneAdd o => laneWf 0x001 o
  | .laneSub o => laneWf 0x002 o
  | .laneMul o => laneWf 0x003 o
  | .laneMulh o => laneWf 0x004 o
  | .mad o => laneWf 0x005 o
  | .laneDiv o => laneWf 0x006 o
  | .laneRem o => laneWf 0x007 o
  | .laneMin o => laneWf 0x008 o
  | .laneMax o => laneWf 0x009 o
  | .abs o => laneWf 0x00A o
  | .neg o => laneWf 0x00B o
  | .laneAnd o => laneWf 0x00C o
  | .laneOr o => laneWf 0x00D o
  | .laneXor o => laneWf 0x00E o
  | .not o => laneWf 0x00F o
  | .laneShl o => laneWf 0x010 o
  | .laneShr o => laneWf 0x011 o
  | .laneSra o => laneWf 0x012 o
  | .rot o => laneWf 0x013 o
  | .lanePopc o => laneWf 0x014 o
  | .laneClz o => laneWf 0x015 o
  | .bfe o => laneWf 0x016 o
  | .bfi o => laneWf 0x017 o
  | .sad o => laneWf 0x018 o
  | .laneFadd o => laneWf 0x040 o
  | .laneFsub o => laneWf 0x041 o
  | .laneFmul o => laneWf 0x042 o
  | .laneFfma o => laneWf 0x043 o
  | .laneFmin o => laneWf 0x044 o
  | .laneFmax o => laneWf 0x045 o
  | .laneFabs o => laneWf 0x046 o
  | .fneg o => laneWf 0x047 o
  | .frcp o => laneWf 0x048 o
  | .frsq o => laneWf 0x049 o
  | .fsqrt o => laneWf 0x04A o
  | .fdiv o => laneWf 0x04B o
  | .fexp2 o => laneWf 0x04C o
  | .fexp o => laneWf 0x04D o
  | .flog2 o => laneWf 0x04E o
  | .fsin o => laneWf 0x04F o
  | .fcos o => laneWf 0x050 o
  | .ftanh o => laneWf 0x051 o
  | .fclass o => laneWf 0x052 o
  | .cvt o => laneWf 0x080 o
  | .cvtsr o => laneWf 0x081 o
  | .qnt o => laneWf 0x082 o
  | .dqn o => laneWf 0x083 o
  | .pack o => laneWf 0x084 o
  | .unpk o => laneWf 0x085 o
  | .rng4 o => laneWf 0x086 o
  | .setp o => laneWf 0x0A0 o
  | .plog o => laneWf 0x0A1 o
  | .sel o => laneWf 0x0A2 o
  | .mov o => laneWf 0x0A3 o
  | .movp o => laneWf 0x0A4 o
  | .perm o => laneWf 0x0C0 o
  | .shfl o => laneWf 0x0C1 o
  | .vote o => laneWf 0x0C2 o
  | .red o => laneWf 0x0C3 o
  | .scan o => laneWf 0x0C4 o
  | .matchLanes o => laneWf 0x0C5 o
  | .lds o => laneWf 0x0E0 o
  | .sts o => laneWf 0x0E1 o
  | .ldx o => laneWf 0x0E2 o
  | .stx o => laneWf 0x0E3 o
  | .ldk o => laneWf 0x0E4 o
  | .stk o => laneWf 0x0E5 o
  | .ats o => laneWf 0x0E6 o
  | .atx o => laneWf 0x0E7 o
  | .gath o => laneWf 0x100 o
  | .scat o => laneWf 0x101 o
  | .faxLd o => laneWf 0x110 o && o.fn = 0
  | .faxLdg o => laneWf 0x110 o && o.fn = 1
  | .faxSt o => laneWf 0x110 o && o.fn = 2
  | .faxUnite o => laneWf 0x110 o && o.fn = 3
  | .faxFind o => laneWf 0x110 o && o.fn = 4
  | .faxAtomic o => laneWf 0x110 o && 8 ≤ o.fn
  | .unite o => laneWf 0x120 o
  | .find o => laneWf 0x121 o
  | .macqGrant _ => true
  | .eqrelRun _ _ _ => true
  | .ctxReservationGrant _ => true
  | .maskwaitTimeout _ _ => true
  | .tokenInboxWrite _ => true
  | .tokenReply _ _ _ => true
  | .uniteServe _ _ => true
  | .findServe _ _ => true
  | .runStart _ => true
  | .runCommit _ => true
  | .resultLands _ _ _ => true
  | .requestRetires _ _ => true
  | .fragmentWake _ _ => true
  | .warpEnd _ => true
  | .asyncTrapTaken _ => true
  | .copyGranule _ _ _ => true
  | .copyComplete _ _ => true
  | .lxferPoint _ _ => true
  | .matrixOpUnit _ _ => true
  | .scanRequest _ => true
  | .preempt _ => true
  | .teamResume _ _ => true
  | .stallHint _ _ => true
  | .stallHintLapse _ _ => true
  | .parkedSwapOut _ => true
  | .shootRange => true
  | .shootAsid => true
  | .flushad => true
  | .create _ => true
  | .delete _ => true
  | .abandonq _ => true
  | .ctxReportRead _ => true
  | .faxHomeServe _ => true
  | .faxResponse _ _ _ => true
  | .multicastReplicate _ _ _ => true
  | .multicastLineServe _ => true
  | .multicastAggregate _ _ _ _ => true
  | .portFailure _ => true
  | .linkTraining _ _ _ => true
  | .lateRequest _ _ => true
  | .laterepRead => true
  | .resetNotice _ _ _ => true
  | .resetNoticeAck _ _ => true
  | .keyInstall _ => true
  | .keyAlarm _ => true
  | .keyExhausted _ => true
  | .writeWindow => true
  | .revoke => true
  | .revokeComplete => true
  | .doorbell _ _ => true
  | .queueReset _ => true
  | .resume _ => true
  | .disable _ => true
  | .resetComplete _ => true
  | .packetPrefetch _ => true
  | .nopPacket _ => true
  | .resetPacket _ => true
  | .fetchfence _ => true
  | .signal _ => true
  | .waitsig _ => true
  | .waitsigTimeout _ => true
  | .ib _ => true
  | .ibret _ => true
  | .launchPacket _ => true
  | .nlaunch _ => true
  | .copyPacket _ => true
  | .harvest _ => true
  | .queueWaitEnd _ => true
  | .hubCopyBlock _ _ => true
  | .hubCopyComplete _ => true
  | .teamPlace _ => true
  | .nbhdPlace _ => true
  | .gridRetire _ => true
  | .boot _ => true
  | .spare _ => true
  | .attest => true
  | .extend => true
  | .evgrant => true
  | .raisemin => true
  | .hkey => true
  | .elogRead _ => true
  | .hbmScrub => true
  | .heartbeatSend => true
  | .heartbeatReceive _ => true
  | .partnerSilent _ => true
  | .quorumResetMessage _ => true
  | .thermalWarning => true
  | .thermalTrip => true
  | .registerWrite _ _ => true
  | .eqServe _ _ => true
  | .ctxServe _ _ => true
  | .supervisorReply _ => true
  | .generalCoreStore _ _ => true
  | .hostMemoryWrite _ _ => true
  | .groupTableUpdate _ _ _ _ => true
  | .softError _ => true
  | .powerLoss _ => true

end Sys2Proof
end

