-- ==== Sys2Proof/Decode.lean ====
section
/-! DEFINITION. Decoding and encoding (R55 to R68), from one set of field positions.

A scalar section is read as 32-bit words, a lane section as slots of three words. Every bit pattern
that is not an instruction is rejected with the scanner's reason for it (R71, R367), the lowest of
those it breaks. -/
namespace Sys2Proof

open Sys2Proof.Machine

/-- Bits hi down to lo of a word (R2). -/
def bits (w hi lo : Nat) : Nat := w / 2 ^ lo % 2 ^ (hi + 1 - lo)

/-- A field of `n` bits read as a two's complement number (R56). -/
def signed (n x : Nat) : Int := if x < 2 ^ (n - 1) then (x : Int) else (x : Int) - 2 ^ n

/-- A number as the two's complement field of `n` bits. -/
def toField (n : Nat) (x : Int) : Nat := (x % 2 ^ n).toNat

/-- An SR-shaped word (R55). -/
def srWord (op d a b fn : Nat) : Nat := op * 2 ^ 25 + d * 2 ^ 18 + a * 2 ^ 11 + b * 2 ^ 4 + fn

/-- An SI-shaped word (R55). -/
def siWord (op d a imm : Nat) : Nat := op * 2 ^ 25 + d * 2 ^ 18 + a * 2 ^ 11 + imm

/-- An SW- or SB-shaped word (R55). -/
def sbWord (op r imm : Nat) : Nat := op * 2 ^ 25 + r * 2 ^ 18 + imm

/-- Rejects with the lowest broken reason: fn (0x02), a field of zeros (0x03), a range (0x04). -/
def checked (fnOk zeroOk rangeOk : Bool) (i : Instr) : Except Reason Instr :=
  if !fnOk then .error .fn
  else if !zeroOk then .error .zero
  else if !rangeOk then .error .range
  else .ok i

/-- A two-word form: the first word's checks come before the missing second word (R71, R367). -/
def twoWord (zeroOk rangeOk : Bool) (next : Option Nat)
    (k : Nat → Except Reason Instr) : Except Reason Instr :=
  if !zeroOk then .error .zero
  else match next with
    | some w2 => if !rangeOk then .error .range else k w2
    | none => if !rangeOk then .error .range else .error .cut

/-- A register group of `k` registers, at 1 to 128 - k (R58). -/
def groupOk (k r : Nat) : Bool := 1 ≤ r && r + k ≤ 128

/-- Decoding a scalar word by its fields (R57, R58, R59); `next` is the word after it, if the unit
holds one. b of CTX.PUB and CTX.ABN is a group of 2 (R259), so b = 0 is refused too. DEDUCED: log 106. -/
def decodeScalarFields (op d a b fn : Nat) (next : Option Nat) : Except Reason Instr :=
  let imm11 := b * 16 + fn
  let imm18 := a * 2048 + imm11
  let i11 := signed 11 imm11
  let i18 := signed 18 imm18
  match op with
  | 0x00 =>
    match fn with
    | 0 => .ok (.add d a b)
    | 1 => .ok (.sub d a b)
    | 2 => .ok (.and d a b)
    | 3 => .ok (.or d a b)
    | 4 => .ok (.xor d a b)
    | 5 => .ok (.shl d a b)
    | 6 => .ok (.shr d a b)
    | 7 => .ok (.sra d a b)
    | 8 => .ok (.min d a b)
    | 9 => .ok (.max d a b)
    | 10 => .ok (.minn d a b)
    | 11 => .ok (.maxn d a b)
    | 12 => .ok (.slt d a b)
    | 13 => .ok (.sltn d a b)
    | 14 => .ok (.seq d a b)
    | 15 => .ok (.sne d a b)
    | _ => .error .fn
  | 0x01 =>
    match fn with
    | 0 => .ok (.mul d a b)
    | 1 => .ok (.mulh d a b)
    | 2 => .ok (.mulhn d a b)
    | 3 => .ok (.div d a b)
    | 4 => .ok (.divn d a b)
    | 5 => .ok (.rem d a b)
    | 6 => .ok (.remn d a b)
    | _ => .error .fn
  | 0x02 => .ok (.lea d a b fn)
  | 0x03 =>
    match fn with
    | 0 => checked true (b = 0) true (.popc d a)
    | 1 => checked true (b = 0) true (.clz d a)
    | 2 => checked true (b = 0) true (.ctz d a)
    | 3 => checked true (b = 0) true (.brev d a)
    | 4 => .ok (.selnz d a b)
    | _ => .error .fn
  | 0x04 => .ok (.extb d a (imm11 % 32) (imm11 / 32 % 32 + 1) (imm11 / 1024 % 2 = 1))
  | 0x05 => checked true (imm11 / 1024 % 2 = 0) true (.insb d a (imm11 % 32) (imm11 / 32 % 32 + 1))
  | 0x10 => .ok (.addi d a i11)
  | 0x11 => .ok (.andi d a i11)
  | 0x12 => .ok (.ori d a i11)
  | 0x13 => .ok (.xori d a i11)
  | 0x14 => checked true (imm11 / 32 = 0) true (.shli d a imm11)
  | 0x15 => checked true (imm11 / 32 = 0) true (.shri d a imm11)
  | 0x16 => checked true (imm11 / 32 = 0) true (.srai d a imm11)
  | 0x17 => .ok (.slti d a i11)
  | 0x18 => .ok (.sltni d a i11)
  | 0x19 => .ok (.seqi d a i11)
  | 0x1A => .ok (.movhi d i18)
  | 0x1B => .ok (.movi d i18)
  | 0x1C => twoWord (a = 0 && b = 0 && fn = 0) true next fun w => .ok (.movl d (word w))
  | 0x20 =>
    match fn with
    | 0 => .ok (.fadd d a b)
    | 1 => .ok (.fsub d a b)
    | 2 => .ok (.fmul d a b)
    | 3 => .ok (.fmin d a b)
    | 4 => .ok (.fmax d a b)
    | 5 => .ok (.feq d a b)
    | 6 => .ok (.flt d a b)
    | 7 => .ok (.fle d a b)
    | 8 => checked true (b = 0) true (.fcvti d a)
    | 9 => checked true (b = 0) true (.fcvtf d a)
    | 10 => checked true (b = 0) true (.fabs d a)
    | _ => .error .fn
  | 0x21 => checked true (fn = 0) true (.ffma d a b)
  | 0x28 => .ok (.sld d a i11)
  | 0x29 => .ok (.sst d a i11)
  | 0x2A => .ok (.xld d a i11)
  | 0x2B => .ok (.xst d a i11)
  | 0x2C => checked true (d = 0 && b = 0 && fn = 0) true (.spush a)
  | 0x2D => checked true (a = 0 && b = 0 && fn = 0) true (.spop d)
  | 0x30 => checked true (d = 0) true (.br i18)
  | 0x31 => .ok (.beqz d i18)
  | 0x32 => .ok (.bnez d i18)
  | 0x33 => .ok (.bltz d i18)
  | 0x34 => .ok (.bgez d i18)
  | 0x35 => .ok (.call d i18)
  | 0x36 => checked true (d = 0 && b = 0 && fn = 0) true (.jr a)
  | 0x37 => twoWord (d / 16 = 0) true next fun w =>
      .ok (.brv (d / 8 % 2 = 1) (d % 8) i18 (signed 32 w))
  | 0x38 => checked true (d = 0 && imm18 = 0) true .exit
  | 0x3A => checked true (d = 0 && imm18 = 0) true .yield
  | 0x3B => .ok (.loop d i18)
  | 0x40 => twoWord (argsBeyond fn d a b 0) (fn ≤ 4) next fun w =>
      checked true (argsBeyond fn d a b (w / 2 ^ 17 % 128)) true
        (.lrun (w % 2 ^ 17) (w / 2 ^ 24) fn d a b (w / 2 ^ 17 % 128))
  | 0x41 => checked true (d = 0 && a = 0 && imm11 / 256 = 0) true (.lwait imm11)
  | 0x42 => checked true (imm11 / 256 = 0) true (.lget d a imm11)
  | 0x43 => checked true (imm11 / 256 = 0) true (.lput d a imm11)
  | 0x44 => checked true (a = 0 && imm11 / 8 = 0) true (.pget d imm11)
  | 0x45 => checked true (d = 0 && imm11 / 8 = 0) (1 ≤ imm11) (.pset a imm11)
  | 0x46 => checked (fn < 6) (d = 0 && b = 0) true (.waitp a fn)
  | 0x47 => checked (fn < 6) (a = 0 && b = 0) true (.rdcnt d fn)
  | 0x48 => checked true (d = 0 && fn = 0) (a < 32) (.fence a b)
  | 0x49 =>
    match fn with
    | 0 => .ok (.barInit d a b)
    | 1 => checked true (b = 0) true (.barArr d a)
    | 2 => checked true (b = 0) true (.barWait d a)
    | 3 => checked true (b = 0) true (.barArrwait d a)
    | 4 => checked true (b = 0) true (.barInv d a)
    | 5 => checked true (b = 0) true (.barTest d a)
    | _ => .error .fn
  | 0x4A =>
    match fn with
    | 0 => .ok (.waitvEqSh d a b)
    | 1 => .ok (.waitvNeSh d a b)
    | 2 => .ok (.waitvEqSc d a b)
    | 3 => .ok (.waitvNeSc d a b)
    | _ => .error .fn
  | 0x4B => checked (fn = 0) true (6 ≤ a && a < 32) (.scopeset d a b)
  | 0x50 =>
    match fn with
    | 0 => checked true (d = 0 && b = 0) (groupOk 4 a) (.cpyLin a)
    | 1 => checked true (d = 0 && b = 0) (groupOk 4 a) (.cpyTile a)
    | 2 => checked true (d = 0 && b = 0) (groupOk 4 a) (.cpyRing a)
    | _ => .error .fn
  | 0x51 => checked true true (imm11 % 64 = 0) (.cpyw d a (signed 5 (imm11 / 64)))
  | 0x52 => checked (fn = 0) true (a < 64) (.thbind d a b)
  | 0x53 => checked true (d = 0 && b = 0 && fn = 0) true (.cqput a)
  | 0x54 => checked true (a = 0 && b = 0 && fn = 0) true (.cqget d)
  | 0x55 =>
    match fn % 8 with
    | 0 => checked true (d = 0 && b = 0) (groupOk 4 a) (.lxferRestrict a (fn / 8 = 1))
    | 1 => checked true (d = 0 && b = 0) (groupOk 4 a) (.lxferProlong a (fn / 8 = 1))
    | 2 => checked true (d = 0 && b = 0) (groupOk 4 a) (.lxferInject a (fn / 8 = 1))
    | _ => .error .fn
  | 0x56 => checked (fn = 0) true (a < 16) (.stbind d a b)
  | 0x57 => checked true (a = 0 && b = 0 && fn = 0) true (.cpyprog d)
  | 0x58 =>
    match imm11 / 512 with
    | 0 => checked true (a = 0) (imm11 % 512 ≤ 256) (.macqSingle d (imm11 % 512))
    | 1 => checked true (a = 0) (imm11 % 512 ≤ 256) (.macqPair d (imm11 % 512))
    | 2 => checked true (a = 0) (imm11 % 512 ≤ 256) (.macqTry d (imm11 % 512))
    | _ => checked true (a = 0) false .mrel
  | 0x59 => checked true (d = 0 && imm18 = 0) true .mrel
  | 0x5A =>
    match fn with
    | 0 => checked true (b = 0) (d < 16) (.mldRow d a)
    | 1 => checked true (b = 0) (d < 16) (.mldCol d a)
    | _ => .error .fn
  | 0x5B => checked true (b = 0 && fn = 0) (d < 16) (.mst d a)
  | 0x5C =>
    let low := d * 2 ^ 18 + imm18
    if low / 2 ^ 20 % 2 = 0 then
      checked true (low % 2 = 0 && low / 2 ^ 18 % 4 = 0) (1 ≤ low / 2 % 32)
        (.mmaTile (low / 2 ^ 21) (low / 2 ^ 14 % 16) (low / 2 ^ 6 % 256) (low / 2 % 32))
    else
      checked true (low % 2 = 0) (1 ≤ low / 2 % 32)
        (.mmaHandle (low / 2 ^ 21) (low / 2 ^ 14 % 64) (low / 2 ^ 6 % 256) (low / 2 % 32))
  | 0x5D =>
    let low := d * 2 ^ 18 + imm18
    if low / 2 ^ 9 % 2 = 0 then
      .ok (.mblShared (low / 2 ^ 17) (low / 2 ^ 10 % 128) (signed 9 (low % 2 ^ 9)))
    else checked true (low % 2 ^ 9 = 0) true (.mblHandle (low / 2 ^ 17) (low / 2 ^ 10 % 128))
  | 0x5E =>
    match fn with
    | 0 => checked true (a = 0 && b = 0) true (.mfence d)
    | 1 => checked true (d = 0 && b = 0) true (.mwait a)
    | _ => .error .fn
  | 0x5F =>
    match fn with
    | 0 => checked true (d = 0 && a = 0 && b = 0) true .mopf
    | 1 =>
      if b / 64 % 2 = 0 then
        checked true (d / 16 = 0 && b / 32 % 2 = 0) (1 ≤ b % 32) (.mdrainShared d a (b % 32))
      else
        checked true (d / 16 = 0 && b / 32 % 2 = 0) (a < 16 && 1 ≤ b % 32)
          (.mdrainTile d a (b % 32))
    | 2 => checked true (a = 0 && b = 0) (d < 16) (.mzero d)
    | 3 => checked true (a = 0 && b = 0) true (.mprog d)
    | _ => .error .fn
  | 0x60 =>
    match fn with
    | 0 => checked true true (a < 32) (.eqOpen d a b)
    | 1 => checked true (b = 0) (a < 32) (.eqClose d a)
    | 2 => checked true (b = 0) (a < 32) (.eqSnap d a)
    | 3 => checked true (b = 0) (a < 32) (.eqUndo d a)
    | 4 => checked true (b = 0) (a < 32) (.eqKeep d a)
    | 5 => checked true true (a < 32 && b < 3 && groupOk 4 d) (.eqStat d a b)
    | _ => .error .fn
  | 0x61 =>
    match fn with
    | 0 => checked true (d = 0 && b = 0) (groupOk 4 a) (.eqrelRoot a)
    | 1 => checked true (d = 0 && b = 0) (groupOk 4 a) (.eqrelDense a)
    | 2 => checked true (d = 0 && b = 0) (groupOk 4 a) (.eqrelSum a)
    | 3 => checked true (d = 0 && b = 0) (groupOk 4 a) (.eqrelMin a)
    | 4 => checked true (d = 0 && b = 0) (groupOk 4 a) (.eqrelMax a)
    | _ => .error .fn
  | 0x64 =>
    match fn with
    | 0 => .ok (.ctxRes d a b)
    | 1 => checked true true (groupOk 2 b) (.ctxPub d a b)
    | 2 => checked true true (groupOk 3 d) (.ctxAcq d a b)
    | 3 => checked true true (groupOk 2 b) (.ctxAbn d a b)
    | 4 => .ok (.ctxStat d a b)
    | _ => .error .fn
  | 0x68 => checked true (b = 0 && fn = 0) (groupOk 2 d) (.tempc d a)
  | 0x69 => checked (fn = 0) true true (.maskwait d a b)
  | 0x6A => checked (fn = 0) true true (.toksend d a b)
  | 0x6C => checked (fn < 8) true (1 ≤ b && b ≤ 126) (.fmc d a b fn)
  | 0x6D => checked true (d = 0 && imm18 = 0) true .fquiet
  | 0x6E =>
    match fn with
    | 0 => .ok (.fgrpSet d a b)
    | 1 => .ok (.fgrpOr d a b)
    | 2 => .ok (.fgrpClear d a b)
    | _ => .error .fn
  | 0x6F => checked (fn < 4) (b = 0) (groupOk 4 d) (.fack d a fn)
  | 0x70 => checked true (d = 0 && a = 0 && imm11 / 64 = 0) true (.trap imm11)
  | 0x71 => checked true (d = 0 && imm18 = 0) true .tret
  | 0x72 => checked true (a = 0 && imm11 / 1024 = 0) (sysRegExists imm11) (.rdsr d imm11)
  | 0x73 => checked true (d = 0 && imm11 / 1024 = 0) (sysRegWritable imm11) (.wrsr a imm11)
  | 0x74 => checked (fn = 0) (d = 0 && b = 0) (groupOk 4 a) (.launch a)
  | 0x75 =>
    match fn with
    | 0 => checked true (b = 0) true (.svcPagein d a)
    | 1 => checked true (b = 0) true (.svcNote d a)
    | _ => .error .fn
  | 0x76 =>
    match fn with
    | 0 => checked true (d = 0) (a < 8) (.evsel a b)
    | 1 => checked true (b = 0) (a < 8 && groupOk 2 d) (.evrd d a)
    | _ => .error .fn
  | 0x77 =>
    match fn with
    | 0 => checked true (d = 0 && b = 0) true (.ssave a)
    | 1 => checked true (d = 0 && b = 0) true (.srest a)
    | _ => .error .fn
  | _ => .error .op

/-- Decoding a scalar word, with the word after it if the unit holds one (R70). DEDUCED: log 75. -/
def decodeScalar (w : Nat) (next : Option Nat) : Except Reason Instr :=
  decodeScalarFields (bits w 31 25) (bits w 24 18) (bits w 17 11) (bits w 10 4) (bits w 3 0) next

/-- The number of words of a scalar instruction whose first word is `w` (R55, R56). -/
def scalarLength (w : Nat) : Nat :=
  if bits w 31 25 = 0x1C || bits w 31 25 = 0x37 || bits w 31 25 = 0x40 then 2 else 1

/-- The fields of a slot's three words (R60). -/
def rawOfWords (w0 w1 w2 : Nat) : RawSlot :=
  { op := bits w0 31 22, ty := bits w0 21 17, pg := bits w0 16 14, pn := bits w0 13 13,
    nw := bits w0 12 12, d := bits w0 11 4, rsv := bits w0 3 0,
    a := bits w1 31 23, b := bits w1 22 14, c := bits w1 13 5, fn := bits w1 4 0, w2 := w2 }

/-- The constructor of a lane opcode, with FAX's sub-operation (R64, R65). -/
def laneInstr (op : Nat) (o : LaneOp) : Option Instr :=
  match op with
  | 0x000 => some (.lnop o)
  | 0x001 => some (.laneAdd o)
  | 0x002 => some (.laneSub o)
  | 0x003 => some (.laneMul o)
  | 0x004 => some (.laneMulh o)
  | 0x005 => some (.mad o)
  | 0x006 => some (.laneDiv o)
  | 0x007 => some (.laneRem o)
  | 0x008 => some (.laneMin o)
  | 0x009 => some (.laneMax o)
  | 0x00A => some (.abs o)
  | 0x00B => some (.neg o)
  | 0x00C => some (.laneAnd o)
  | 0x00D => some (.laneOr o)
  | 0x00E => some (.laneXor o)
  | 0x00F => some (.not o)
  | 0x010 => some (.laneShl o)
  | 0x011 => some (.laneShr o)
  | 0x012 => some (.laneSra o)
  | 0x013 => some (.rot o)
  | 0x014 => some (.lanePopc o)
  | 0x015 => some (.laneClz o)
  | 0x016 => some (.bfe o)
  | 0x017 => some (.bfi o)
  | 0x018 => some (.sad o)
  | 0x040 => some (.laneFadd o)
  | 0x041 => some (.laneFsub o)
  | 0x042 => some (.laneFmul o)
  | 0x043 => some (.laneFfma o)
  | 0x044 => some (.laneFmin o)
  | 0x045 => some (.laneFmax o)
  | 0x046 => some (.laneFabs o)
  | 0x047 => some (.fneg o)
  | 0x048 => some (.frcp o)
  | 0x049 => some (.frsq o)
  | 0x04A => some (.fsqrt o)
  | 0x04B => some (.fdiv o)
  | 0x04C => some (.fexp2 o)
  | 0x04D => some (.fexp o)
  | 0x04E => some (.flog2 o)
  | 0x04F => some (.fsin o)
  | 0x050 => some (.fcos o)
  | 0x051 => some (.ftanh o)
  | 0x052 => some (.fclass o)
  | 0x080 => some (.cvt o)
  | 0x081 => some (.cvtsr o)
  | 0x082 => some (.qnt o)
  | 0x083 => some (.dqn o)
  | 0x084 => some (.pack o)
  | 0x085 => some (.unpk o)
  | 0x086 => some (.rng4 o)
  | 0x0A0 => some (.setp o)
  | 0x0A1 => some (.plog o)
  | 0x0A2 => some (.sel o)
  | 0x0A3 => some (.mov o)
  | 0x0A4 => some (.movp o)
  | 0x0C0 => some (.perm o)
  | 0x0C1 => some (.shfl o)
  | 0x0C2 => some (.vote o)
  | 0x0C3 => some (.red o)
  | 0x0C4 => some (.scan o)
  | 0x0C5 => some (.matchLanes o)
  | 0x0E0 => some (.lds o)
  | 0x0E1 => some (.sts o)
  | 0x0E2 => some (.ldx o)
  | 0x0E3 => some (.stx o)
  | 0x0E4 => some (.ldk o)
  | 0x0E5 => some (.stk o)
  | 0x0E6 => some (.ats o)
  | 0x0E7 => some (.atx o)
  | 0x100 => some (.gath o)
  | 0x101 => some (.scat o)
  | 0x110 =>
    match o.fn with
    | 0 => some (.faxLd o)
    | 1 => some (.faxLdg o)
    | 2 => some (.faxSt o)
    | 3 => some (.faxUnite o)
    | 4 => some (.faxFind o)
    | _ => some (.faxAtomic o)
  | 0x120 => some (.unite o)
  | 0x121 => some (.find o)
  | 0x3C0 => some (.trail o)
  | _ => none

/-- The operands of a slot that R60 to R67 accept. -/
def laneOpOf (r : RawSlot) : Option LaneOp :=
  match tyOfCode r.ty, srcOfField r.a, srcOfField r.b, srcOfField r.c with
  | some t, some a, some b, some c =>
    some { ty := t, pg := r.pg, pn := r.pn = 1, nw := r.nw = 1, d := r.d, a := a, b := b, c := c,
           fn := r.fn, w2 := word r.w2 }
  | _, _, _, _ => none

/-- Decoding a lane slot (R70). -/
def decodeLane (w0 w1 w2 : Nat) : Except Reason Instr :=
  let r := rawOfWords w0 w1 w2
  match laneReason r with
  | some e => .error e
  | none =>
    match (laneOpOf r).bind (laneInstr r.op) with
    | some i => .ok i
    | none => .error .laneOp

/-- The words of a slot (R60). -/
def laneWords (op : Nat) (o : LaneOp) : List Nat :=
  [ op * 2 ^ 22 + tyCode o.ty * 2 ^ 17 + o.pg * 2 ^ 14 + o.pn.toNat * 2 ^ 13 + o.nw.toNat * 2 ^ 12
      + o.d * 2 ^ 4,
    srcField o.a * 2 ^ 23 + srcField o.b * 2 ^ 14 + srcField o.c * 2 ^ 5 + o.fn,
    o.w2.toNat ]

/-- The words of an instruction (R55 to R60); an event has none. -/
def encode : Instr → List Nat
  | .add d a b => [srWord 0x00 d a b 0]
  | .sub d a b => [srWord 0x00 d a b 1]
  | .and d a b => [srWord 0x00 d a b 2]
  | .or d a b => [srWord 0x00 d a b 3]
  | .xor d a b => [srWord 0x00 d a b 4]
  | .shl d a b => [srWord 0x00 d a b 5]
  | .shr d a b => [srWord 0x00 d a b 6]
  | .sra d a b => [srWord 0x00 d a b 7]
  | .min d a b => [srWord 0x00 d a b 8]
  | .max d a b => [srWord 0x00 d a b 9]
  | .minn d a b => [srWord 0x00 d a b 10]
  | .maxn d a b => [srWord 0x00 d a b 11]
  | .slt d a b => [srWord 0x00 d a b 12]
  | .sltn d a b => [srWord 0x00 d a b 13]
  | .seq d a b => [srWord 0x00 d a b 14]
  | .sne d a b => [srWord 0x00 d a b 15]
  | .mul d a b => [srWord 0x01 d a b 0]
  | .mulh d a b => [srWord 0x01 d a b 1]
  | .mulhn d a b => [srWord 0x01 d a b 2]
  | .div d a b => [srWord 0x01 d a b 3]
  | .divn d a b => [srWord 0x01 d a b 4]
  | .rem d a b => [srWord 0x01 d a b 5]
  | .remn d a b => [srWord 0x01 d a b 6]
  | .lea d a b sh => [srWord 0x02 d a b sh]
  | .popc d a => [srWord 0x03 d a 0 0]
  | .clz d a => [srWord 0x03 d a 0 1]
  | .ctz d a => [srWord 0x03 d a 0 2]
  | .brev d a => [srWord 0x03 d a 0 3]
  | .selnz d a b => [srWord 0x03 d a b 4]
  | .extb d a pos len sx => [siWord 0x04 d a (sx.toNat * 1024 + (len - 1) * 32 + pos)]
  | .insb d a pos len => [siWord 0x05 d a ((len - 1) * 32 + pos)]
  | .addi d a imm => [siWord 0x10 d a (toField 11 imm)]
  | .andi d a imm => [siWord 0x11 d a (toField 11 imm)]
  | .ori d a imm => [siWord 0x12 d a (toField 11 imm)]
  | .xori d a imm => [siWord 0x13 d a (toField 11 imm)]
  | .shli d a sh => [siWord 0x14 d a (sh)]
  | .shri d a sh => [siWord 0x15 d a (sh)]
  | .srai d a sh => [siWord 0x16 d a (sh)]
  | .slti d a imm => [siWord 0x17 d a (toField 11 imm)]
  | .sltni d a imm => [siWord 0x18 d a (toField 11 imm)]
  | .seqi d a imm => [siWord 0x19 d a (toField 11 imm)]
  | .movhi d imm => [sbWord 0x1a d (toField 18 imm)]
  | .movi d imm => [sbWord 0x1b d (toField 18 imm)]
  | .movl d lit => [srWord 0x1C d 0 0 0, lit.toNat]
  | .fadd d a b => [srWord 0x20 d a b 0]
  | .fsub d a b => [srWord 0x20 d a b 1]
  | .fmul d a b => [srWord 0x20 d a b 2]
  | .fmin d a b => [srWord 0x20 d a b 3]
  | .fmax d a b => [srWord 0x20 d a b 4]
  | .feq d a b => [srWord 0x20 d a b 5]
  | .flt d a b => [srWord 0x20 d a b 6]
  | .fle d a b => [srWord 0x20 d a b 7]
  | .fcvti d a => [srWord 0x20 d a 0 8]
  | .fcvtf d a => [srWord 0x20 d a 0 9]
  | .fabs d a => [srWord 0x20 d a 0 10]
  | .ffma d a b => [srWord 0x21 d a b 0]
  | .sld d a off => [siWord 0x28 d a (toField 11 off)]
  | .sst d a off => [siWord 0x29 d a (toField 11 off)]
  | .xld d a off => [siWord 0x2a d a (toField 11 off)]
  | .xst d a off => [siWord 0x2b d a (toField 11 off)]
  | .spush a => [srWord 0x2C 0 a 0 0]
  | .spop d => [srWord 0x2D d 0 0 0]
  | .br off => [sbWord 0x30 0 (toField 18 off)]
  | .beqz a off => [sbWord 0x31 a (toField 18 off)]
  | .bnez a off => [sbWord 0x32 a (toField 18 off)]
  | .bltz a off => [sbWord 0x33 a (toField 18 off)]
  | .bgez a off => [sbWord 0x34 a (toField 18 off)]
  | .call a off => [sbWord 0x35 a (toField 18 off)]
  | .jr a => [srWord 0x36 0 a 0 0]
  | .brv neg p off join => [sbWord 0x37 (neg.toNat * 8 + p) (toField 18 off), toField 32 join]
  | .exit => [0x38 * 2 ^ 25]
  | .yield => [0x3A * 2 ^ 25]
  | .loop a off => [sbWord 0x3B a (toField 18 off)]
  | .lrun run await n x0 x1 x2 x3 => [srWord 0x40 x0 x1 x2 n, await * 2 ^ 24 + x3 * 2 ^ 17 + run]
  | .lwait mask => [siWord 0x41 0 0 (mask)]
  | .lget d a v => [siWord 0x42 d a (v)]
  | .lput d a v => [siWord 0x43 d a (v)]
  | .pget d p => [siWord 0x44 d 0 (p)]
  | .pset a p => [siWord 0x45 0 a (p)]
  | .waitp a path => [srWord 0x46 0 a 0 path]
  | .rdcnt d path => [srWord 0x47 d 0 0 path]
  | .fence scope mask => [srWord 0x48 0 scope mask 0]
  | .barInit d a b => [srWord 0x49 d a b 0]
  | .barArr d a => [srWord 0x49 d a 0 1]
  | .barWait d a => [srWord 0x49 d a 0 2]
  | .barArrwait d a => [srWord 0x49 d a 0 3]
  | .barInv d a => [srWord 0x49 d a 0 4]
  | .barTest d a => [srWord 0x49 d a 0 5]
  | .waitvEqSh d a b => [srWord 0x4A d a b 0]
  | .waitvNeSh d a b => [srWord 0x4A d a b 1]
  | .waitvEqSc d a b => [srWord 0x4A d a b 2]
  | .waitvNeSc d a b => [srWord 0x4A d a b 3]
  | .scopeset d k b => [srWord 0x4B d k b 0]
  | .cpyLin a => [srWord 0x50 0 a 0 0]
  | .cpyTile a => [srWord 0x50 0 a 0 1]
  | .cpyRing a => [srWord 0x50 0 a 0 2]
  | .cpyw d a off => [siWord 0x51 d a (toField 5 off * 64)]
  | .thbind d h b => [srWord 0x52 d h b 0]
  | .cqput a => [srWord 0x53 0 a 0 0]
  | .cqget d => [srWord 0x54 d 0 0 0]
  | .lxferRestrict a add => [srWord 0x55 0 a 0 (0 + add.toNat * 8)]
  | .lxferProlong a add => [srWord 0x55 0 a 0 (1 + add.toNat * 8)]
  | .lxferInject a add => [srWord 0x55 0 a 0 (2 + add.toNat * 8)]
  | .stbind d k b => [srWord 0x56 d k b 0]
  | .cpyprog d => [srWord 0x57 d 0 0 0]
  | .macqSingle d n => [siWord 0x58 d 0 (0 * 512 + n)]
  | .macqPair d n => [siWord 0x58 d 0 (1 * 512 + n)]
  | .macqTry d n => [siWord 0x58 d 0 (2 * 512 + n)]
  | .mrel => [0x59 * 2 ^ 25]
  | .mldRow t a => [srWord 0x5A t a 0 0]
  | .mldCol t a => [srWord 0x5A t a 0 1]
  | .mst t a => [srWord 0x5B t a 0 0]
  | .mmaTile acc t slot fmt => [0x5C * 2 ^ 25 + acc * 2 ^ 21 + t * 2 ^ 14 + slot * 2 ^ 6 + fmt * 2]
  | .mmaHandle acc h slot fmt => [0x5C * 2 ^ 25 + acc * 2 ^ 21 + 2 ^ 20 + h * 2 ^ 14 + slot * 2 ^ 6 + fmt * 2]
  | .mblShared slot a off => [0x5D * 2 ^ 25 + slot * 2 ^ 17 + a * 2 ^ 10 + toField 9 off]
  | .mblHandle slot a => [0x5D * 2 ^ 25 + slot * 2 ^ 17 + a * 2 ^ 10 + 2 ^ 9]
  | .mfence d => [srWord 0x5E d 0 0 0]
  | .mwait a => [srWord 0x5E 0 a 0 1]
  | .mopf => [0x5F * 2 ^ 25]
  | .mdrainShared acc a fmt => [0x5F * 2 ^ 25 + acc * 2 ^ 18 + a * 2 ^ 11 + fmt * 2 ^ 4 + 1]
  | .mdrainTile acc t fmt => [0x5F * 2 ^ 25 + acc * 2 ^ 18 + t * 2 ^ 11 + 2 ^ 10 + fmt * 2 ^ 4 + 1]
  | .mzero t => [srWord 0x5F t 0 0 2]
  | .mprog d => [srWord 0x5F d 0 0 3]
  | .eqOpen d n b => [srWord 0x60 d n b 0]
  | .eqClose d n => [srWord 0x60 d n 0 1]
  | .eqSnap d n => [srWord 0x60 d n 0 2]
  | .eqUndo d n => [srWord 0x60 d n 0 3]
  | .eqKeep d n => [srWord 0x60 d n 0 4]
  | .eqStat d n page => [srWord 0x60 d n page 5]
  | .eqrelRoot a => [srWord 0x61 0 a 0 0]
  | .eqrelDense a => [srWord 0x61 0 a 0 1]
  | .eqrelSum a => [srWord 0x61 0 a 0 2]
  | .eqrelMin a => [srWord 0x61 0 a 0 3]
  | .eqrelMax a => [srWord 0x61 0 a 0 4]
  | .ctxRes d a b => [srWord 0x64 d a b 0]
  | .ctxPub d a b => [srWord 0x64 d a b 1]
  | .ctxAcq d a b => [srWord 0x64 d a b 2]
  | .ctxAbn d a b => [srWord 0x64 d a b 3]
  | .ctxStat d a b => [srWord 0x64 d a b 4]
  | .tempc d a => [srWord 0x68 d a 0 0]
  | .maskwait d a b => [srWord 0x69 d a b 0]
  | .toksend d a b => [srWord 0x6A d a b 0]
  | .fmc d a b lenm1 => [srWord 0x6C d a b lenm1]
  | .fquiet => [0x6D * 2 ^ 25]
  | .fgrpSet d a b => [srWord 0x6E d a b 0]
  | .fgrpOr d a b => [srWord 0x6E d a b 1]
  | .fgrpClear d a b => [srWord 0x6E d a b 2]
  | .fack d a page => [srWord 0x6F d a 0 page]
  | .trap k => [siWord 0x70 0 0 (k)]
  | .tret => [0x71 * 2 ^ 25]
  | .rdsr d r => [siWord 0x72 d 0 (r)]
  | .wrsr a r => [siWord 0x73 0 a (r)]
  | .launch a => [srWord 0x74 0 a 0 0]
  | .svcPagein d a => [srWord 0x75 d a 0 0]
  | .svcNote d a => [srWord 0x75 d a 0 1]
  | .evsel k b => [srWord 0x76 0 k b 0]
  | .evrd d k => [srWord 0x76 d k 0 1]
  | .ssave a => [srWord 0x77 0 a 0 0]
  | .srest a => [srWord 0x77 0 a 0 1]
  | .lnop o => laneWords 0x000 o
  | .trail o => laneWords 0x3C0 o
  | .laneAdd o => laneWords 0x001 o
  | .laneSub o => laneWords 0x002 o
  | .laneMul o => laneWords 0x003 o
  | .laneMulh o => laneWords 0x004 o
  | .mad o => laneWords 0x005 o
  | .laneDiv o => laneWords 0x006 o
  | .laneRem o => laneWords 0x007 o
  | .laneMin o => laneWords 0x008 o
  | .laneMax o => laneWords 0x009 o
  | .abs o => laneWords 0x00A o
  | .neg o => laneWords 0x00B o
  | .laneAnd o => laneWords 0x00C o
  | .laneOr o => laneWords 0x00D o
  | .laneXor o => laneWords 0x00E o
  | .not o => laneWords 0x00F o
  | .laneShl o => laneWords 0x010 o
  | .laneShr o => laneWords 0x011 o
  | .laneSra o => laneWords 0x012 o
  | .rot o => laneWords 0x013 o
  | .lanePopc o => laneWords 0x014 o
  | .laneClz o => laneWords 0x015 o
  | .bfe o => laneWords 0x016 o
  | .bfi o => laneWords 0x017 o
  | .sad o => laneWords 0x018 o
  | .laneFadd o => laneWords 0x040 o
  | .laneFsub o => laneWords 0x041 o
  | .laneFmul o => laneWords 0x042 o
  | .laneFfma o => laneWords 0x043 o
  | .laneFmin o => laneWords 0x044 o
  | .laneFmax o => laneWords 0x045 o
  | .laneFabs o => laneWords 0x046 o
  | .fneg o => laneWords 0x047 o
  | .frcp o => laneWords 0x048 o
  | .frsq o => laneWords 0x049 o
  | .fsqrt o => laneWords 0x04A o
  | .fdiv o => laneWords 0x04B o
  | .fexp2 o => laneWords 0x04C o
  | .fexp o => laneWords 0x04D o
  | .flog2 o => laneWords 0x04E o
  | .fsin o => laneWords 0x04F o
  | .fcos o => laneWords 0x050 o
  | .ftanh o => laneWords 0x051 o
  | .fclass o => laneWords 0x052 o
  | .cvt o => laneWords 0x080 o
  | .cvtsr o => laneWords 0x081 o
  | .qnt o => laneWords 0x082 o
  | .dqn o => laneWords 0x083 o
  | .pack o => laneWords 0x084 o
  | .unpk o => laneWords 0x085 o
  | .rng4 o => laneWords 0x086 o
  | .setp o => laneWords 0x0A0 o
  | .plog o => laneWords 0x0A1 o
  | .sel o => laneWords 0x0A2 o
  | .mov o => laneWords 0x0A3 o
  | .movp o => laneWords 0x0A4 o
  | .perm o => laneWords 0x0C0 o
  | .shfl o => laneWords 0x0C1 o
  | .vote o => laneWords 0x0C2 o
  | .red o => laneWords 0x0C3 o
  | .scan o => laneWords 0x0C4 o
  | .matchLanes o => laneWords 0x0C5 o
  | .lds o => laneWords 0x0E0 o
  | .sts o => laneWords 0x0E1 o
  | .ldx o => laneWords 0x0E2 o
  | .stx o => laneWords 0x0E3 o
  | .ldk o => laneWords 0x0E4 o
  | .stk o => laneWords 0x0E5 o
  | .ats o => laneWords 0x0E6 o
  | .atx o => laneWords 0x0E7 o
  | .gath o => laneWords 0x100 o
  | .scat o => laneWords 0x101 o
  | .faxLd o => laneWords 0x110 o
  | .faxLdg o => laneWords 0x110 o
  | .faxSt o => laneWords 0x110 o
  | .faxUnite o => laneWords 0x110 o
  | .faxFind o => laneWords 0x110 o
  | .faxAtomic o => laneWords 0x110 o
  | .unite o => laneWords 0x120 o
  | .find o => laneWords 0x121 o
  | .macqGrant _ => []
  | .eqrelRun _ _ _ => []
  | .ctxReservationGrant _ => []
  | .maskwaitTimeout _ _ => []
  | .tokenInboxWrite _ => []
  | .tokenReply _ _ _ => []
  | .uniteServe _ _ => []
  | .findServe _ _ => []
  | .runStart _ => []
  | .runCommit _ => []
  | .resultLands _ _ _ => []
  | .requestRetires _ _ => []
  | .fragmentWake _ _ => []
  | .warpEnd _ => []
  | .asyncTrapTaken _ => []
  | .copyGranule _ _ _ => []
  | .copyComplete _ _ => []
  | .lxferPoint _ _ => []
  | .matrixOpUnit _ _ => []
  | .scanRequest _ => []
  | .preempt _ => []
  | .teamResume _ _ => []
  | .stallHint _ _ => []
  | .stallHintLapse _ _ => []
  | .parkedSwapOut _ => []
  | .shootRange => []
  | .shootAsid => []
  | .flushad => []
  | .create _ => []
  | .delete _ => []
  | .abandonq _ => []
  | .ctxReportRead _ => []
  | .faxHomeServe _ => []
  | .faxResponse _ _ _ => []
  | .multicastReplicate _ _ _ => []
  | .multicastLineServe _ => []
  | .multicastAggregate _ _ _ _ => []
  | .portFailure _ => []
  | .linkTraining _ _ _ => []
  | .lateRequest _ _ => []
  | .laterepRead => []
  | .resetNotice _ _ _ => []
  | .resetNoticeAck _ _ => []
  | .keyInstall _ => []
  | .keyAlarm _ => []
  | .keyExhausted _ => []
  | .writeWindow => []
  | .revoke => []
  | .revokeComplete => []
  | .doorbell _ _ => []
  | .queueReset _ => []
  | .resume _ => []
  | .disable _ => []
  | .resetComplete _ => []
  | .packetPrefetch _ => []
  | .nopPacket _ => []
  | .resetPacket _ => []
  | .fetchfence _ => []
  | .signal _ => []
  | .waitsig _ => []
  | .waitsigTimeout _ => []
  | .ib _ => []
  | .ibret _ => []
  | .launchPacket _ => []
  | .nlaunch _ => []
  | .copyPacket _ => []
  | .harvest _ => []
  | .queueWaitEnd _ => []
  | .hubCopyBlock _ _ => []
  | .hubCopyComplete _ => []
  | .teamPlace _ => []
  | .nbhdPlace _ => []
  | .gridRetire _ => []
  | .boot _ => []
  | .spare _ => []
  | .attest => []
  | .extend => []
  | .evgrant => []
  | .raisemin => []
  | .hkey => []
  | .elogRead _ => []
  | .hbmScrub => []
  | .heartbeatSend => []
  | .heartbeatReceive _ => []
  | .partnerSilent _ => []
  | .quorumResetMessage _ => []
  | .thermalWarning => []
  | .thermalTrip => []
  | .registerWrite _ _ => []
  | .eqServe _ _ => []
  | .ctxServe _ _ => []
  | .supervisorReply _ => []
  | .generalCoreStore _ _ => []
  | .hostMemoryWrite _ _ => []
  | .groupTableUpdate _ _ _ _ => []
  | .softError _ => []
  | .powerLoss _ => []

/-- The three kinds of row: a scalar instruction, a lane instruction, an event. -/
inductive InstrKind where
  | scalar | lane | event
  deriving DecidableEq, Repr

/-- The kind of an instruction, by the number of its words. -/
def Instr.kind (i : Instr) : InstrKind :=
  match (encode i).length with
  | 0 => .event
  | 3 => .lane
  | _ => .scalar

/-- A word from bytes, least significant first (R3); a missing byte is none. -/
def wordAt (bs : List Byte) (k : Nat) : Option Nat :=
  match bs[4 * k]?, bs[4 * k + 1]?, bs[4 * k + 2]?, bs[4 * k + 3]? with
  | some b0, some b1, some b2, some b3 =>
    some (b0.toNat + b1.toNat * 2 ^ 8 + b2.toNat * 2 ^ 16 + b3.toNat * 2 ^ 24)
  | _, _, _, _ => none

/-- The bytes of a word, least significant first (R3). -/
def bytesOfWord (w : Nat) : List Byte :=
  [BitVec.ofNat 8 w, BitVec.ofNat 8 (w / 2 ^ 8), BitVec.ofNat 8 (w / 2 ^ 16),
   BitVec.ofNat 8 (w / 2 ^ 24)]

/-- Decoding the scalar instruction at the start of bytes; too few bytes for a word are cut off. -/
def decodeScalarBytes (bs : List Byte) : Except Reason Instr :=
  match wordAt bs 0 with
  | some w => decodeScalar w (wordAt bs 1)
  | none => .error .cut

/-- Decoding the lane slot at the start of bytes. -/
def decodeLaneBytes (bs : List Byte) : Except Reason Instr :=
  match wordAt bs 0, wordAt bs 1, wordAt bs 2 with
  | some w0, some w1, some w2 => decodeLane w0 w1 w2
  | _, _, _ => .error .noTrail

/-- The bytes that hold a table word of `nbits` bits: a scalar instruction of up to two words, or,
above 64 bits, a lane slot of three; every bit past `nbits` is 0. -/
def tableBytes (nbits w : Nat) : List Byte :=
  let w := w % 2 ^ nbits
  if nbits ≤ 64 then bytesOfWord (w % 2 ^ 32) ++ bytesOfWord (w / 2 ^ 32 % 2 ^ 32)
  else bytesOfWord (w % 2 ^ 32) ++ bytesOfWord (w / 2 ^ 32 % 2 ^ 32) ++
    bytesOfWord (w / 2 ^ 64 % 2 ^ 32)

/-- The instruction this decoder reads from a table word: bit 0 is the least significant bit of the
first word. -/
def decodeTableWord (nbits w : Nat) : Option Instr :=
  let r := if nbits ≤ 64 then decodeScalarBytes (tableBytes nbits w)
    else decodeLaneBytes (tableBytes nbits w)
  match r with
  | .ok i => some i
  | .error _ => none

end Sys2Proof
end

