-- ==== Sys2Proof/Machine/Store.lean ====
section
/-! DEFINITION. The three kinds of keyed storage that State is made of, as plain lists.

`SMap w` is a map from keys to `w`-bit values in one canonical form: keys strictly rising, no entry
equal to zero, which is what an unlisted key reads as. A memory's bytes (`Host.Cell`) and the
register files have this form, so that equal contents are equal data. `UMem` is storage whose
unwritten bytes hold undefined values (R6). `AMap` is an association list of records. -/
namespace Sys2Proof.Machine

/-- Values of `w` bits by key, in canonical form; an unlisted key holds zero. -/
abbrev SMap (w : Nat) := List (Nat × BitVec w)

/-- The value at a key. -/
def SMap.get {w : Nat} (m : SMap w) (k : Nat) : BitVec w :=
  match m with
  | [] => 0
  | (k', v) :: rest => if k' = k then v else SMap.get rest k

/-- The map without a key. -/
def SMap.erase {w : Nat} (m : SMap w) (k : Nat) : SMap w :=
  match m with
  | [] => []
  | (k', v') :: rest => if k' = k then SMap.erase rest k else (k', v') :: SMap.erase rest k

/-- The map with a value at a key, keys kept rising. -/
def SMap.insert {w : Nat} (m : SMap w) (k : Nat) (v : BitVec w) : SMap w :=
  match m with
  | [] => [(k, v)]
  | (k', v') :: rest =>
    if k < k' then (k, v) :: (k', v') :: rest
    else if k = k' then (k, v) :: rest
    else (k', v') :: SMap.insert rest k v

/-- The map with one value replaced; writing zero removes the entry. -/
def SMap.set {w : Nat} (m : SMap w) (k : Nat) (v : BitVec w) : SMap w :=
  if v = 0 then SMap.erase m k else SMap.insert m k v

/-- Whether every key of a map lies above a bound and no value is zero, keys rising. -/
def SMap.wfFrom {w : Nat} (lo : Nat) : SMap w → Bool
  | [] => true
  | (k, v) :: rest => lo ≤ k && v != 0 && SMap.wfFrom (k + 1) rest

/-- The canonical form: keys strictly rising, no zero value. -/
def SMap.wf {w : Nat} (m : SMap w) : Bool := SMap.wfFrom 0 m

/-- Records by key; the first entry of a key counts. -/
abbrev AMap (α : Type) := List (Nat × α)

/-- The record at a key. -/
def AMap.get? {α : Type} (m : AMap α) (k : Nat) : Option α :=
  match m with
  | [] => none
  | (k', v) :: rest => if k' = k then some v else AMap.get? rest k

/-- The map with one record replaced or added. -/
def AMap.set {α : Type} (m : AMap α) (k : Nat) (v : α) : AMap α :=
  match m with
  | [] => [(k, v)]
  | (k', v') :: rest => if k' = k then (k, v) :: rest else (k', v') :: AMap.set rest k v

/-- The map without a key. -/
def AMap.erase {α : Type} (m : AMap α) (k : Nat) : AMap α := m.filter fun e => e.1 != k

/-- Bytes of a memory that holds data: listed bytes in canonical form, and the aligned 8-byte words
whose double-bit error makes them uncorrectable (R25, R358), by word number. -/
structure Memory where
  cells : List Host.Cell
  bad   : List Nat
  deriving DecidableEq, Repr

/-- The uncorrectable words left after `n` bytes at an address are written: a word written whole has
its check bits made anew. DEDUCED: log 15. -/
def repaired (bad : List Nat) (a n : Nat) : List Nat :=
  bad.filter fun k => !(a ≤ 8 * k && 8 * k + 8 ≤ a + n)

/-- A memory with nothing listed. -/
def Memory.empty : Memory := { cells := [], bad := [] }

/-- What a byte of memory that nothing has written reads as (DESIGN CHOICE, log 4). -/
def Memory.unlisted : Byte := 0

/-- One byte of a memory: `Memory.unlisted` where nothing is listed. -/
def Memory.byte (m : Memory) (a : Nat) : Byte := SMap.get (w := 8) m.cells a

/-- A memory with one byte replaced. -/
def Memory.setByte (m : Memory) (a : Nat) (v : Byte) : Memory :=
  { m with cells := SMap.set (w := 8) m.cells a v }

/-- The canonical form of a memory: addresses strictly rising, no entry equal to what an unlisted
address reads as. -/
def Memory.wf (m : Memory) : Bool := SMap.wf (w := 8) m.cells

/-- `n` bytes at an address as a number, least significant byte lowest (R3). -/
def Memory.read (m : Memory) (a : Nat) : Nat → Nat
  | 0 => 0
  | n + 1 => (Memory.byte m a).toNat + 256 * Memory.read m (a + 1) n

/-- Cells with the low `n` bytes of a number stored at an address, least significant byte lowest. -/
def writeCells (m : List Host.Cell) (a : Nat) : Nat → Nat → List Host.Cell
  | 0, _ => m
  | n + 1, v => writeCells (SMap.set (w := 8) m a (BitVec.ofNat 8 v)) (a + 1) n (v / 256)

/-- The low `n` bytes of a number stored at an address, least significant byte lowest (R3). -/
def Memory.write (m : Memory) (a n v : Nat) : Memory :=
  { cells := writeCells m.cells a n v, bad := repaired m.bad a n }

/-- Cells with a list of bytes stored at an address. -/
def writeCellBytes (m : List Host.Cell) (a : Nat) : List Byte → List Host.Cell
  | [] => m
  | b :: bs => writeCellBytes (SMap.set (w := 8) m a b) (a + 1) bs

/-- A list of bytes stored at an address. -/
def Memory.writeBytes (m : Memory) (a : Nat) (bs : List Byte) : Memory :=
  { cells := writeCellBytes m.cells a bs, bad := repaired m.bad a bs.length }

/-- `n` bytes at an address, lowest first. -/
def Memory.readBytes (m : Memory) (a : Nat) : Nat → List Byte
  | 0 => []
  | n + 1 => Memory.byte m a :: Memory.readBytes m (a + 1) n

/-- Whether one of the words that `n` bytes at an address touch is uncorrectable. -/
def badWords (bad : List Nat) (a n : Nat) : Bool := bad.any fun k => a < 8 * k + 8 && 8 * k < a + n

/-- Whether data among `n` bytes at an address is uncorrectable. -/
def Memory.uncorrectable (m : Memory) (a n : Nat) : Bool := badWords m.bad a n

/-- The uncorrectable granules that `n` bytes of main memory meet, by their first byte, in rising order. -/
def Memory.badGranules (m : Memory) (a n : Nat) : List Nat :=
  ((List.range ((a % 32 + n + 31) / 32)).map fun k => a / 32 * 32 + 32 * k).filter fun g => Memory.uncorrectable m g 32

/-- Storage whose unwritten bytes hold undefined values: the written bytes, the number of the grant
that the undefined ones belong to, and the uncorrectable words. -/
structure UMem where
  seed  : Nat
  cells : List (Nat × Byte)
  bad   : List Nat
  deriving DecidableEq, Repr

/-- One byte: a written one, or the undefined value of its place (R6). -/
def UMem.byte (m : UMem) (a : Nat) : Byte :=
  match AMap.get? m.cells a with
  | some v => v
  | none => Config.undefByte m.seed a

/-- A written byte; keys stay rising. -/
def UMem.insert (a : Nat) (v : Byte) : List (Nat × Byte) → List (Nat × Byte)
  | [] => [(a, v)]
  | (a', v') :: rest =>
    if a < a' then (a, v) :: (a', v') :: rest
    else if a = a' then (a, v) :: rest
    else (a', v') :: UMem.insert a v rest

/-- The storage with one byte replaced. -/
def UMem.setByte (m : UMem) (a : Nat) (v : Byte) : UMem :=
  { m with cells := UMem.insert a v m.cells }

/-- `n` bytes as a number, least significant byte lowest (R3). -/
def UMem.read (m : UMem) (a : Nat) : Nat → Nat
  | 0 => 0
  | n + 1 => (UMem.byte m a).toNat + 256 * UMem.read m (a + 1) n

/-- Cells with the low `n` bytes of a number stored. -/
def UMem.insertN (m : List (Nat × Byte)) (a : Nat) : Nat → Nat → List (Nat × Byte)
  | 0, _ => m
  | n + 1, v => UMem.insertN (UMem.insert a (BitVec.ofNat 8 v) m) (a + 1) n (v / 256)

/-- The low `n` bytes of a number, least significant byte lowest (R3). -/
def UMem.write (m : UMem) (a n v : Nat) : UMem :=
  { m with cells := UMem.insertN m.cells a n v, bad := repaired m.bad a n }

/-- Whether data among `n` bytes is uncorrectable. -/
def UMem.uncorrectable (m : UMem) (a n : Nat) : Bool := badWords m.bad a n

end Sys2Proof.Machine
end

