-- ==== Sys2Proof/Machine/State.lean ====
section
/-! DEFINITION. The state of the whole device, as plain data, and what it holds at reset.

The device has many agents, so State holds an agenda: which agent acts next (log 1). Everything else
is what the specification gives the machine; each structure's docstring cites its rules. Warps, teams
and grids are numbered in the order in which they start and keep their numbers. -/
namespace Sys2Proof.Machine

/-! ### Reasons to stop -/

/-- Why the machine stops with a fault. -/
inductive Fault where
  /-- A store of a general core to a physical address at which the device has no memory (R10, R21). Safe. -/
  | physAddr
  deriving DecidableEq, Repr

/-- Why an instruction has no meaning. -/
inductive Refusal where
  /-- An arm of exec that has no meaning yet; raised by exec alone. Safe. -/
  | notModelled (mnemonic : String)
  /-- A scalar instruction given to exec while State.cur names no fragment; step never does this.
  Safe. -/
  | noFragment
  /-- A lane instruction given to exec while State.laneCur names no executing run; step never does
  this. Safe. -/
  | noRun
  /-- Bytes at a tagged start that are not an instruction, because memory was rewritten under an
  executable mapping; the scanner never maps such bytes (R76). Safe. -/
  | notInstruction (reason : Reason)
  deriving DecidableEq, Repr

/-- What a step answers. -/
abbrev Out (σ : Type) := Host.Outcome σ Fault Refusal

/-! ### Warps -/

/-- The access paths (R22). -/
inductive Path where
  | sh | sc | sp | cp | fb | eq
  deriving DecidableEq, Repr

/-- A path code (R22). -/
def pathOfCode : Nat → Path
  | 0 => .sh | 1 => .sc | 2 => .sp | 3 => .cp | 4 => .fb | _ => .eq

/-- A split on a fragment's join list: the join address and the mask at the split (R109). -/
structure Split where
  join   : Word
  origin : Word
  deriving DecidableEq, Repr

/-- The three words of a lane slot (R60), and whether its fetch met uncorrectable data (log 84). -/
structure Slot where
  w0 : Nat
  w1 : Nat
  w2 : Nat
  lost : Bool := false
  deriving DecidableEq, Repr

/-- An entry of the run queue (R112). `code` holds the run's slots as they were fetched at the LRUN:
a later unmapping does not reach them (R75). `seq` numbers the warp's runs in the order in which they
were enqueued and `lev` is the trap level at that moment (R318); both are the model's. DEDUCED: log 9. -/
structure RunEntry where
  run   : Nat
  code  : List Slot
  await : Nat
  mask  : Word
  args  : List Word
  seq   : Nat
  lev   : Nat
  deriving DecidableEq, Repr

/-- An entry of a TRQ (R317, R324). -/
structure TrqEntry where
  valid   : Bool
  skip    : Bool
  trapped : Bool
  entry   : RunEntry
  deriving DecidableEq, Repr

/-- The bank of a trap level (R314, R324). `slot` is the fragment that runs the handler and `prev`
its handler level before the trap; both are the model's. -/
structure Bank where
  tcause : Word
  tret   : Word
  tval   : Word
  tvalh  : Word
  tmask  : Word
  trq    : List TrqEntry
  slot   : Nat
  prev   : Nat
  deriving DecidableEq, Repr

/-- A trap that waits to be taken (R315, R316): its cause, lanes, value, whether a class 10 access
was a write, the level and the number of its request, the request's token if it has one, and, for a
lane trap, the discarded run. -/
structure Pending where
  id    : Nat
  token : Option Nat
  cause : Nat
  mask  : Word
  tval  : DWord
  write : Bool
  lev   : Nat
  run   : Option RunEntry
  deriving DecidableEq, Repr

/-- The memory levels that a local access names (R153). -/
inductive Space where
  | shared | scratch | spill
  deriving DecidableEq, Repr

/-- The atomic operations (R157). -/
inductive AtomOp where
  | add | min | max | and | or | xor | xchg | cas
  deriving DecidableEq, Repr

/-- One lane's part of a request: its lane, its address, its data, the second datum of a CAS, and
the words of a granule. For GATH and SCAT, `x` is the physical address. -/
structure LaneItem where
  lane : Nat
  addr : DWord
  x    : DWord
  y    : DWord
  ws   : List Word := []
  deriving DecidableEq, Repr

/-- One register write of a result that has been performed and has not landed (R122). -/
inductive Land where
  | vreg (lane r : Nat) (v : Word)
  | preg (lane p : Nat) (v : Bool)
  | sreg (r : Nat) (v : Word)
  deriving DecidableEq, Repr

/-! ### Copies (R161 to R190) -/

/-- An end of a transfer: on chip, or in main memory at a virtual address. -/
inductive End where
  | chip (sp : Space) (off : Nat)
  | main (va : Nat)
  deriving DecidableEq, Repr

/-- A tile handle's binding (R162, R165): the layout record without its PTR, and the base. -/
structure TileBind where
  base  : Nat
  esz   : Nat
  outer : Nat
  inner : Nat
  swz   : Nat
  ex    : Nat
  ey    : Nat
  ez    : Nat
  tx    : Nat
  ty    : Nat
  tz    : Nat
  bx    : Nat
  byy   : Nat
  sy    : Nat
  sz    : Nat
  deriving DecidableEq, Repr

/-- A tap of a stencil table (R186). -/
structure Tap where
  dz : Int
  dy : Int
  dx : Int
  w  : Word
  deriving DecidableEq, Repr

/-- A bound stencil table (R186, R187): its kind, its dimensions and the taps of classes 0 to 7. -/
structure Stencil where
  prolong : Bool
  dims    : Nat
  taps    : List (List Tap)
  deriving DecidableEq, Repr

/-- A linear or tiled transfer (R168). Its units are words of 4 bytes, or elements of the tile that
`tile` binds and numbers; `start` is the progress from which it runs or resumed, and `done` lists the
destination granules written since, which may be in any order (R174); `saved` holds the units whose source bytes the
transfer has itself overwritten since, with what they read (R168). -/
structure Piece where
  dst   : End
  src   : End
  tile  : Option (TileBind × Nat)
  size  : Nat
  start : Nat
  done  : List Nat
  saved : AMap Nat := []
  deriving DecidableEq, Repr

/-- A descriptor ring (R166, R168): where it is, start, count and length, the records performed, the
bytes they moved, and the record under way. -/
structure Ring where
  at_   : End
  start : Nat
  count : Nat
  len   : Nat
  pos   : Nat
  bytes : Nat
  cur   : Option Piece
  deriving DecidableEq, Repr

/-- One level of a transfer (R182): format, extents and strides. -/
structure Grid3 where
  fmt : Nat
  nx  : Nat
  ny  : Nat
  nz  : Nat
  sy  : Nat
  sz  : Nat
  deriving DecidableEq, Repr

/-- A level transfer (R181 to R184): kind 0 restrict, 1 prolong, 2 inject; the captured table; the
destination points written; and, in add mode, the next point's result, once it is computed and not yet
written (R189). -/
structure Level where
  kind  : Nat
  add   : Bool
  dst   : End
  src   : End
  dg    : Grid3
  sg    : Grid3
  bnd   : Nat
  table : List (List Tap)
  pos   : Nat
  held  : Option Nat := none
  deriving DecidableEq, Repr

/-- A relabel-reduce of a forest (R244, R245): fn, element type, forest, ends; once it has taken its
place in the linear order, the root of every element and the roots in increasing order; the source
elements read, the classes' accumulators, and the destination granules written with their bytes. -/
structure EqRel where
  fn      : Nat
  et      : Nat
  forest  : Nat
  serial  : Nat
  dst     : End
  src     : End
  roots   : Option (List Nat)
  classes : List Nat
  pos     : Nat
  acc     : AMap Nat
  done    : List Nat
  bytes   : Nat
  deriving DecidableEq, Repr

/-- What a command of the copy unit, or of an equivalence engine, does. -/
inductive CopyWork where
  | piece (p : Piece)
  | ring (r : Ring)
  | level (l : Level)
  | eqrel (e : EqRel)
  deriving DecidableEq, Repr

/-- Whether a copy runs, has stopped at a translation fault that the supervisor has not yet answered
(R179), or has failed with STATUS, FAULT and FADDR (R172). -/
inductive CopyStop where
  | running
  | faulted (cause va : Nat)
  | failed (status cause faddr : Nat)
  deriving DecidableEq, Repr

/-- A command of the copy unit (R168, R170): its work, its MODE, the slot of its completion record,
and the barrier it arrives at. -/
structure CopyCmd where
  work : CopyWork
  mode : Nat
  slot : Option (Space × Nat)
  bar  : Option Nat
  stop : CopyStop
  deriving DecidableEq, Repr

/-! ### The matrix array (R191 to R211) -/

/-- A format block (R197). -/
structure FmtBlock where
  af  : Nat
  bf  : Nat
  gl  : Nat
  ph  : Nat
  at_ : Bool
  df  : Nat
  asc : Nat
  azp : Nat
  bsc : Nat
  bzp : Nat
  tix : Nat
  deriving DecidableEq, Repr

/-- A matrix operation's work (R200 to R202, R207): tiles, slots and offsets as the instruction names
them; a handle's binding and tile index as captured at issue (R177). -/
inductive MWork where
  | mld (t : Nat) (col : Bool) (sp : Space) (off : Nat)
  | mst (t : Nat) (sp : Space) (off : Nat)
  | mzero (t : Nat)
  | mbl (slot off : Nat)
  | mblTile (slot : Nat) (b : TileBind) (n : Nat)
  | mma (acc t slot : Nat) (f : FmtBlock)
  | mmaTile (acc : Nat) (b : TileBind) (n slot : Nat) (f : FmtBlock)
  | drain (acc off df : Nat)
  | drainTile (acc t df : Nat)
  deriving DecidableEq, Repr

/-- An unretired operation of an array (R203): its number, warp and grant, the physical slots that the
logical ones name on the leader and on a pair's follower, its progress in units, its batch once
closed, the operand granules of its handle fetched so far, the MOPF count and the CP position at its
issue, its trap level, what it will set in MSTAT, an unanswered translation fault, the address of one that
the supervisor has declined, and whether it is to retire without effect (R209). -/
structure MOp where
  id      : Nat
  w       : Nat
  session : Nat
  phys    : List Nat
  pair    : Option Nat
  fphys   : List Nat
  work    : MWork
  unit    : Nat
  batch   : Option Nat
  img     : AMap Nat
  epoch   : Nat
  cp      : Nat
  lev     : Nat
  flags   : Nat
  fault   : Option (Nat × Nat)
  declined : Option Nat := none
  dead    : Bool
  deriving DecidableEq, Repr

/-- The first failure of a warp's operations that no MWAIT has reported (R209). -/
structure MFail where
  batch : Option Nat
  cause : Nat
  tval  : Nat
  deriving DecidableEq, Repr

/-- Bytes that an operation reads or writes and that the owner may not touch before an MWAIT that
covers it (R33, R204): the operation's batch; once one has covered it, the number below which the warp's requests were
issued before that MWAIT; and where the bytes start and how many they are. -/
structure MTouch where
  batch : Option Nat
  below : Option Nat
  at_   : End
  len   : Nat
  deriving DecidableEq, Repr

/-- An entry of an array's owner queue (R193): the warp and its fragment, the slots wanted, the status
register, the pair form, the leader core of a pair's second grant, and whether a resumed owner
reacquires (R211). -/
structure MWaiter where
  w      : Nat
  slot   : Nat
  n      : Nat
  d      : Nat
  pair   : Bool
  leader : Option Nat
  resume : Bool
  deriving DecidableEq, Repr

/-- Ownership of an array (R193 to R195): the warp, the number of the grant, the physical slots, the
partner cores of a pair, whether the whole grant is complete, and whether MREL has ended it while the
pair's last operations still run. -/
structure MHold where
  w        : Nat
  session  : Nat
  phys     : List Nat
  follower : Option Nat
  leader   : Option Nat
  ready    : Bool
  released : Bool
  deriving DecidableEq, Repr

/-- Saved contents of an array for a grant (R211): tiles by number, reserved slots in order. -/
structure MStore where
  tiles : AMap UMem
  slots : List UMem
  deriving DecidableEq, Repr

/-- What a pre-empted owner's image holds of the arrays (R211). -/
structure MImage where
  n        : Nat
  leader   : MStore
  follower : Option MStore
  ops      : List MOp
  deriving DecidableEq, Repr

/-- A core's matrix array (R192, R193, R203): owner, owner queue, stores and the grant that their
contents belong to, contents that a later grant finds, and the unretired operations in issue order. -/
structure MArray where
  hold    : Option MHold
  waiters : List MWaiter
  tiles   : AMap UMem
  slots   : AMap UMem
  cur     : Nat
  inits   : List (Nat × MStore)
  ops     : List MOp
  nextOp  : Nat
  deriving DecidableEq, Repr

/-! ### Equivalence (R230 to R250) -/

/-- The scalar operations on a forest (R234). An OPEN holds its descriptor, if that is not uncorrectable, and
how far it is: not yet served, waiting for the supervisor's pin (R235), or answered. -/
inductive EqOp where
  | open_ (desc : Option Nat) (asked : Bool) (pinned : Option Bool)
  | close
  | snap
  | undo
  | keep
  | stat (page : Nat)
  deriving DecidableEq, Repr

/-- An open forest (R231 to R233): the number of its opening, its context, array, log, class registers and saved LSIZE and LROOT;
whether OPEN made singletons; the number of the undefined state that a write to its bytes has left it in (R232);
where its pages lie (virtual address, physical address, length); and
the entries (PARENT, SIZE) and log entries (ROOT, CHILD) that the engine's cache holds. -/
structure Forest where
  serial  : Nat
  ctx     : Nat
  base    : Nat
  log     : Nat
  n       : Nat
  cap     : Nat
  bySize  : Bool
  init    : Bool
  snap    : Bool
  classes : Nat
  lsize   : Nat
  lroot   : Nat
  unions  : Nat
  fill    : Nat
  fails   : Nat
  lastst  : Nat
  lastel  : Nat
  ls0     : Nat
  lr0     : Nat
  wild    : Option Nat := none
  segs    : List (Nat × Nat × Nat)
  entries : AMap (Nat × Nat)
  logs    : AMap (Nat × Nat)
  deriving DecidableEq, Repr

/-- A FAX sub-operation (R294) with its destination; an atomic may discard the old value. -/
inductive FaxOp where
  | ld (ty : LaneTy) (d : Nat)
  | ldg (d : Nat)
  | st (n : Nat)
  | unite (d : Nat)
  | find (d : Nat)
  | atomic (op : AtomOp) (ty : LaneTy) (d : Option Nat)
  deriving DecidableEq, Repr

/-- A CTX instruction and the operands that it read at its issue (R259): registers d by number,
context word, and count, layer, first position or item. -/
inductive CtxOp where
  | res (d c n : Nat)
  | pub (c l s k : Nat)
  | acq (d c l : Nat)
  | abn (d c s k : Nat)
  | stat (d c item : Nat)
  deriving DecidableEq, Repr

/-- What a request does when it is performed (R104, R153, R157, R169, R294, R240). -/
inductive ReqOp where
  /-- A lane load to d. -/
  | load (sp : Space) (ty : LaneTy) (d : Nat)
  /-- A lane store of `n` bytes. -/
  | store (sp : Space) (n : Nat)
  /-- A lane atomic. -/
  | atomic (sp : Space) (op : AtomOp) (ty : LaneTy) (d : Option Nat)
  /-- A cross-lane exchange, whose results are fixed at issue (R151). -/
  | cross
  /-- SLD, XLD, SPOP of a fragment. -/
  | sload (sp : Space) (d slot : Nat)
  /-- SST, XST, SPUSH. -/
  | sstore (sp : Space)
  /-- GATH to eight registers from d; `bad` lists the lanes that met uncorrectable granules. -/
  | gath (d : Nat) (bad : List (Nat × Nat))
  /-- SCAT. -/
  | scat
  /-- CPY or LXFER; EQREL. -/
  | copy (c : CopyCmd)
  /-- A scalar operation on a forest, its result going to S[d]. -/
  | eq (forest d : Nat) (op : EqOp)
  /-- UNITE and FIND. -/
  | unite (forest d : Nat)
  | find (forest d : Nat)
  /-- A pass of a FAX to a peer and window: its lanes packet by packet, and the lanes that received a
  negative response, with its reason (R289, R295, R297). -/
  | fax (peer win : Nat) (op : FaxOp) (pkts : List (List Nat)) (neg : List (Nat × Nat))
  /-- TOKSEND: the peer, the stream, the token, and the inbox's status once served (R277). -/
  | toksend (d peer stream : Nat) (token : Word) (st : Option Nat)
  /-- FMC: the multicast record that completes it (R300). -/
  | fmc (rec : Nat)
  deriving DecidableEq, Repr

/-- A request of a warp that has issued and not retired (R159): its path, what it does, the lane
accesses still to be performed, the results not yet landed, whether it has been performed, and the
run, token and trap level it issued with. -/
structure Req where
  id    : Nat
  path  : Path
  op    : ReqOp
  todo  : List LaneItem
  land  : List Land
  done  : Bool
  run   : Option Nat
  token : Nat
  lev   : Nat
  deriving DecidableEq, Repr

/-- Who has still to write a scalar register (R97): a request, or the instruction in which the fragment of an entry
of the split table waits. -/
inductive Writer where
  | req (id : Nat)
  | frag (slot : Nat)
  deriving DecidableEq, Repr

/-- What a fragment waits for (R111, R368). A waiting fragment's pc stays at the instruction. -/
inductive Wait where
  /-- Nothing: the fragment claims issue. -/
  | ready
  /-- The fusion at its innermost join (R110). -/
  | atJoin
  /-- The data of request `id` (R104, R105). -/
  | mem (id : Nat)
  /-- A run-queue entry (R112). -/
  | runQueue
  /-- Room on a path counter (R117). -/
  | room (p : Path)
  /-- LWAIT: the runs below `limit` that name a token of `mask` (R113). -/
  | runs (mask limit : Nat)
  /-- LPUT: the commit of the runs below `limit`; then V[v] of the lane S[a] names receives S[d]
  (R114). -/
  | lput (limit d a v : Nat)
  /-- PSET: the commit of the runs below `limit`; then P[p] receives S[a] (R115). -/
  | pset (limit a p : Nat)
  /-- WAITP: a path counter at most `n` (R116). -/
  | counter (p : Path) (n : Nat)
  /-- TRET: the runs enqueued at the level (R318). -/
  | levelRuns (lev : Nat)
  /-- SVC PAGEIN or NOTE (`note`): the supervisor's reply, whose status goes to S[d] (R322). -/
  | svc (d : Nat) (note : Bool)
  /-- CQPUT: a free entry of the stage queue; CQGET: an entry (R176). -/
  | stagePut
  | stageGet
  /-- CPY, LXFER: a place in the copy unit's command queue (R168). -/
  | command
  /-- The requests before `limit` to the `n` bytes on chip that the instruction reads at issue (R104, R170). -/
  | ordered (sp : Space) (x n limit : Nat)
  /-- CPYW: a non-zero STATUS in the slot; then S[d] receives its first word (R175). -/
  | cpyw (d : Nat) (sp : Space) (off : Nat)
  /-- THBIND, STBIND, SCOPESET: the requests before `limit` to the bytes read (R165, R187, R214). -/
  | thbind (d h x limit : Nat)
  | stbind (d k x limit : Nat)
  | scopeset (d k x limit : Nat)
  /-- SSAVE, SREST: the copies, GATHs and SCATs before `limit` on the same bytes (R323). -/
  | save (load : Bool) (va limit : Nat)
  /-- FENCE: the runs below `runs`, then the requests below `reqs` on the paths of the mask, for the agents of
  the scope, whose bitmap `set` it captured (R213, R218). -/
  | fence (scope set mask runs : Nat) (reqs : Option Nat)
  /-- BAR.WAIT or BAR.ARRWAIT (`arr`): the phase of barrier (team, off) to pass `phase` (R224). -/
  | barrier (d team off phase : Nat) (arr : Bool)
  /-- A fragment woken from a barrier with the result for S[d]. -/
  | woken (d : Nat) (v : Word)
  /-- MACQ: the grant (R193), whose status goes to S[d]. -/
  | macq (d : Nat)
  /-- A matrix instruction: room for an operation (R196). -/
  | matrixRoom
  /-- MWAIT: the operations of the batches up to `b` (R206). -/
  | mwait (b : Nat)
  /-- WAITV: the word to equal (`eq`) or differ from `v` (R228). -/
  | waitv (d : Nat) (sp : Space) (x : Nat) (v : Word) (eq : Bool)
  /-- CTX.PUB: the runs below `limit` to commit, before it leaves the core (R262); its number in the warp's
  issue order (R258). -/
  | ctxRuns (op : CtxOp) (limit seq : Nat)
  /-- A CTX instruction on its way to the home unit, numbered in the warp's issue order (R258). -/
  | ctx (op : CtxOp) (seq : Nat)
  /-- CTX.RES waiting at the home (R261); its position goes to S[d]. -/
  | ctxRes (d : Nat)
  /-- An instruction that has met a trap after its issue, which it takes once the executing run of its warp has
  ended (R260, R315). -/
  | trapping (cause tval : Nat) (write : Bool)
  /-- MASKWAIT: the word at x to equal `v` (R275). -/
  | maskwait (d x : Nat) (v : Word)
  /-- FQUIET: the runs below `runs` to commit, then FB to be zero (R303). -/
  | fquiet (runs : Nat)
  /-- FACK: the record (R302). -/
  | fack (rec : Nat)
  /-- FGRP: the 32 switch chips' answers (R299): the bitmap they are to hold, and the answers so far. -/
  | fgrp (d job group g : Nat) (acks : List (Nat × Bool))
  /-- FMC: the requests before `limit` to the line that it reads; its group word, source word, offset
  and length (R300). -/
  | fmc (d g src off len limit : Nat)
  /-- LAUNCH: one of the 4,096 places for accepted grids (R351). -/
  | grids
  deriving DecidableEq, Repr

/-- An arrival record (R223): the barrier's team and offset, and the phase of the arrival. -/
structure Arrival where
  team  : Nat
  off   : Nat
  phase : Nat
  deriving DecidableEq, Repr

/-- The mark of a fragment taken from the BAR.ARRWAIT at an address, while it ran at a trap level: it has
arrived (R227). -/
structure Mark where
  pc   : Word
  lev  : Nat
  arr  : Arrival
  deriving DecidableEq, Repr

/-- A fragment: an entry of the split table (R18, R111). `hlev` is the trap level whose handler it
runs, 0 outside handlers; `marks` are its marks, the last first (R227). DEDUCED: log 10. -/
structure Frag where
  mask  : Word
  pc    : Word
  joins : List Split
  hlev  : Nat
  wait  : Wait
  marks : List Mark := []
  deriving DecidableEq, Repr

/-- A multicast record (R300 to R302): its request; job, group, window, offset, length and line; the
chip that replicates it, once chosen; the members not yet answered and their number; the members that
stored it; the negatives; and whether it is complete. -/
structure MRec where
  req     : Nat
  job     : Nat
  group   : Nat
  win     : Nat
  off     : Nat
  len     : Nat
  line    : Nat
  chip    : Option Nat
  left    : List Nat
  members : Nat
  pos     : Nat
  neg     : List (Nat × Nat)
  done    : Bool
  deriving DecidableEq, Repr

/-- A write-back of a run that takes effect at its commit (R121). -/
inductive WriteBack where
  | vreg (lane r : Nat) (v : Word)
  | preg (lane p : Nat) (v : Bool)
  deriving DecidableEq, Repr

/-- The run that a warp executes (R119): its queue entry, the lanes that were live at its start, the
next instruction, the latches so far (one list of 32 values each), the write-backs and requests
collected, and the token once TRAIL has been reached (the run then holds for counter room, R117). -/
structure RunExec where
  entry : RunEntry
  live  : Word
  idx   : Nat
  latch : List (List DWord)
  wbs   : List WriteBack
  reqs  : List Req
  trail : Option Nat
  deriving DecidableEq, Repr

/-- A warp (R13, R54, R324): its place, its registers, its fragments, its run queue, its requests, its
system registers, its arrival records, and its matrix state: BATCH, the number of its MOPFs, an
unreported failure, the bytes of uncovered operations, the granules that the operand fetcher has read
ahead with the MOPF count at the time (R204), and a saved array; its multicast records (R300), the
number of its CTX instructions, and, by scalar register, the instructions that have issued and have still to
write it, in their order of issue (R97). `sregs` is keyed by register, `vregs` by 32 × register + lane, `preds` by
predicate with one bit a lane; none of them lists s0 or p0. -/
structure Warp where
  team     : Nat
  index    : Nat
  sregs    : SMap 32
  vregs    : SMap 32
  preds    : SMap 32
  nv       : Nat
  frags    : List (Option Frag)
  exited   : Word
  queue    : List RunEntry
  exec     : Option RunExec
  nextRun  : Nat
  reqs     : List Req
  nextReq  : Nat
  spill    : UMem
  spillLen : Nat
  sptr     : Word
  tvec     : Word
  tctl     : Word
  tlev     : Nat
  idem     : Bool
  mstat    : Word
  cych     : Word
  tsbase   : Word
  tsbaseh  : Word
  svch     : Word
  bank1    : Bank
  bank2    : Bank
  async    : List Pending
  laneTrap : Option Pending
  killed   : Bool
  ended    : Bool
  arrivals : List Arrival := []
  batch    : Nat := 0
  epoch    : Nat := 0
  mfail    : Option MFail := none
  mtouch   : List MTouch := []
  ahead    : List (Nat × Space × Nat × Nat) := []
  mimage   : Option MImage := none
  mrecs    : AMap MRec := []
  nextCtx  : Nat := 0
  owed     : AMap (List Writer) := []
  deriving DecidableEq, Repr

/-! ### Teams, grids and translation -/

/-- Where a team stands (R15, R325, R332, R352). -/
inductive TeamStatus where
  /-- Not yet placed on a core. -/
  | waiting
  /-- Resident on its core. -/
  | running
  /-- Pre-empted: its image is saved. -/
  | saved
  /-- Aborted by a translation fault of an idempotent launch, waiting for the supervisor. -/
  | aborted
  /-- Every warp has ended. -/
  | ended
  deriving DecidableEq, Repr

/-- A team (R15): its grid, its index in the grid, its core, its shared memory and allocation length
(R52), its warps, its tile handles (R165), stencil slots (R187) and stage queue (R176), and how often it has
been passed over since it waits to start again (R332, R352). -/
structure Team where
  grid   : Nat
  tx     : Nat
  ty     : Nat
  tz     : Nat
  status : TeamStatus
  core   : Nat
  shm    : Memory
  shLen  : Nat
  warps  : List Nat
  handles  : AMap TileBind := []
  stencils : AMap Stencil := []
  stage    : List Word := []
  told     : Bool := false
  passed   : Nat := 0
  deriving DecidableEq, Repr

/-- Where a grid stands (R350). -/
inductive GridStatus where
  /-- Handed to the distributor by LAUNCH, not yet accepted (R351). -/
  | offered
  /-- Accepted, its warps and children not all ended. -/
  | live
  /-- Retired, but for a completion update that failed (R370). -/
  | unsignalled
  /-- Retired, or cut off by a reset. -/
  | retired
  deriving DecidableEq, Repr

/-- A grid (R15, R52, R348): its context, its code section bases, its scratchpad region on each die
with the .const range, the argument block and the length, and its teams in index order; its queue, the
address of its top-level packet, and its parent (R351, R354); its dies, counts, warps per team, vector
registers, spill stack, shared image and allocation length, completion signal (R349), standing, the
number of its teams that have been placed and how often the others have been passed over (R352); until it is
accepted its descriptor's address and its arguments (R351), and a translation fault of its own (R370). A
grid without a queue is one that withFetchWord places. -/
structure Grid where
  asid    : Nat
  depth   : Nat
  scode   : Nat
  lcode   : Nat
  scr     : List Memory
  constLo : Nat
  constHi : Nat
  argOff  : Nat
  argLen  : Nat
  scrLen  : Nat
  nbhd    : Bool
  teams   : List Nat
  queue   : Option Nat := none
  packet  : Nat := 0
  parent  : Option Nat := none
  dies    : List Nat := []
  counts  : Nat := 0
  nwarps  : Nat := 1
  regs    : Nat := 64
  spill   : Nat := 0
  idem    : Bool := false
  shImg   : List Byte := []
  shLen   : Nat := 0
  sigVA   : Nat := 0
  sigVal  : Nat := 0
  status  : GridStatus := .live
  placed  : Nat := 0
  passed  : Nat := 0
  kdesc   : Nat := 0
  args    : List Byte := []
  xl      : Option Nat := none
  deriving DecidableEq, Repr

/-- The agents that translate addresses with a TLB of their own (R328). -/
inductive Agent where
  | core (n : Nat)
  | port (n : Nat)
  | hub
  | scanner (die : Nat)
  | ringmaster
  deriving DecidableEq, Repr

/-- A TLB entry (R328, R329): page base and size, its physical base, the leaf's rights, the gathered
A and D, and the physical address of the leaf entry. -/
structure TlbEntry where
  agent : Agent
  asid  : Nat
  va    : Nat
  size  : Nat
  pa    : Nat
  r     : Bool
  w     : Bool
  x     : Bool
  a     : Bool
  d     : Bool
  leaf  : Nat
  deriving DecidableEq, Repr

/-- An executable mapping (R69, R73): context, first address, length, kind, the tags (the word or
slot numbers that are starts), the recorded VHIGH, and its 64 KiB pages that have been unmapped since (R75). -/
structure ExecMap where
  asid   : Nat
  va     : Nat
  len    : Nat
  lane   : Bool
  starts : List Nat
  vhigh  : Nat
  gone   : List Nat := []
  deriving DecidableEq, Repr

/-- What the device reports to the supervisor. DESIGN CHOICE: log 5. -/
inductive ReportKind where
  /-- A fatal trap: warp, cause, TVAL, TMASK, both banks' TCAUSE, TRET, TVAL, TMASK (R319). -/
  | fatalTrap
  /-- SVC PAGEIN: warp, split-table entry, virtual address (R322). -/
  | pagein
  /-- SVC NOTE: warp, report word (R322). -/
  | note
  /-- A copy or transfer stopped at a translation fault: warp, request, cause, virtual address
  (R179). -/
  | copyFault
  /-- A handle fetch stopped at a translation fault: core, operation, cause, virtual address (R209). -/
  | fetchFault
  /-- A matrix failure that no MWAIT reported: warp, cause, TVAL (R209). -/
  | matrixFail
  /-- EQ.OPEN asks for pages: warp, request, forest, context, BASE, N, LOG, CAP (R235). -/
  | eqPin
  /-- An engine met an uncorrectable granule: forest, virtual address (R241). -/
  | eqUncorr
  /-- A translation fault aborted an idempotent team: team, cause, virtual address (R332). -/
  | idemFault
  /-- A queue fault: queue, reason, packet address (R354). -/
  | queueFault
  /-- A translation fault of a queue's packet, signal, descriptor, image or argument: queue, cause,
  virtual address (R370). -/
  | queueXlate
  /-- A translation fault of a child grid's acceptance, or of a grid's completion update: grid, cause, virtual
  address (R351, R370). -/
  | gridXlate
  /-- A translation fault of the hub copy engine: copy, cause, virtual address (R346). -/
  | hubXlate
  /-- A queue reset is complete: queue (R355). -/
  | resetDone
  /-- Uncorrectable context state: context number (R269). -/
  | ctxUncorr
  /-- Every warp of a team waits on its stage queue: team (R176). -/
  | stalledTeam
  /-- A late request: peer, SEQ (R305). -/
  | late
  /-- The key alarm of a port (R307). -/
  | keyAlarm
  /-- A scan report: context, page, KIND, REASON, OFFSET, VHIGH (R72). -/
  | scan
  /-- BOOTFAIL with the reason of each slot, on the management connector (R356). -/
  | bootFail
  /-- QUORUMRESET, on the management connector (R364). -/
  | quorumReset
  /-- A thermal warning (R366). -/
  | thermal
  deriving DecidableEq, Repr

/-- A report and its words, in the order its rule names them (log 5). -/
structure Report where
  kind : ReportKind
  data : List Nat
  deriving DecidableEq, Repr

/-! ### Context units (R253 to R269) -/

/-- A reservation waiting at the home (R261): its fragment, destination, count and queue. -/
structure CtxWaiter where
  w     : Nat
  slot  : Nat
  d     : Nat
  n     : Nat
  queue : Option Nat
  deriving DecidableEq, Repr

/-- An attention context (R254, R255): its record, NEXT, the frontiers, the positions of the window
that are PUB or ABN by 256 × position + layer, the reserving queues by position, the positions
abandoned, the waiting reservations in order, and the words that are uncorrectable (R269). -/
structure AttnCtx where
  asid      : Nat
  cap       : Nat
  layers    : Nat
  scope     : Nat
  user      : Nat
  next      : Nat
  frontier  : List Nat
  pub       : List Nat
  abn       : List Nat
  owners    : AMap (Option Nat)
  abandoned : Nat
  waiting   : List CtxWaiter
  bad       : List CtxWord
  deriving DecidableEq, Repr

/-- The registers of a command page: a command under way, the two arguments, and the result (R256,
R292, R331, R360). -/
structure CmdRegs where
  pending : Option Nat
  arg0    : Nat
  arg1    : Nat
  res     : Nat
  deriving DecidableEq, Repr

/-- Registers at reset. -/
def CmdRegs.zero : CmdRegs := { pending := none, arg0 := 0, arg1 := 0, res := 0 }

/-! ### The token inbox (R276) -/

/-- A bound stream: its ring, its peers as a bitmap, the last sequence written, whether WSEQ has still to be
written for it, the packet that is replied to then, and the warp of this device whose message it is. -/
structure Stream where
  grid  : Nat
  off   : Nat
  peers : Nat
  wseq  : Nat
  due   : Bool
  reply : Option PktHdr
  warp  : Option Nat := none
  deriving DecidableEq, Repr

/-! ### The fabric (R287 to R307) -/

/-- A peer window (R290). `past` lists the jobs that it was once exported to (R296); `revoking` while
a REVOKE is in progress (R291). -/
structure Window where
  base     : Nat
  lenm1    : Nat
  asid     : Nat
  job      : Nat
  forest   : Nat
  kind     : Nat
  ro       : Bool
  valid    : Bool
  past     : List Nat
  revoking : Bool
  deriving DecidableEq, Repr

/-- A fabric port (R288, R289, R292, R307): whether its link is up and its version; the next key as
written and whether its installation is asked for; the sending key's flit counter, alarm and stop. -/
structure Port where
  up      : Bool
  version : Nat
  keyNext : Nat
  want    : Bool
  key     : Nat
  counter : Nat
  alarm   : Bool
  stopped : Bool
  deriving DecidableEq, Repr

/-- A port at reset. -/
def Port.zero : Port :=
  { up := false, version := 0, keyNext := 0, want := false, key := 0, counter := 0, alarm := false,
    stopped := false }

/-- A multicast group of a job (R299): the table entry, and per switch chip the bitmap that it holds and
whether it acknowledged the last edit. -/
structure Group where
  entry : Nat
  chips : List (Nat × Bool)
  deriving DecidableEq, Repr

/-- A group that has never been edited: empty on every chip. -/
def Group.zero : Group := { entry := 0, chips := List.replicate 32 (0, true) }

/-- Whom a home answers (R296, R301): a warp's own request or record, or a peer's packet or line. -/
inductive HomeSrc where
  | own (w id : Nat)
  | ownLine (w rec : Nat)
  | peer (src queue rcnt : Nat)
  | peerLine (src queue rcnt group : Nat)
  deriving DecidableEq, Repr

/-- A packet that this device has accepted as a home and not answered (R296): the window, the
sub-operation, the lanes still to be performed with offset, data and new value, and the answers so
far: lane, reason and words. The lanes of a line are its granules, and `off` is the line's offset; `job` is the sender's.
`passed` counts the operations that have been served past it (R239, R298). -/
structure Home where
  id    : Nat
  src   : HomeSrc
  job   : Nat
  off   : Nat
  passed : Nat
  win   : Nat
  op    : FaxOp
  todo  : List (Nat × Nat × Nat × Nat)
  answers : List (Nat × Nat × List Word)
  deriving DecidableEq, Repr

/-- A packet of this device (R289): its KIND, DST and what its data flits carry; WIN, BLK div 256, MASK as a list and the
bytes of data; JOB, QUEUE, RCNT and SEQ; the port by which it has left, and VER; the warp and the request whose answer
acknowledges it, if it has one; whether it answers a packet; and whether it has been sent again (R288). -/
structure Sent where
  kind  : Nat
  dst   : Nat
  data  : List Nat
  win   : Nat := 0
  block : Nat := 0
  lanes : List Nat := []
  bytes : Nat := 0
  job   : Nat := 0
  queue : Nat := 0
  rcnt  : Nat := 0
  seq   : Nat := 0
  port  : Option Nat := none
  ver   : Nat := 0
  owner : Option (Nat × Nat) := none
  reply : Bool := false
  again : Bool := false
  deriving DecidableEq, Repr

/-! ### Queues and launch (R339 to R355) -/

/-- The states of a queue, in the order of their codes (R340). -/
inductive QState where
  | idle | running | waiting | halted | resetting
  deriving DecidableEq, Repr

/-- A fetched packet: its virtual address and its bytes as a number (R342, R347). -/
structure Packet where
  va : Nat
  x  : Nat
  deriving DecidableEq, Repr

/-- A queue (R339 to R347): its registers; the open buffers (next address, packets left), innermost
first; the prefetched packets; the address whose translation fault the supervisor has still to answer
(R370); and whether every TLB has set A and D for its HARVEST (R344). -/
structure Queue where
  base    : Nat
  size    : Nat
  prio    : Nat
  asid    : Nat
  enable  : Bool
  rptr    : Nat
  wptr    : Nat
  state   : QState
  reason  : Nat
  rcnt    : Nat
  unacked : List Nat
  fault   : Nat
  levels  : List (Nat × Nat)
  pre     : List Packet
  xlate   : Option Nat
  harvested : Bool
  deriving DecidableEq, Repr

/-- A queue at reset (R339). -/
def Queue.zero : Queue :=
  { base := 0, size := 4, prio := 0, asid := 0, enable := false, rptr := 0, wptr := 0, state := .idle,
    reason := 0, rcnt := 0, unacked := [], fault := 0, levels := [], pre := [], xlate := none,
    harvested := false }

/-- Where a hub copy stands (R346): running, waiting for the supervisor at a translation fault, or stopped by a
failure. -/
inductive HubStop where
  | running | asked | failed
  deriving DecidableEq, Repr

/-- A copy of the hub copy engine (R346): its queue, packet, ends, size, signal, the destination granules
written, by address div 32, where it stands, and whether its signal update has failed (R370); its place in the
engine's round, and the granules written of its block; the granules that it has taken up and not written, with their
physical address and source bytes; and the granule at which it fails. -/
structure HubCopy where
  queue  : Nat
  packet : Nat
  asid   : Nat
  dst    : Nat
  src    : Nat
  size   : Nat
  sigVA  : Nat
  sigVal : Nat
  done   : List Nat
  stop   : HubStop
  late   : Bool
  turn   : Nat
  moved  : Nat
  ready  : AMap (Nat × Nat) := []
  last   : Option Nat := none
  deriving DecidableEq, Repr

/-! ### The module (R356 to R366) -/

/-- An event counter of a core (R365): its source, if it is on, its count, and the context that selected it. -/
structure EvCounter where
  source : Option Nat
  count  : Nat
  asid   : Nat
  deriving DecidableEq, Repr

/-- A die's health block (R360): CECNT, UECNT, the error log and its overflow flag, the command
registers, TEMP as it was last measured, and the 16 DIEEV counters, of which the model counts one
(DESIGN CHOICE, log 29). -/
structure Health where
  cecnt : Nat
  uecnt : Nat
  elog  : List Nat
  lost  : Bool
  regs  : CmdRegs
  temp  : Nat
  dieev : List Nat
  deriving DecidableEq, Repr

/-- A health block at reset. -/
def Health.zero : Health :=
  { cecnt := 0, uecnt := 0, elog := [], lost := false, regs := CmdRegs.zero, temp := 0,
    dieev := List.replicate 16 0 }

/-- The management island (R356 to R364): the fused minimum version, the booted slot and its version,
the digests of the boot image, the firmware and EXTEND; IDKEY; the commands to be served by the die whose
block received them; the health key, the partners, those found silent, the epochs accepted, its own
message counter, the senders accepted within 2^22 ticks, the messages dropped; a recorded thermal trip; the
device number that link training gave; and whether the ringmaster's firmware is loaded. The fused minimum, the
key, the partners, the epochs, the counter and the device number outlive a reset. -/
structure Island where
  fusedMin : Nat
  booted   : Bool
  slot     : Nat
  version  : Nat
  digest   : Nat
  firmware : Nat
  extended : Nat
  idkey    : Nat
  commands : List Nat
  key      : Option Nat
  partners : List Nat
  silent   : List Nat
  epochs   : AMap Nat
  epoch    : Nat
  accepted : List Nat
  dropped  : Nat
  tripped  : Bool
  dev      : Nat
  loaded   : Bool
  deriving DecidableEq, Repr

/-- An island that has never been powered. -/
def Island.zero : Island :=
  { fusedMin := 0, booted := false, slot := 0, version := 0, digest := 0, firmware := 0, extended := 0,
    idkey := 0, commands := [], key := none, partners := [], silent := [], epochs := [], epoch := 0,
    accepted := [], dropped := 0, tripped := false, dev := 0, loaded := false }

/-! ### The device -/

/-- Which agent acts next (log 1): an event, the scalar stream of a fragment, or the run that a warp
executes. DESIGN CHOICE: log 1. -/
inductive Turn where
  | event (i : Instr)
  | scalar (w slot : Nat)
  | lane (w : Nat)
  deriving DecidableEq, Repr

/-- The state of the device: whose turn it is (log 1) and the executing fragment and run; the counter
of free values (log 2); the arbiters' order, and how often in a row each fragment has been passed over
(R111); the commands that each core's copy unit has advanced in its round (R168); the work; main memory and translation (R328); the
executable mappings (R73), and the scan requests submitted to each die and not yet ended (R69); the
supervisor's reports (log 5) and the last register word that it read; scopes (R213), arrays (R193),
forests (R232); contexts and command pages (R254, R256); the token inbox (R276); the fabric (R287 to
R307); the queues, the rounds of the ringmaster cores, the distributor's last queue per priority, and
the hub copies (R339 to R353); event counters and their grants, health and the island (R356 to R366). -/
structure State where
  agenda    : List Turn
  cur       : Nat × Nat
  laneCur   : Nat
  freeCount : Nat
  rr        : List (Nat × Nat)
  ages      : List ((Nat × Nat) × Nat)
  copyRounds : AMap (List (Nat × Nat))
  warps     : List Warp
  teams     : List Team
  grids     : List Grid
  main      : Memory
  roots     : AMap Nat
  tlb       : List TlbEntry
  execMaps  : List ExecMap
  scans     : List (Nat × ScanReq)
  reports   : List Report
  supRead   : Nat
  scopes    : AMap Nat
  arrays    : AMap MArray
  forests   : AMap Forest
  contexts  : AMap AttnCtx
  ctxUnits  : AMap CmdRegs
  ctxReports : AMap (List Nat)
  streams   : AMap Stream
  fabid     : Nat
  windows   : AMap Window
  winRegs   : CmdRegs
  latecyc   : Nat
  grpperm   : Nat
  laterep   : List Nat
  ports     : AMap Port
  peers     : AMap Nat
  groups    : AMap Group
  hints     : List (Nat × Nat)
  jobs      : AMap Nat
  jobPeers  : AMap (List Nat)
  notices   : AMap Nat
  homes     : List Home
  seqs      : List (Bool × Nat × Nat)
  seqOut    : AMap Nat
  sent      : List Sent
  unsent    : List Sent
  xlRegs    : CmdRegs
  queues    : AMap Queue
  hosts     : AMap Nat
  hostMem   : List (Nat × Nat × Nat)
  rounds    : AMap (List Nat)
  lastQueue : AMap Nat
  hubCopies : AMap HubCopy
  events    : AMap (List EvCounter)
  grants    : List (Nat × Nat)
  health    : AMap Health
  island    : Island
  deriving DecidableEq, Repr

/-- The machine right after reset: no work, nothing mapped, memory with nothing listed, every register
of the command pages at its reset value (R256, R290, R292, R339, R360). DESIGN CHOICE: log 3. -/
def State.reset : State :=
  { agenda := [], cur := (0, 0), laneCur := 0, freeCount := 0, rr := [], ages := [], copyRounds := [], warps := [], teams := [],
    grids := [], main := Memory.empty, roots := [], tlb := [], execMaps := [], scans := [], reports := [],
    supRead := 0, scopes := [], arrays := [], forests := [], contexts := [], ctxUnits := [],
    ctxReports := [], streams := [], fabid := 0, windows := [], winRegs := CmdRegs.zero,
    latecyc := 2 ^ 24, grpperm := 0, laterep := [], ports := [], peers := [], groups := [], hints := [], jobs := [],
    jobPeers := [], notices := [], homes := [], seqs := [], seqOut := [], sent := [], unsent := [],
    xlRegs := CmdRegs.zero, queues := [], hosts := [], hostMem := [], rounds := [], lastQueue := [], hubCopies := [],
    events := [], grants := [], health := [],
    island := Island.zero }

end Sys2Proof.Machine
end

