-- ==== Sys2Proof/Machine/Barrier.lean ====
section
/-! DEFINITION. The health blocks' error counts (R358), which every access may raise; and barrier objects (R222): their fields
in eight bytes of shared memory, and what the BAR instructions and copies do to one (R224, R226). -/
namespace Sys2Proof.Machine

/-! ### Uncorrectable data (R358) -/

/-- The die of a core (R11). -/
def dieOf (core : Nat) : Nat := core / 80

/-- The health block of a die. -/
def State.healthOf (s : State) (die : Nat) : Health := (AMap.get? s.health die).getD Health.zero

/-- A health block changed. -/
def State.onHealth (s : State) (die : Nat) (f : Health → Health) : State :=
  { s with health := AMap.set s.health die (f (State.healthOf s die)) }

/-- An uncorrectable error of a die counted, and the address of its granule logged if it has one. -/
def State.countBad (s : State) (die : Nat) (addr : Option Nat) : State :=
  State.onHealth s die fun h =>
    let h := { h with uecnt := Min.min (h.uecnt + 1) 0xFFFFFFFF }
    match addr with
    | none => h
    | some a => if h.elog.length < 64 then { h with elog := h.elog ++ [a] } else { h with lost := true }

/-- An uncorrectable word of main memory counted at the die that holds it. -/
def State.countMain (s : State) (pa : Nat) : State :=
  State.countBad s (Config.dieOfAddr pa).val (some (pa / 32 * 32))

/-- The die of a team's core. -/
def State.dieOfTeam (s : State) (t : Nat) : Nat :=
  match s.teams[t]? with
  | some T => dieOf T.core
  | none => 0

/-! ### Barrier objects -/

/-- The fields of a barrier object (R222). -/
structure Bar where
  count   : Nat
  arrived : Nat
  pend    : Nat
  waiters : Nat
  phase   : Nat
  inv     : Bool
  deriving DecidableEq, Repr

/-- The object that eight bytes hold. -/
def Bar.ofNat (x : Nat) : Bar :=
  { count := bits x 63 50, arrived := bits x 49 36, pend := bits x 35 24, waiters := bits x 23 12,
    phase := bits x 11 2, inv := bits x 1 1 = 1 }

/-- The eight bytes of an object; the reserved bit is zero. -/
def Bar.toNat (b : Bar) : Nat :=
  b.count % 2 ^ 14 * 2 ^ 50 + b.arrived % 2 ^ 14 * 2 ^ 36 + b.pend % 2 ^ 12 * 2 ^ 24 +
    b.waiters % 2 ^ 12 * 2 ^ 12 + b.phase % 2 ^ 10 * 2 ^ 2 + (if b.inv then 2 else 0)

/-- One arrival (R224): the object after it, and whether it completed the phase. -/
def Bar.arrive (b : Bar) : Bar × Bool :=
  if b.arrived + 1 = b.count then
    ({ b with arrived := 0, phase := (b.phase + 1) % 1024, waiters := 0 }, true)
  else ({ b with arrived := b.arrived + 1 }, false)

/-- PEND lowered by an arriving copy, not below zero (R226). -/
def Bar.unpend (b : Bar) : Bar := { b with pend := b.pend - 1 }

/-- Whether a copy's arrival is dropped (R226). -/
def Bar.dropped (b : Bar) : Bool := b.inv || b.count = 0

/-- The object in a team's shared memory. -/
def State.bar (s : State) (t off : Nat) : Bar :=
  match s.teams[t]? with
  | some T => Bar.ofNat (Memory.read T.shm off 8)
  | none => Bar.ofNat 0

/-- The object in a team's shared memory replaced. -/
def State.setBar (s : State) (t off : Nat) (b : Bar) : State :=
  { s with teams := s.teams.modify t fun T => { T with shm := Memory.write T.shm off 8 (Bar.toNat b) } }

/-- The object with undefined bytes in place of uncorrectable ones, which are never delivered (R25); the
action on it completes (R9); it counts them (R358). DESIGN CHOICE: log 14. -/
def State.mendBar (s : State) (t off : Nat) : State :=
  match s.teams[t]? with
  | none => s
  | some T =>
    if Memory.uncorrectable T.shm off 8 then
      let v := (List.range 8).foldl (fun v i => v + (Config.freeByte (s.freeCount + i)).toNat * 256 ^ i) 0
      State.countBad { s with freeCount := s.freeCount + 8,
                              teams := s.teams.modify t fun T => { T with shm := Memory.write T.shm off 8 v } }
        (State.dieOfTeam s t) none
    else s

/-- A status word of the BAR instructions (R224). -/
def barStatus (status phase : Nat) : Word := word (status + phase * 2 ^ 8)

/-- The arrival record of a warp for an object, if any (R223). -/
def Warp.arrival? (W : Warp) (t off : Nat) : Option Arrival :=
  W.arrivals.find? fun a => a.team = t && a.off = off

/-- The record for an object freed (R223). -/
def Warp.freeArrival (W : Warp) (t off : Nat) : Warp :=
  { W with arrivals := W.arrivals.filter fun a => !(a.team = t && a.off = off) }

/-- Whether a fragment sleeps on an object. -/
def Frag.sleepsOn (f : Frag) (t off : Nat) : Bool :=
  match f.wait with
  | .barrier _ t' off' _ _ => t' = t && off' = off
  | _ => false

/-- Whether a fragment of the warp sleeps on an object. -/
def Warp.sleepsOn (W : Warp) (t off : Nat) : Bool :=
  W.frags.any fun f => match f with
    | some f => Frag.sleepsOn f t off
    | none => false

/-- A fragment woken from an object with a status, its own phase reported (R224). -/
def Frag.wakeFrom (t off status : Nat) (f : Frag) : Frag :=
  match f.wait with
  | .barrier d t' off' p _ =>
    if t' = t && off' = off then { f with wait := .woken d (barStatus status p) } else f
  | _ => f

/-- Whether a fragment sleeps on an object on its arrival record. -/
def Frag.holdsRecord (f : Frag) (t off : Nat) : Bool :=
  match f.wait with
  | .barrier _ t' off' _ arr => t' = t && off' = off && !arr
  | _ => false

/-- The warp after an object's waiters are woken: its sleepers are, and a BAR.WAIT's record is free
(R224). -/
def Warp.wakeFrom (t off status : Nat) (W : Warp) : Warp :=
  let used := W.frags.any fun f => match f with
    | some f => Frag.holdsRecord f t off
    | none => false
  let W := if used then Warp.freeArrival W t off else W
  { W with frags := W.frags.map (Option.map (Frag.wakeFrom t off status)) }

/-- Every waiter of an object woken with a status. -/
def State.wakeBar (s : State) (t off status : Nat) : State :=
  { s with warps := s.warps.map (Warp.wakeFrom t off status) }

/-- An arrival at an object: it is counted, and a completed phase wakes the waiters with OK (R224). -/
def State.arriveBar (s : State) (t off : Nat) : State :=
  let (b, full) := Bar.arrive (State.bar s t off)
  let s := State.setBar s t off b
  if full then State.wakeBar s t off 0 else s

/-- WAITERS lowered for a warp whose only sleeping fragment is taken away (R227). -/
def State.lowerWaiters (s : State) (W : Warp) (slot t off : Nat) : State :=
  if Warp.sleepsOn { W with frags := W.frags.set slot none } t off then s
  else
    let s := State.mendBar s t off
    let b := State.bar s t off
    State.setBar s t off { b with waiters := b.waiters - 1 }

/-- An array without a fragment's place in its owner queue, and without a first grant of a pair that
was not completed (R193, R368). -/
def MArray.leave (w slot : Nat) (a : MArray) : MArray :=
  { a with waiters := a.waiters.filter fun m => !(m.w = w && m.slot = slot && !m.resume),
           hold := match a.hold with
             | some h => if h.w = w && !h.ready then none else some h
             | none => none }

/-- The fragment of an entry leaves what it waits in (R267, R368): WAITERS is lowered, a place in an
owner queue is given up, a waiting reservation is withdrawn. -/
def State.leaveWait (s : State) (w : Nat) (W : Warp) (slot : Nat) : State :=
  match (W.frags[slot]?).join with
  | none => s
  | some f =>
    match f.wait with
    | .barrier _ t off _ _ => State.lowerWaiters s W slot t off
    | .ctxRes _ =>
      { s with contexts := s.contexts.map fun e =>
          (e.1, { e.2 with waiting := e.2.waiting.filter fun x => !(x.w = w && x.slot = slot) }) }
    | .macq _ => { s with arrays := s.arrays.map fun e => (e.1, MArray.leave w slot e.2) }
    | _ => s

end Sys2Proof.Machine
end

