-- ==== Sys2Proof/Machine/Ops.lean ====
section
/-! DEFINITION. The operations over registers, fragments, runs, local memory and traps that every
meaning is built from. -/
namespace Sys2Proof.Machine

/-! ### Records of State by number -/

/-- The warp of a number. -/
def State.warp? (s : State) (w : Nat) : Option Warp := s.warps[w]?

/-- State with one warp replaced. -/
def State.setWarp (s : State) (w : Nat) (W : Warp) : State := { s with warps := s.warps.set w W }

/-- State with one warp changed. -/
def State.onWarp (s : State) (w : Nat) (f : Warp → Warp) : State :=
  { s with warps := s.warps.modify w f }

/-- State with one team changed. -/
def State.onTeam (s : State) (t : Nat) (f : Team → Team) : State :=
  { s with teams := s.teams.modify t f }

/-- State with one grid changed. -/
def State.onGrid (s : State) (g : Nat) (f : Grid → Grid) : State :=
  { s with grids := s.grids.modify g f }

/-- A report to the supervisor appended (log 5). -/
def State.report (s : State) (k : ReportKind) (data : List Nat) : State :=
  { s with reports := s.reports ++ [⟨k, data⟩] }

/-- The team of a warp. -/
def State.teamOf? (s : State) (W : Warp) : Option Team := s.teams[W.team]?

/-- The grid of a warp. -/
def State.gridOf? (s : State) (W : Warp) : Option Grid :=
  (s.teams[W.team]?).bind fun t => s.grids[t.grid]?

/-- The core that a warp's team occupies. -/
def State.coreOf (s : State) (W : Warp) : Nat :=
  match s.teamOf? W with
  | some t => t.core
  | none => 0

/-- The execution context of a warp (R212, R328). -/
def State.asidOf (s : State) (W : Warp) : Nat :=
  match s.gridOf? W with
  | some g => g.asid
  | none => 0

/-- An event of a core counted by the counters that select its source (R365). -/
def State.tick (s : State) (core source : Nat) : State :=
  match AMap.get? s.events core with
  | none => s
  | some cs =>
    let cs := cs.map fun c =>
      if c.source = some source then { c with count := (c.count + 1) % 2 ^ 48 } else c
    { s with events := AMap.set s.events core cs }

/-! ### Queues and their faults (R354) -/

/-- A queue of the device. -/
def State.queue (s : State) (q : Nat) : Queue := (AMap.get? s.queues q).getD Queue.zero

/-- A queue changed. -/
def State.onQueue (s : State) (q : Nat) (f : Queue → Queue) : State :=
  { s with queues := AMap.set s.queues q (f (State.queue s q)) }

/-- A queue fault (R354): the queue halts with its reason and the packet's address, and the supervisor
is told; one that has halted already takes the new reason. A queue that is being reset stays as it is.
DEDUCED: log 46. -/
def State.haltQueue (s : State) (q reason va : Nat) : State :=
  let Q := State.queue s q
  if Q.state = .resetting then s
  else State.report (State.onQueue s q fun Q => { Q with state := .halted, reason := reason, fault := va })
    .queueFault [q, reason, va]

/-- A fault that a warp raises in its queue, named by the packet of its top-level grid (R354). -/
def State.haltWarp (s : State) (W : Warp) (reason : Nat) : State :=
  match State.gridOf? s W with
  | none => s
  | some g =>
    match g.queue with
    | some q => State.haltQueue s q reason g.packet
    | none => s

/-! ### Registers -/

/-- A scalar register; s0 reads zero (R56, R101). -/
def Warp.s (W : Warp) (r : Nat) : Word := if r = 0 then 0 else SMap.get W.sregs r

/-- A scalar register written by an instruction that issues; a write to s0 is discarded (R101). Whatever issued
before and has still to write the register is overtaken: the writes of a register take effect in issue order
(R97). -/
def Warp.setS (W : Warp) (r : Nat) (v : Word) : Warp :=
  if r = 0 then W else { W with sregs := SMap.set W.sregs r v, owed := AMap.erase W.owed r }

/-- The writers that have still to write a register, in their order of issue. -/
def Warp.writers (W : Warp) (r : Nat) : List Writer := (AMap.get? W.owed r).getD []

/-- The writers of a register replaced. -/
def Warp.setWriters (W : Warp) (r : Nat) (l : List Writer) : Warp :=
  { W with owed := if l.isEmpty then AMap.erase W.owed r else AMap.set W.owed r l }

/-- An instruction issues that will write registers later: each is its to write, until a later instruction writes it
(R97). -/
def Warp.owe (W : Warp) (x : Writer) (rs : List Nat) : Warp :=
  rs.foldl (fun W r => if r = 0 then W else
    Warp.setWriters W r ((Warp.writers W r).filter (fun y => y != x) ++ [x])) W

/-- A register's value comes from an instruction that issued earlier: it is written unless an instruction that issued
later has written the register, and what issued before it is overtaken (R97). -/
def Warp.landS (W : Warp) (x : Writer) (r : Nat) (v : Word) : Warp :=
  if (Warp.writers W r).contains x then
    Warp.setWriters { W with sregs := SMap.set W.sregs r v } r
      (((Warp.writers W r).dropWhile fun y => y != x).drop 1)
  else W

/-- Consecutive registers written so. -/
def Warp.landGroup (W : Warp) (x : Writer) (r : Nat) : List Word → Warp
  | [] => W
  | v :: vs => Warp.landGroup (Warp.landS W x r v) x (r + 1) vs

/-- A writer that will not write after all. -/
def Warp.disown (W : Warp) (x : Writer) : Warp :=
  { W with owed := W.owed.filterMap fun e =>
      let l := e.2.filter fun y => y != x
      if l.isEmpty then none else some (e.1, l) }

/-- Consecutive scalar registers from `r` written from a list (a group, R58). -/
def Warp.setGroup (W : Warp) (r : Nat) : List Word → Warp
  | [] => W
  | v :: vs => Warp.setGroup (Warp.setS W r v) (r + 1) vs

/-- The key of a vector register's lane. -/
def vKey (r lane : Nat) : Nat := 32 * r + lane

/-- A lane of a vector register. -/
def Warp.v (W : Warp) (r lane : Nat) : Word := SMap.get W.vregs (vKey r lane)

/-- A lane of a vector register written. -/
def Warp.setV (W : Warp) (r lane : Nat) (x : Word) : Warp :=
  { W with vregs := SMap.set W.vregs (vKey r lane) x }

/-- A predicate as a lane mask; p0 reads true in every lane (R54, R115). -/
def Warp.p (W : Warp) (n : Nat) : Word := if n = 0 then BitVec.allOnes 32 else SMap.get W.preds n

/-- A predicate written as a lane mask; p0 is never a destination (R115). -/
def Warp.setP (W : Warp) (n : Nat) (m : Word) : Warp :=
  if n = 0 then W else { W with preds := SMap.set W.preds n m }

/-- A mask with one bit set or cleared. -/
def setBit (m : Word) (i : Nat) (b : Bool) : Word :=
  if b then m ||| BitVec.twoPow 32 i else m &&& ~~~(BitVec.twoPow 32 i)

/-- The lanes 0 to 31. -/
def lanes : List Nat := List.range 32

/-- The mask of the lanes that satisfy a condition. -/
def maskOf (f : Nat → Bool) : Word := lanes.foldl (fun m i => if f i then setBit m i true else m) 0

/-- The lowest lane of a mask, if any. -/
def lowestLane (m : Word) : Option Nat := lanes.find? fun i => m.getLsbD i

/-! ### Fragments and the split table (R109 to R111) -/

/-- The fragment in an entry of the split table. -/
def Warp.frag? (W : Warp) (slot : Nat) : Option Frag := (W.frags[slot]?).join

/-- An entry of the split table replaced. -/
def Warp.setFrag (W : Warp) (slot : Nat) (f : Option Frag) : Warp :=
  { W with frags := W.frags.set slot f }

/-- A fragment changed in place. -/
def Warp.onFrag (W : Warp) (slot : Nat) (g : Frag → Frag) : Warp :=
  { W with frags := W.frags.modify slot (Option.map g) }

/-- The live fragments with their entries, lowest entry first. -/
def Warp.live (W : Warp) : List (Nat × Frag) :=
  (List.range 32).filterMap fun i => (Warp.frag? W i).map fun f => (i, f)

/-- The lowest free entry of the split table (R109). -/
def Warp.freeSlot (W : Warp) : Option Nat :=
  (List.range 32).find? fun i => (Warp.frag? W i).isNone

/-- The fragments waiting at a join of an innermost split (R110). -/
def Warp.waitingAt (W : Warp) (sp : Split) : List (Nat × Frag) :=
  (Warp.live W).filter fun e => e.2.wait = .atJoin && e.2.joins.head? = some sp

/-- The fusion of the fragments waiting at a split, when they and the exited lanes make up its
origin mask (R110): the lowest entry among theirs receives the fused fragment, with that entry's place in the
round-robin order. DESIGN CHOICE: log 90. -/
def Warp.fusion (W : Warp) (sp : Split) : Option (Nat × Warp) :=
  match Warp.waitingAt W sp with
  | [] => none
  | (lo, f) :: rest =>
    let union := rest.foldl (fun m e => m ||| e.2.mask) f.mask
    if union ||| (W.exited &&& sp.origin) = sp.origin then
      let W1 := rest.foldl (fun W e => Warp.setFrag W e.1 none) W
      some (lo, Warp.setFrag W1 lo
        (some { f with mask := union, joins := f.joins.tail, pc := sp.join, wait := .ready }))
    else none

/-- A fragment that is about to execute the instruction at its pc: at the join address of its
innermost split it waits, and the split fuses when it can (R110). A fused fragment that stands at
the join of the next split waits there in turn. -/
def Warp.settle : Nat → Warp → Nat → Warp
  | 0, W, _ => W
  | n + 1, W, slot =>
    match Warp.frag? W slot with
    | none => W
    | some f =>
      match f.joins with
      | [] => W
      | sp :: _ =>
        if sp.join = f.pc then
          let W1 := Warp.setFrag W slot (some { f with wait := .atJoin })
          match Warp.fusion W1 sp with
          | some (lo, W2) => Warp.settle n W2 lo
          | none => W1
        else W

/-- A fragment ready at a new pc, waiting there if it is its join (R110). -/
def Warp.arrive (W : Warp) (slot : Nat) (pc : Word) : Warp :=
  match Warp.frag? W slot with
  | none => W
  | some f =>
    Warp.settle (f.joins.length + 1) (Warp.setFrag W slot (some { f with pc := pc, wait := .ready }))
      slot

/-- The splits whose fragments wait, tried for fusion after lanes have exited (R107, R110). -/
def Warp.fuseAll (W : Warp) : Warp :=
  (List.range 32).foldl (fun W i =>
    match Warp.frag? W i with
    | some f =>
      if f.wait = .atJoin then Warp.arrive W i f.pc else W
    | none => W) W

/-- Whether a fragment may issue: it is ready, and no handler of a higher level runs in another
fragment (R111, R118). -/
def Frag.issuable (f : Frag) (W : Warp) : Bool := f.wait = .ready && W.tlev ≤ f.hlev

/-! ### The executing fragment -/

/-- The fragment that executes a scalar instruction, with its warp. -/
structure Ctx where
  w    : Nat
  slot : Nat
  warp : Warp
  frag : Frag

/-- The executing fragment that State.cur names. -/
def State.ctx? (s : State) : Option Ctx :=
  (State.warp? s s.cur.1).bind fun W =>
    (Warp.frag? W s.cur.2).map fun f => ⟨s.cur.1, s.cur.2, W, f⟩

/-- A fragment as it executes its instruction: it waits in none. -/
def Ctx.issuing (c : Ctx) : Ctx := { c with frag := { c.frag with wait := .ready } }

/-- A scalar meaning over the executing fragment; without one, a refusal that step never meets. -/
def withFrag (s : State) (k : Ctx → Out State) : Out State :=
  match State.ctx? s with
  | some c => k (Ctx.issuing c)
  | none => .refused .noFragment

/-- The executing fragment's warp changed. -/
def Ctx.on (c : Ctx) (s : State) (f : Warp → Warp) : State := State.onWarp s c.w f

/-- The instruction of `n` words completes: the fragment is at the next one (R97). -/
def Ctx.advance (c : Ctx) (n : Nat) (s : State) : State :=
  Ctx.on c s fun W => Warp.arrive W c.slot (c.frag.pc + word (4 * n))

/-- An instruction of one word that writes a scalar register and completes. -/
def Ctx.result (c : Ctx) (d : Nat) (v : Word) (s : State) : Out State :=
  .next (Ctx.advance c 1 (Ctx.on c s fun W => Warp.setS W d v))

/-- The scalar registers that a CTX instruction writes (R259). -/
def CtxOp.dests : CtxOp → List Nat
  | .res d _ _ => [d]
  | .pub _ _ _ _ => []
  | .acq d _ _ => [d, d + 1, d + 2]
  | .abn d _ _ _ => [d]
  | .stat d _ _ => [d]

/-- The scalar registers that an instruction has still to write while its fragment waits in it. -/
def Wait.dests : Wait → List Nat
  | .ready => []
  | .atJoin => []
  | .mem _ => []
  | .runQueue => []
  | .room _ => []
  | .runs _ _ => []
  | .lput _ _ _ _ => []
  | .pset _ _ _ => []
  | .counter _ _ => []
  | .levelRuns _ => []
  | .svc d _ => [d]
  | .stagePut => []
  | .stageGet => []
  | .command => []
  | .ordered _ _ _ _ => []
  | .cpyw d _ _ => [d]
  | .thbind d _ _ _ => [d]
  | .stbind d _ _ _ => [d]
  | .scopeset d _ _ _ => [d]
  | .save load _ _ => if load then (List.range 127).map (· + 1) else []
  | .fence _ _ _ _ _ => []
  | .barrier d _ _ _ _ => [d]
  | .woken d _ => [d]
  | .macq d => [d]
  | .matrixRoom => []
  | .mwait _ => []
  | .waitv d _ _ _ _ => [d]
  | .ctxRuns op _ _ => CtxOp.dests op
  | .ctx op _ => CtxOp.dests op
  | .ctxRes d => [d]
  | .trapping _ _ _ => []
  | .maskwait d _ _ => [d]
  | .fquiet _ => []
  | .fack _ => []
  | .fgrp d _ _ _ _ => [d]
  | .fmc d _ _ _ _ _ => [d]
  | .grids => []

/-- The fragment of an entry waits at its instruction (R111). The registers that the instruction will write are its to
write from its issue on (R97), which is when it first waits with them. -/
def Warp.await (W : Warp) (slot : Nat) (k : Wait) : Warp :=
  match Warp.frag? W slot with
  | none => W
  | some f =>
    Warp.onFrag (if (Wait.dests f.wait).isEmpty then Warp.owe W (.frag slot) (Wait.dests k) else W) slot
      fun f => { f with wait := k }

/-- Whether a warp waits on its team's stage queue in one way: each of its fragments does, or waits at its join for one
that does (R110, R176). -/
def Warp.stuck (W : Warp) (k : Wait) : Bool :=
  ((Warp.live W).any fun e => e.2.wait = k) && (Warp.live W).all fun e => e.2.wait = k || e.2.wait = .atJoin

/-- Whether every warp of a team that has not ended waits on its stage queue while it is full, or while it is empty, and
some does (R176). -/
def State.stalled (s : State) (T : Team) : Bool :=
  let all (k : Wait) : Bool :=
    (T.warps.all fun w => (State.warp? s w).all fun W => W.ended || Warp.stuck W k) &&
    T.warps.any fun w => (State.warp? s w).any fun W => !W.ended
  (16 ≤ T.stage.length && all .stagePut) || (T.stage.isEmpty && all .stageGet)

/-- The report of a team that has become stalled (R176): as a fragment begins to wait, as one is found at its join, as one
exits or as a warp ends. No rule says how: to the supervisor, once until the queue changes. DESIGN CHOICE: log 93. -/
def State.reportStall (s : State) (t : Nat) : State :=
  match s.teams[t]? with
  | none => s
  | some T =>
    if State.stalled s T && !T.told then State.report (State.onTeam s t fun T => { T with told := true }) .stalledTeam [t]
    else s

/-- The fragment begins a wait at its instruction (R111), or goes on waiting. -/
def Ctx.wait (c : Ctx) (k : Wait) (s : State) : Out State :=
  .next (Ctx.on c s fun W => Warp.await W c.slot k)

/-- An instruction writes consecutive scalar registers from d: one that waited has issued before, and a later
instruction may have overtaken it (R97). -/
def Ctx.writes (c : Ctx) (d : Nat) (vs : List Word) (W : Warp) : Warp :=
  if (Wait.dests c.frag.wait).isEmpty then Warp.setGroup W d vs else Warp.landGroup W (.frag c.slot) d vs

/-- A waiting fragment whose instruction issues again, with all its checks; it has still to write nothing. -/
def Ctx.reissue (c : Ctx) (s : State) : State :=
  Ctx.on c s fun W => Warp.onFrag (Warp.disown W (.frag c.slot)) c.slot fun f => { f with wait := .ready }

/-- An instruction of one word, which may have waited, writes a scalar register and completes. -/
def Ctx.answer (c : Ctx) (d : Nat) (v : Word) (s : State) : Out State :=
  .next (Ctx.advance c 1 (Ctx.on c s (Ctx.writes c d [v])))

/-! ### Path counters (R22, R117, R159) -/

/-- The token that a run's TRAIL names (R126). -/
def RunEntry.token (e : RunEntry) : Nat :=
  match e.code.getLast? with
  | some c => bits c.w1 2 0
  | none => 0


/-- The warp's counter on a path: the requests on it that have issued and not retired. -/
def Warp.counter (W : Warp) (p : Path) : Nat := (W.reqs.filter fun r => r.path = p).length

/-- Requests that have been performed retire once every earlier one of their path has (R159). -/
def retireReqs : List Req → List Path → List Req
  | [], _ => []
  | r :: rest, held =>
    if r.done && !held.contains r.path then retireReqs rest held
    else r :: retireReqs rest (r.path :: held)

/-- A cause code, class in [9:6] and detail in [5:0] (R313). -/
def causeCode (cls detail : Nat) : Nat := cls * 64 + detail

/-- A pending asynchronous trap added, in the issue order of requests (R316). -/
def insertPending (p : Pending) : List Pending → List Pending
  | [] => [p]
  | q :: rest => if p.id < q.id then p :: q :: rest else q :: insertPending p rest

/-- The mask of a list of lanes. -/
def maskOfList (ls : List Nat) : Word := maskOf ls.contains

/-- The lowest lane of a list of lanes with what belongs to it. -/
def lowestOf : List (Nat × Nat) → Option (Nat × Nat)
  | [] => none
  | x :: rest =>
    match lowestOf rest with
    | none => some x
    | some y => if y.1 < x.1 then some y else some x

/-- The trap that a request raises as it retires (R315): MEMUNC of a GATH that met uncorrectable
granules (R169), or FXNACK of a FAX with negative lanes (R297), its TVAL from the lowest of them. -/
def Req.failure (r : Req) : Option Pending :=
  let trap (cause tval : Nat) (ls : List (Nat × Nat)) : Pending :=
    { id := r.id, token := some r.token, cause := cause, mask := maskOfList (ls.map (·.1)),
      tval := BitVec.ofNat 64 tval, write := false, lev := r.lev, run := none }
  match r.op with
  | .gath _ bad => (lowestOf bad).map fun x => trap (causeCode 4 4) x.2 bad
  | .fax peer win _ _ neg =>
    (lowestOf neg).map fun x => trap (causeCode 9 0) (x.2 * 2 ^ 24 + win * 2 ^ 16 + peer) neg
  | _ => none

/-- A request of the warp replaced; what can retire then retires, and a retired request's trap is
pending (R159, R315). -/
def Warp.setReq (W : Warp) (r : Req) : Warp :=
  let reqs := W.reqs.map fun q => if q.id = r.id then r else q
  let kept := retireReqs reqs []
  let gone := reqs.filter fun q => !kept.any fun k => k.id = q.id
  { W with reqs := kept,
           async := gone.foldl (fun a q => match Req.failure q with
             | some p => insertPending p a
             | none => a) W.async }

/-- A request of the warp by number. -/
def Warp.req? (W : Warp) (id : Nat) : Option Req := W.reqs.find? fun r => r.id = id

/-- A request issues, numbered after the earlier ones. -/
def Warp.issue (W : Warp) (r : Req) : Warp :=
  { W with reqs := W.reqs ++ [{ r with id := W.nextReq }], nextReq := W.nextReq + 1 }

/-- Whether a path has room for `n` more requests (R117). -/
def Warp.room (W : Warp) (p : Path) (n : Nat) : Bool := Warp.counter W p + n ≤ 4095

/-- Whether a request writes results to registers as it lands (R28, R63, R122): an atomic whose old value
is discarded does not. -/
def ReqOp.returns : ReqOp → Bool
  | .load _ _ _ => true
  | .atomic _ _ _ d => d.isSome
  | .cross => true
  | .store _ _ => false
  | .sload _ _ _ => true
  | .sstore _ => false
  | .gath _ _ => true
  | .scat => false
  | .copy _ => false
  | .eq _ _ _ => false
  | .unite _ _ => true
  | .find _ _ => true
  | .fax _ _ op _ _ =>
    match op with
    | .ld _ _ => true
    | .ldg _ => true
    | .st _ => false
    | .unite _ => true
    | .find _ => true
    | .atomic _ _ d => d.isSome
  | .toksend _ _ _ _ _ => false
  | .fmc _ => false

/-- The scalar registers that a request writes: of SLD, XLD and SPOP, of the EQ instructions, of TOKSEND (R103, R234,
R277). -/
def ReqOp.sdests : ReqOp → List Nat
  | .load _ _ _ => []
  | .store _ _ => []
  | .atomic _ _ _ _ => []
  | .cross => []
  | .sload _ d _ => [d]
  | .sstore _ => []
  | .gath _ _ => []
  | .scat => []
  | .copy _ => []
  | .eq _ d op =>
    match op with
    | .open_ _ _ _ => [d]
    | .close => [d]
    | .snap => [d]
    | .undo => [d]
    | .keep => [d]
    | .stat _ => [d, d + 1, d + 2, d + 3]
  | .unite _ _ => []
  | .find _ _ => []
  | .fax _ _ _ _ _ => []
  | .toksend d _ _ _ _ => [d]
  | .fmc _ => []

/-- A request of a fragment issues; the registers that it writes are its to write (R97). -/
def Warp.ask (W : Warp) (r : Req) : Warp :=
  Warp.issue (Warp.owe W (.req W.nextReq) (ReqOp.sdests r.op)) r

/-- Whether a request's long-latency results are still outstanding (R28, R122): one that has failed holds
its token until its trap is pending (R169, R297). -/
def Req.pendingResults (r : Req) : Bool := (ReqOp.returns r.op && !r.done) || (Req.failure r).isSome

/-! ### Executable mappings, translation and fetch (R73, R328, R330) -/

/-- The accesses that translation distinguishes (R328). -/
inductive Access where
  | read | write | fetch
  deriving DecidableEq, Repr

/-- The causes of class 10 (R313); of a malformed one, the physical address of the table's entry if it is an uncorrectable
one (R25). -/
inductive XlFault where
  | notPresent | perm
  | malformed (lost : Option Nat)
  deriving DecidableEq, Repr

/-- The cause code of a translation fault. -/
def XlFault.code : XlFault → Nat
  | .notPresent => causeCode 10 0
  | .perm => causeCode 10 1
  | .malformed _ => causeCode 10 2

/-- A translation that has failed: it counts and logs an uncorrectable entry that its walk met (R358). -/
def State.walked (s : State) (f : XlFault) : State :=
  match f with
  | .malformed (some pa) => State.countMain s pa
  | _ => s

/-- The size of the page that a leaf at a level maps (R328). -/
def pageSize : Nat → Nat
  | 2 => 2 ^ 30
  | 1 => 2 ^ 21
  | _ => 2 ^ 16

/-- The index of an address in a table of a level (R328). -/
def tableIndex (level va : Nat) : Nat :=
  match level with
  | 4 => bits va 56 48
  | 3 => bits va 47 39
  | 2 => bits va 38 30
  | 1 => bits va 29 21
  | _ => bits va 20 16

/-- The bytes of main memory: one HBM stack of 80 GiB for each of the eight dies (R10, R21). -/
def mainSize : Nat := 8 * (80 * 2 ^ 30)

/-- Whether `n` bytes at a physical address lie in main memory. The specification gives its size and the addresses of the
command pages, from 0xF_F800_0000 on, and no map: it follows addresses 0 on, below the command pages and, from 2^36
on, above them. DESIGN CHOICE: log 80. -/
def isMain (pa n : Nat) : Bool :=
  decide (pa + n ≤ 0xFF8000000) || (decide (2 ^ 36 ≤ pa) && decide (pa + n ≤ mainSize + (2 ^ 36 - 0xFF8000000)))

/-- A walk of the translation tables from a table of a level (R328): the leaf's level, value and
physical address. The levels are walked 4 to 0, given as fuel. No rule says what a walk does that meets an
uncorrectable entry, which is never delivered (R25), or with one that names a table or a page where there is no memory:
each counts as malformed. DESIGN CHOICE: logs 80, 84. -/
def walk (m : Memory) (va : Nat) : (fuel table : Nat) → Except XlFault (Nat × Nat × Nat)
  | 0, _ => .error (.malformed none)
  | level + 1, table =>
    let at_ := table + 8 * tableIndex level va
    let e := Memory.read m at_ 8
    let leaf := bits e 4 4 = 1
    let addr := bits e 51 8 * 2 ^ 8
    if Memory.uncorrectable m at_ 8 then .error (.malformed (some at_))
    else if !isMain at_ 8 then .error (.malformed none)
    else if e % 2 = 0 then .error .notPresent
    else if bits e 63 52 ≠ 0 then .error (.malformed none)
    else if leaf && 3 ≤ level then .error (.malformed none)
    else if !leaf && level = 0 then .error (.malformed none)
    else if leaf then
      if addr % pageSize level ≠ 0 || !isMain addr (pageSize level) then .error (.malformed none) else .ok (level, e, at_)
    else walk m va level addr

/-- Whether a leaf's rights allow an access; an executable leaf that is writable allows none
(R328). -/
def rightsAllow (r w x : Bool) : Access → Bool
  | .read => r && !(x && w)
  | .write => w && !x
  | .fetch => x && !w

/-- The TLB entry of an agent that covers an address. -/
def State.tlbHit (s : State) (ag : Agent) (asid va : Nat) : Option TlbEntry :=
  s.tlb.find? fun e => e.agent = ag && e.asid = asid && e.va ≤ va && va < e.va + e.size

/-- The TLB with one entry's A and, for a write, D gathered (R329). -/
def gatherAD (e : TlbEntry) (acc : Access) (tlb : List TlbEntry) : List TlbEntry :=
  tlb.map fun f => if f = e then { e with a := true, d := e.d || acc = .write } else f

/-- Translation of one address for an access (R328, R329): from the agent's TLB, or by a walk whose
entry the TLB then holds. DEDUCED: log 16. No rule says what an address of 2^57 or above does: it has no
entry in any table (R25). DESIGN CHOICE: log 85. -/
def State.translate (s : State) (ag : Agent) (asid va : Nat) (acc : Access) :
    Except XlFault (State × Nat) :=
  match State.tlbHit s ag asid va with
  | some e =>
    if rightsAllow e.r e.w e.x acc then
      .ok ({ s with tlb := gatherAD e acc s.tlb }, e.pa + (va - e.va))
    else .error .perm
  | none =>
    match AMap.get? s.roots asid with
    | none => .error .notPresent
    | some root =>
      if 2 ^ 57 ≤ va then .error .notPresent
      else match walk s.main va 5 root with
        | .error f => .error f
        | .ok (level, leaf, at_) =>
          let size := pageSize level
          let e : TlbEntry :=
            { agent := ag, asid := asid, va := va / size * size, size := size,
              pa := bits leaf 51 8 * 2 ^ 8, r := bits leaf 1 1 = 1, w := bits leaf 2 2 = 1,
              x := bits leaf 3 3 = 1, a := true, d := acc = .write, leaf := at_ }
          if rightsAllow e.r e.w e.x acc then
            .ok ({ s with tlb := s.tlb ++ [e] }, e.pa + (va - e.va))
          else .error .perm

/-- A TLB entry that has gathered nothing. -/
def TlbEntry.untouched (e : TlbEntry) : TlbEntry := { e with a := false, d := false }

/-- Translation of an access that its run may still drop (R20): the TLB holds the entry, and A and D are
gathered only once the access is performed. -/
def State.lookup (s : State) (ag : Agent) (asid va : Nat) (acc : Access) :
    Except XlFault (State × Nat) :=
  match State.translate s ag asid va acc with
  | .error f => .error f
  | .ok (t, pa) =>
    .ok ({ s with tlb := s.tlb ++ (t.tlb.drop s.tlb.length).map TlbEntry.untouched }, pa)

/-- A and, for a write, D gathered for an access that was translated before (R329). -/
def State.touch (s : State) (ag : Agent) (asid va : Nat) (acc : Access) : State :=
  match State.tlbHit s ag asid va with
  | some e => { s with tlb := gatherAD e acc s.tlb }
  | none => s

/-- Why an address cannot be executed from (R73, R330). -/
inductive FetchFault where
  | noStart
  | outside
  | xlate (f : XlFault)
  /-- The bytes are uncorrectable (R25). -/
  | bad
  deriving DecidableEq, Repr

/-- The cause of a fetch fault: NOSTART or NORUN (`start`), XFETCH, class 10, or MEMUNC. -/
def FetchFault.code (start : Nat) : FetchFault → Nat
  | .noStart => start
  | .bad => causeCode 4 4
  | .outside => causeCode 2 2
  | .xlate f => XlFault.code f

/-- The executable mapping of a context that covers an address whose page has not been unmapped since. No rule says
which of two counts: it is the one mapped last. DESIGN CHOICE: log 86. -/
def State.mapping? (s : State) (asid va : Nat) : Option ExecMap :=
  s.execMaps.reverse.find? fun m => m.asid = asid && m.va ≤ va && va < m.va + m.len &&
    !m.gone.contains ((va - m.va) / 65536)

/-- The level and the value of the leaf that the tables hold for an address of a context, without a TLB. -/
def State.leafOf (s : State) (asid va : Nat) : Option (Nat × Nat) :=
  match AMap.get? s.roots asid with
  | none => none
  | some root =>
    if 2 ^ 57 ≤ va then none
    else match walk s.main va 5 root with
      | .error _ => none
      | .ok (level, leaf, _) => some (level, leaf)

/-- Uncorrectable data met at a virtual address of a context (R358). -/
def State.metVirtual (s : State) (asid va : Nat) : State :=
  match State.leafOf s asid va with
  | some (level, leaf) => State.countMain s (bits leaf 51 8 * 2 ^ 8 + va % pageSize level)
  | none => s

/-- The first address of the page that holds an address of a context (R328). -/
def State.pageBase (s : State) (asid va : Nat) : Nat :=
  let size := match State.leafOf s asid va with
    | some (level, _) => pageSize level
    | none => pageSize 0
  va / size * size

/-- Whether some agent may still fetch from an address of a context: by the tables, or by an entry that a
TLB holds. -/
def State.fetchable (s : State) (asid va : Nat) : Bool :=
  (match State.leafOf s asid va with
    | some (_, leaf) => rightsAllow true (bits leaf 2 2 = 1) (bits leaf 3 3 = 1) .fetch
    | none => false) ||
    s.tlb.any fun e => e.asid = asid && e.va ≤ va && va < e.va + e.size && rightsAllow e.r e.w e.x .fetch

/-- Whether some agent may write at an address of a context: by the tables, or by an entry that a TLB holds. -/
def State.writable (s : State) (asid va : Nat) : Bool :=
  (match State.leafOf s asid va with
    | some (_, leaf) => bits leaf 2 2 = 1
    | none => false) ||
    s.tlb.any fun e => e.asid = asid && e.va ≤ va && va < e.va + e.size && e.w

/-- The executable mappings once a change from state s to state t has taken effect (R75): a page from which an agent
could fetch before and none can now has been unmapped, one that may be written is not what was scanned (R69), and the bytes
of either need a new scan. -/
def State.pruneMaps (s t : State) : State :=
  { t with execMaps := t.execMaps.map fun m =>
      { m with gone := m.gone ++ (List.range ((m.len + 65535) / 65536)).filter fun k =>
          (State.fetchable s m.asid (m.va + 65536 * k) && !State.fetchable t m.asid (m.va + 65536 * k)) ||
            State.writable t m.asid (m.va + 65536 * k) } }

/-- Whether a scan of the page of an address has been asked for and has not ended (R69). -/
def State.scanned (s : State) (asid va : Nat) : Bool :=
  s.scans.any fun x => x.2.asid = asid && x.2.va ≤ va && va < x.2.va + x.2.len

/-- What a fetch outside every executable mapping meets (R69, R73): a translation fault while the page's
scan has not ended, and XFETCH otherwise. DEDUCED: log 44. -/
def State.unmappedFetch (s : State) (ag : Agent) (asid va : Nat) : FetchFault :=
  if State.scanned s asid va then
    match State.translate s ag asid va .fetch with
    | .error f => .xlate f
    | .ok _ => .xlate .perm
  else .outside

/-- Whether an address of a context is a tagged start: of an instruction, or of a run (R73), and its
page may be fetched. Translation gathers A, so it gives a new state. An address outside every executable
mapping is that, whatever its low bits (R106). DESIGN CHOICE: log 87. -/
def State.checkStart (s : State) (ag : Agent) (asid va : Nat) (lane : Bool) :
    Except FetchFault (State × Nat) :=
  match State.mapping? s asid va with
  | none => .error (State.unmappedFetch s ag asid va)
  | some m =>
    let unit := if lane then 12 else 4
    if m.lane = lane && (va - m.va) % unit = 0 && m.starts.contains ((va - m.va) / unit) then
      match State.translate s ag asid va .fetch with
      | .ok r => .ok r
      | .error f => .error (.xlate f)
    else .error .noStart

/-- The virtual address of a scalar-section byte offset of a warp (R56, R348). -/
def State.scalarVA (s : State) (W : Warp) (pc : Word) : Nat :=
  match State.gridOf? s W with
  | some g => g.scode + pc.toNat
  | none => pc.toNat

/-- The virtual address of a run slot of a warp (R59). -/
def State.runVA (s : State) (W : Warp) (run : Nat) : Nat :=
  match State.gridOf? s W with
  | some g => g.lcode + 12 * run
  | none => 12 * run

/-! ### Traps (R313 to R319) -/

/-- The kind of a trap (R315). -/
inductive TrapKind where
  | scalar | lane | async
  deriving DecidableEq, Repr

/-- What a trap writes into its bank (R317). -/
structure Trap where
  kind  : TrapKind
  cause : Nat
  mask  : Word
  tval  : DWord
  write : Bool
  run   : Option RunEntry
  deriving DecidableEq, Repr

/-- TCAUSE of a trap (R324). -/
def Trap.word (t : Trap) : Word :=
  Sys2Proof.word ((if t.write && t.cause / 64 = 10 then 2 ^ 20 else 0) +
    (match t.kind with | .scalar => 0 | .lane => 1 | .async => 2) * 2 ^ 18 + t.cause)

/-- A bank with nothing in it (R324). -/
def Bank.empty : Bank :=
  { tcause := 0, tret := 0, tval := 0, tvalh := 0, tmask := 0, trq := [], slot := 0, prev := 0 }

/-- The bank of a level. -/
def Warp.bank (W : Warp) (k : Nat) : Bank := if k = 1 then W.bank1 else W.bank2

/-- A bank replaced. -/
def Warp.setBank (W : Warp) (k : Nat) (b : Bank) : Warp :=
  if k = 1 then { W with bank1 := b } else { W with bank2 := b }

/-- The words of a bank that a fatal trap report holds (R319). -/
def Bank.words (b : Bank) : List Nat :=
  [b.tcause.toNat, b.tret.toNat, b.tval.toNat, b.tvalh.toNat, b.tmask.toNat]

/-- The fragment that holds the lowest lane of a mask, or the one in the lowest entry (R317). -/
def Warp.trapSlot (W : Warp) (m : Word) : Option Nat :=
  match (lowestLane m).bind fun l => (Warp.live W).find? fun e => e.2.mask.getLsbD l with
  | some e => some e.1
  | none => (Warp.live W).head?.map (·.1)

/-- Whether a waiting instruction completes before its fragment is taken (R368); every other one is
taken before it executes. -/
def Wait.completesFirst : Wait → Bool
  | .mem _ => true
  | .ready => false
  | .atJoin => false
  | .runQueue => false
  | .room _ => false
  | .runs _ _ => false
  | .lput _ _ _ _ => false
  | .pset _ _ _ => false
  | .counter _ _ => false
  | .levelRuns _ => false
  | .svc _ _ => true
  | .stagePut => false
  | .stageGet => false
  | .command => false
  | .ordered _ _ _ _ => false
  | .cpyw _ _ _ => false
  | .thbind _ _ _ _ => true
  | .stbind _ _ _ _ => true
  | .scopeset _ _ _ _ => true
  | .save _ _ _ => true
  | .fence _ _ _ _ _ => false
  | .barrier _ _ _ _ _ => false
  | .woken _ _ => true
  | .waitv _ _ _ _ _ => false
  | .macq _ => false
  | .matrixRoom => false
  | .mwait _ => false
  | .ctxRuns _ _ _ => true
  | .ctx _ _ => true
  | .ctxRes _ => false
  | .trapping _ _ _ => false
  | .maskwait _ _ _ => false
  | .fquiet _ => false
  | .fack _ => false
  | .fgrp _ _ _ _ _ => true
  | .fmc _ _ _ _ _ _ => true
  | .grids => false

/-- Whether some run of the queue, the executing one, or one that a trap which has still to be taken has
discarded was enqueued before `limit` and satisfies a condition; runs that a TRQ bank holds are outside the
queue (R334). -/
def Warp.uncommitted (W : Warp) (limit : Nat) (f : RunEntry → Bool) : Bool :=
  (W.queue.any fun e => e.seq < limit && f e) ||
    (match W.exec with
    | some x => x.entry.seq < limit && f x.entry
    | none => false) ||
    match W.laneTrap.bind (·.run) with
    | some e => e.seq < limit && f e
    | none => false

/-- Whether a handler that started while a fragment of a handler level waited holds a run that was enqueued
before `limit`. -/
def Warp.heldRun (W : Warp) (hlev limit : Nat) : Bool :=
  [1, 2].any fun k => decide (hlev < k) && decide (k ≤ W.tlev) &&
    (Warp.bank W k).trq.any fun e => e.valid && !e.skip && decide (e.entry.seq < limit)

/-- Whether a fragment completes what it waits in before it is taken (R368). A CTX.PUB cannot while one of its runs has
been discarded, or is held by the handler of another fragment (R262): then it is taken before it executes.
DEDUCED: log 27. -/
def Warp.finishes (W : Warp) (f : Frag) : Bool :=
  Wait.completesFirst f.wait && match f.wait with
    | .ctxRuns _ limit _ => (W.laneTrap.isNone && W.tlev ≤ f.hlev) ||
        !(Warp.uncommitted W limit (fun _ => true) || Warp.heldRun W f.hlev limit)
    | _ => true

/-- Whether a fragment's wait may end: while the handler of another fragment runs, an instruction that has
not executed stays waiting; one that completes first (R368) completes (R118). DEDUCED: log 36. -/
def Ctx.mayLook (c : Ctx) : Bool := c.warp.tlev ≤ c.frag.hlev || Warp.finishes c.warp c.frag

/-- The marks of a fragment taken from its wait: one taken from the waiting part of BAR.ARRWAIT has arrived
(R227). DEDUCED: log 22. -/
def Frag.takenMarks (f : Frag) : List Mark :=
  match f.wait with
  | .barrier _ t off p true => ⟨f.pc, f.hlev, ⟨t, off, p⟩⟩ :: f.marks
  | _ => f.marks

/-- The instruction that a taken fragment waits in, undone (R368): it issues again. -/
def Warp.abandonWait (W : Warp) (slot : Nat) : Warp :=
  Warp.onFrag (Warp.disown W (.frag slot)) slot fun f => { f with wait := .ready, marks := Frag.takenMarks f }

/-- Killing a warp's context (R319): nothing more issues for it, its runs are discarded, its issued
requests still retire, the fatal report holds the new cause and both banks, and its queue halts. -/
def killWarp (s : State) (w : Nat) (W : Warp) (t : Trap) : State :=
  let s := State.report s .fatalTrap
    ([w, t.cause, t.tval.toNat, t.mask.toNat] ++ Bank.words W.bank1 ++ Bank.words W.bank2)
  let s := State.setWarp s w
    { W with killed := true, queue := [], exec := none, laneTrap := none,
             bank1 := { W.bank1 with trq := [] }, bank2 := { W.bank2 with trq := [] } }
  State.haltWarp s W 0x0A

/-- The operations of a warp that were issued before an MWAIT reported a failure retire without effect
(R209). -/
def State.killOps (s : State) (w : Nat) : State :=
  { s with arrays := s.arrays.map fun e =>
      (e.1, { e.2 with ops := e.2.ops.map fun o => if o.w = w then { o with dead := true } else o }) }

/-- A fragment that has met a trap of its own and has still to take it: another trap comes first, so its instruction
counts as not executed, and executes again (R317). -/
def Frag.untrap (f : Frag) : Frag :=
  match f.wait with
  | .trapping _ _ _ => { f with wait := .ready }
  | _ => f

/-- The fragments of a warp as a trap is taken. -/
def Warp.untrap (W : Warp) : Warp := { W with frags := W.frags.map (Option.map Frag.untrap) }

/-- The entry of a trap in the fragment of an entry of the warp W (R317), one indivisible event: at level 2, without a
handler, or without a live fragment the warp is killed; otherwise the bank of the next level is filled, the run queue
moves to its TRQ, and the fragment stands at TVEC. -/
def enterTrap (s : State) (w : Nat) (W : Warp) (slot : Option Nat) (t : Trap) : State :=
  match slot.bind fun i => (Warp.frag? W i).map fun f => (i, f) with
  | none => killWarp s w W t
  | some (i, f) =>
    if W.tlev ≥ 2 ∨ W.tvec = BitVec.allOnes 32 then killWarp s w W t
    else
      let k := W.tlev + 1
      let held := W.queue.map fun e => (⟨true, false, false, e⟩ : TrqEntry)
      let trq := match t.run with
        | some e => (⟨true, false, true, e⟩ : TrqEntry) :: held
        | none => held
      let b : Bank :=
        { tcause := Trap.word t, tret := f.pc, tval := t.tval.setWidth 32,
          tvalh := (t.tval >>> 32).setWidth 32, tmask := t.mask, trq := trq, slot := i,
          prev := f.hlev }
      let s := State.leaveWait s w W i
      let W := Warp.untrap (Warp.abandonWait W i)
      let W := Warp.setBank { W with queue := [], tlev := k } k b
      let W := if t.cause / 64 = 10 then { W with svch := b.tvalh } else W
      State.setWarp s w (Warp.onFrag W i fun f => { f with pc := W.tvec, hlev := k })

/-- Taking a trap in the fragment of an entry (R317). A trap of MWAIT reports its warp's failure, whether or not a handler
runs for it (R209). -/
def takeTrap (s : State) (w : Nat) (slot : Option Nat) (t : Trap) : State :=
  match State.warp? s w with
  | none => s
  | some W =>
    if t.cause = causeCode 5 5 ∨ t.cause = causeCode 5 6 then
      enterTrap (State.killOps s w) w { W with mfail := none } slot t
    else enterTrap s w W slot t

/-- The run that executes, if it has to end before a trap is taken (R315): a run held at its TRAIL
for counter room is returned to the head of the queue (R117, R124). -/
def Warp.returnHeld (W : Warp) : Warp :=
  match W.exec with
  | some e =>
    if e.trail.isSome && !([Path.sh, .sc, .sp, .cp, .fb, .eq].all fun p =>
        Warp.room W p (e.reqs.filter fun r => r.path = p).length) then
      { W with exec := none, queue := e.entry :: W.queue }
    else W
  | none => W

/-- Whether a pending asynchronous trap is held: its request issued at level 0 and a handler runs
(R316). -/
def Warp.holds (W : Warp) (p : Pending) : Bool := p.lev = 0 && 1 ≤ W.tlev

/-- The next asynchronous trap that is due, if any (R316). -/
def Warp.dueAsync (W : Warp) : Option Pending := W.async.find? fun p => !Warp.holds W p

/-- Whether a trap of the warp has still to be taken: no instruction executes before it (R315, R317). -/
def Warp.trapDue (W : Warp) : Bool := W.laneTrap.isSome || (Warp.dueAsync W).isSome

/-- Whether a waiting fragment's instruction may go on (R118, R315, R368): no trap of its warp has to be taken before it,
nor does the handler of another fragment run, unless the instruction completes first. -/
def Ctx.mayGoOn (c : Ctx) : Bool :=
  Ctx.mayLook c && (!Warp.trapDue c.warp || Warp.finishes c.warp c.frag)

/-- A scalar instruction meets a trapping condition (R315, R317): while a run of the warp executes
it waits, and while an earlier trap of the warp is due it counts as not executed. -/
def Ctx.trap (c : Ctx) (s : State) (cause : Nat) (tval : DWord) (write : Bool := false) :
    Out State :=
  let W := Warp.returnHeld c.warp
  if W.exec.isSome || Warp.trapDue W then .next (State.setWarp s c.w W)
  else .next (takeTrap (State.setWarp s c.w W) c.w (some c.slot)
    { kind := .scalar, cause := cause, mask := c.frag.mask, tval := tval, write := write,
      run := none })

/-- A fragment whose wait is over. -/
def Ctx.awake (c : Ctx) : Ctx :=
  let W := Warp.onFrag c.warp c.slot fun f => { f with wait := .ready }
  { c with warp := W, frag := { c.frag with wait := .ready } }

/-- A trap at an instruction that its fragment waits in. It waits until the warp's executing run has ended (R315). While
another trap is due, or the handler of another fragment runs, the instruction counts as not executed, and executes
again (R317). A killed warp takes none (R319). -/
def Ctx.lateTrap (c : Ctx) (s : State) (cause : Nat) (tval : DWord) (write : Bool := false) : Out State :=
  let W := Warp.returnHeld c.warp
  if W.killed || Warp.trapDue W || c.frag.hlev < W.tlev then .next (Ctx.reissue c s)
  else if W.exec.isSome then
    Ctx.wait c (.trapping cause tval.toNat write) (Ctx.on c s fun W => Warp.disown W (.frag c.slot))
  else Ctx.trap (Ctx.awake c) s cause tval write

/-- The trap of an instruction that may have waited. -/
def Ctx.meets (c : Ctx) (s : State) (cause : Nat) (tval : DWord) (write : Bool := false) : Out State :=
  if c.frag.wait = .ready then Ctx.trap c s cause tval write else Ctx.lateTrap c s cause tval write

/-- A trap without an address, whose TVAL is zero (R369). -/
def Ctx.trap0 (c : Ctx) (s : State) (cls detail : Nat) : Out State :=
  Ctx.trap c s (causeCode cls detail) 0

/-- Takes the warp's lane trap or, failing one, its next due asynchronous trap, when no run executes
and its fragment is not inside an instruction that completes first (R315, R317, R368). -/
def takePending (s : State) (w : Nat) : Option State :=
  match State.warp? s w with
  | none => none
  | some W0 =>
    let W := Warp.returnHeld W0
    let ready (m : Word) : Option (Option Nat) :=
      match Warp.trapSlot W m with
      | none => some none
      | some i =>
        match Warp.frag? W i with
        | some f => if Warp.finishes W f then none else some (some i)
        | none => some none
    if W.exec.isSome then none
    else match W.laneTrap with
      | some p =>
        (ready p.mask).map fun slot =>
          takeTrap (State.setWarp s w { W with laneTrap := none }) w slot
            { kind := .lane, cause := p.cause, mask := p.mask, tval := p.tval, write := p.write,
              run := p.run }
      | none =>
        match Warp.dueAsync W with
        | none => none
        | some p =>
          (ready p.mask).map fun slot =>
            takeTrap (State.setWarp s w { W with async := W.async.filter fun q => q.id != p.id })
              w slot
              { kind := .async, cause := p.cause, mask := p.mask, tval := p.tval, write := p.write,
                run := none }

/-! ### The abort of an idempotent team (R332) -/

/-- Whether a home's packet or line comes from one of a set of this device's warps. -/
def HomeSrc.isOf (mine : Nat → Bool) : HomeSrc → Bool
  | .own w _ => mine w
  | .ownLine w _ => mine w
  | .peer _ _ _ => false
  | .peerLine _ _ _ _ => false

/-- A warp of an aborted team: it stops for good, and what it had not yet performed is discarded. -/
def Warp.discard (W : Warp) : Warp :=
  { W with ended := true, queue := [], exec := none, reqs := [], async := [], laneTrap := none,
           mrecs := [], frags := List.replicate 32 none }

/-- An array without anything of a set of warps: operations, ownership and places in its queue.
DEDUCED: log 23. -/
def MArray.drop (gone : Nat → Bool) (a : MArray) : MArray :=
  { a with ops := a.ops.filter fun o => !gone o.w, waiters := a.waiters.filter fun m => !gone m.w,
           hold := match a.hold with
             | some h => if gone h.w then none else some h
             | none => none }

/-- Every array without anything of a set of warps (R211, R332). -/
def State.dropArrays (s : State) (gone : Nat → Bool) : State :=
  { s with arrays := s.arrays.map fun e => (e.1, MArray.drop gone e.2) }

/-- A translation fault aborts a team launched as idempotent (R332): every warp stops, unperformed
requests are discarded, its resources are released, and the supervisor is told. -/
def idemAbort (s : State) (t cause va : Nat) : State :=
  match s.teams[t]? with
  | none => s
  | some T =>
    let s := T.warps.foldl (fun s w => State.onWarp s w Warp.discard) s
    let s := { s with homes := s.homes.filter fun h => !HomeSrc.isOf T.warps.contains h.src,
                      unsent := s.unsent.filter fun p => !(p.owner.elim false fun o => T.warps.contains o.1) }
    let s := State.dropArrays s T.warps.contains
    let s := State.onTeam s t fun T => { T with status := .aborted, warps := [], shm := Memory.empty }
    State.report s .idemFault [t, cause, va]

/-- Whether a translation fault of the warp aborts its team: launched as idempotent, at level 0
(R330, R332). -/
def Warp.aborts (W : Warp) : Bool := W.idem && W.tlev = 0

/-- A translation fault of a scalar instruction (R330): the team's abort, or a precise trap of class
10 with the address. -/
def Ctx.xlFault (c : Ctx) (s : State) (f : XlFault) (va : Nat) (write : Bool) : Out State :=
  let s := State.walked s f
  if Warp.aborts c.warp then .next (idemAbort s c.warp.team (XlFault.code f) va)
  else Ctx.meets c s (XlFault.code f) (dword va) write

/-- A fetch that cannot be made, of a scalar instruction (R73, R330, R332): the abort of an idempotent
team at a translation fault, or a trap; `start` is the cause for an untagged address. Uncorrectable
instruction bytes are never delivered, and the fetch fails precisely (R25), with MEMUNC. DESIGN CHOICE: log 84. -/
def Ctx.fetchFault (c : Ctx) (s : State) (start : Nat) (f : FetchFault) (va : Nat) : Out State :=
  match f with
  | .xlate x => Ctx.xlFault c s x va false
  | .bad => Ctx.trap c (State.metVirtual s (State.asidOf s c.warp) va) (causeCode 4 4) (dword va)
  | f => Ctx.trap c s (FetchFault.code start f) (dword va)

/-- A control transfer to a scalar-section byte offset (R73): the target is a tagged start that can
be fetched, or the transferring instruction traps with nothing else changed. `upd` is what the
instruction writes besides. -/
def Ctx.jump (c : Ctx) (s : State) (target : Word) (upd : Warp → Warp) : Out State :=
  let va := State.scalarVA s c.warp target
  match State.checkStart s (.core (State.coreOf s c.warp)) (State.asidOf s c.warp) va false with
  | .error f => Ctx.fetchFault c s (causeCode 2 0) f va
  | .ok (s, _) => .next (Ctx.on c s fun W => Warp.arrive (upd W) c.slot target)

/-! ### Returning from a trap (R318) -/

/-- Whether the long-latency results and the runs of a level are done (R318). -/
def Warp.levelDone (W : Warp) (lev : Nat) : Bool :=
  (W.queue.all fun e => e.lev ≠ lev) &&
    (match W.exec with
      | some e => e.entry.lev ≠ lev
      | none => true) &&
    !(W.reqs.any fun r => Req.pendingResults r && r.run.isSome && r.lev = lev)

/-- A word of a TRQ entry as a run-queue entry again (R318). -/
def TrqEntry.back (e : TrqEntry) : RunEntry := e.entry

/-- The effect of TRET (R318) once its runs are done: the held runs are queued again unless skipped,
the level falls, and the fragment continues at TRETk, without the marks of instructions that it does not
return to (R227); a bad address traps first (R73). -/
def Ctx.tret (c : Ctx) (s : State) : Out State :=
  let k := c.warp.tlev
  let b := Warp.bank c.warp k
  Ctx.jump c s b.tret fun W =>
    let W := { W with queue := W.queue ++ (b.trq.filter fun e => e.valid && !e.skip).map TrqEntry.back,
                      tlev := k - 1 }
    Warp.onFrag W c.slot fun f =>
      let lev := if c.slot = b.slot then b.prev else k - 1
      { f with hlev := lev, marks := f.marks.filter fun m => m.lev < lev || (m.lev = lev && m.pc = b.tret) }

/-! ### Local memory (R103, R154) -/

/-- The memory that a local address names, and the offset in it: a team's allocation, the grid's
scratchpad region on the die, or the warp's spill stack. -/
inductive Place where
  | team (t off : Nat)
  | scratch (g die off : Nat)
  | spill (off : Nat)
  deriving DecidableEq, Repr

/-- The allocation that a shared-memory address names (R103, R154): the team's own, or a team of the
neighbourhood through the window. Answers the team, the offset and the allocation's length. No rule says
whether the allocation of a team that has ended is still there: it is. DESIGN CHOICE: log 88. -/
def State.sharedAt (s : State) (W : Warp) (x : Nat) : Option (Nat × Nat × Nat) :=
  match State.teamOf? s W with
  | none => none
  | some t =>
    if x < 0x01000000 then some (W.team, x, t.shLen)
    else
      let j := (x - 0x01000000) / 0x80000
      let y := (x - 0x01000000) % 0x80000
      match s.grids[t.grid]? with
      | none => none
      | some g =>
        if g.nbhd && j < 24 then
          (g.teams[j]?).bind fun tj => (s.teams[tj]?).map fun T => (tj, y, T.shLen)
        else none

/-- The result of checking a local access (R103, R155). -/
inductive LocalCheck where
  | ok (p : Place)
  | fault (cause : Nat)
  deriving DecidableEq, Repr

/-- The checks of an access of `n` bytes at address x of a space, in the table's order (R103,
R155). -/
def State.checkLocal (s : State) (W : Warp) (sp : Space) (write : Bool) (x n : Nat) : LocalCheck :=
  if x % n ≠ 0 then .fault (causeCode 3 5)
  else match sp with
    | .shared =>
      match State.sharedAt s W x with
      | some (t, off, len) =>
        if off + n ≤ len then .ok (.team t off) else .fault (causeCode 3 0)
      | none => .fault (causeCode 3 0)
    | .scratch =>
      match s.teams[W.team]? with
      | none => .fault (causeCode 3 1)
      | some t =>
        match s.grids[t.grid]? with
        | none => .fault (causeCode 3 1)
        | some g =>
          if g.scrLen < x + n then .fault (causeCode 3 1)
          else if write && g.constLo < g.constHi && x < g.constHi && g.constLo < x + n then
            .fault (causeCode 3 2)
          else .ok (.scratch t.grid (dieOf t.core) x)
    | .spill =>
      if W.spillLen < x + n then .fault (causeCode 3 6) else .ok (.spill x)

/-- The place an address names when it is performed; the checks were made at issue. -/
def State.placeOf (s : State) (W : Warp) (sp : Space) (x : Nat) : Place :=
  match sp with
  | .shared =>
    match State.sharedAt s W x with
    | some (t, off, _) => .team t off
    | none => .team W.team x
  | .scratch =>
    match s.teams[W.team]? with
    | some t => .scratch t.grid (dieOf t.core) x
    | none => .scratch 0 0 x
  | .spill => .spill x

/-- `n` bytes at a place, as a number (R3). -/
def State.readPlace (s : State) (w : Nat) (p : Place) (n : Nat) : Nat :=
  match p with
  | .team t off =>
    match s.teams[t]? with
    | some T => Memory.read T.shm off n
    | none => 0
  | .scratch g die off =>
    match (s.grids[g]?).bind fun G => G.scr[die]? with
    | some m => Memory.read m off n
    | none => 0
  | .spill off =>
    match s.warps[w]? with
    | some W => UMem.read W.spill off n
    | none => 0

/-- Whether data among `n` bytes at a place is uncorrectable. -/
def State.badPlace (s : State) (w : Nat) (p : Place) (n : Nat) : Bool :=
  match p with
  | .team t off =>
    match s.teams[t]? with
    | some T => Memory.uncorrectable T.shm off n
    | none => false
  | .scratch g die off =>
    match (s.grids[g]?).bind fun G => G.scr[die]? with
    | some m => Memory.uncorrectable m off n
    | none => false
  | .spill off =>
    match s.warps[w]? with
    | some W => UMem.uncorrectable W.spill off n
    | none => false

/-- A request meets uncorrectable data at a place on chip: the die counts it (R358). -/
def State.metPlace (s : State) (w : Nat) (p : Place) : State :=
  State.countBad s (match p with
    | .team t _ => State.dieOfTeam s t
    | .scratch _ die _ => die
    | .spill _ => match s.warps[w]? with
      | some W => dieOf (State.coreOf s W)
      | none => 0) none

/-- The low `n` bytes of a number stored at a place (R3). -/
def State.writePlace (s : State) (w : Nat) (p : Place) (n v : Nat) : State :=
  match p with
  | .team t off => State.onTeam s t fun T => { T with shm := Memory.write T.shm off n v }
  | .scratch g die off =>
    State.onGrid s g fun G => { G with scr := G.scr.modify die fun m => Memory.write m off n v }
  | .spill off => State.onWarp s w fun W => { W with spill := UMem.write W.spill off n v }

/-- The path of a space (R153). -/
def Space.path : Space → Path
  | .shared => .sh
  | .scratch => .sc
  | .spill => .sp

/-! ### Widths -/

/-- The width of a lane type in bits (R62). -/
def tyBits : LaneTy → Nat
  | .e2m1 => 4 | .q4 => 4
  | .i8 => 8 | .n8 => 8 | .e4m3 => 8 | .e5m2 => 8 | .q8 => 8
  | .i16 => 16 | .n16 => 16 | .f16 => 16 | .bf16 => 16
  | .b32 => 32 | .i32 => 32 | .n32 => 32 | .f32 => 32
  | .i64 => 64 | .n64 => 64 | .f64 => 64 | .b64 => 64

/-- The bytes of a type in memory (R153). -/
def tyBytes (t : LaneTy) : Nat := tyBits t / 8

/-! ### Free values (R6) -/

/-- An undefined value of 32 bits, with the counter advanced (log 2). -/
def State.free (s : State) : State × Word :=
  ({ s with freeCount := s.freeCount + 1 }, Config.freeWord s.freeCount)

/-- An undefined value of `n` bytes, with the counter advanced (log 2). -/
def State.freeBytes (s : State) (n : Nat) : State × Nat :=
  ({ s with freeCount := s.freeCount + n },
    (List.range n).foldl (fun v i => v + (Config.freeByte (s.freeCount + i)).toNat * 256 ^ i) 0)

/-- The fragment placed last in the round-robin order (R108, R111). -/
def State.rotate (s : State) (w slot : Nat) : State :=
  { s with rr := (s.rr.filter fun e => !(e.1 = w && e.2 = slot)) ++ [(w, slot)] }

/-! ### Ports and packets (R288, R289, R307) -/

/-- The die of a fabric port: ports 4d to 4d + 3 belong to die d (R10). -/
def dieOfPort (port : Nat) : Nat := port / 4

/-- A port changed. -/
def State.onPort (s : State) (p : Nat) (f : Port → Port) : State :=
  if 32 ≤ p then s
  else { s with ports := AMap.set s.ports p (f ((AMap.get? s.ports p).getD Port.zero)) }

/-- Whether this device's port is up and sends (R288, R307). -/
def State.livePort (s : State) (p : Nat) : Bool :=
  match AMap.get? s.ports p with
  | some P => P.up && !P.stopped
  | none => false

/-- The ports of this device that are up and send. -/
def State.livePorts (s : State) : List Nat := (List.range 32).filter (State.livePort s)

/-- The ports of this device by which a path leads to a peer (R288): it and the peer's port to the same switch chip are
up. A number that no device holds has no ports. -/
def State.paths (s : State) (dev : Nat) : List Nat :=
  (State.livePorts s).filter ((AMap.get? s.peers dev).getD 0).testBit

/-- Whether a live path to a peer remains (R288). -/
def State.reachable (s : State) (dev : Nat) : Bool := !(State.paths s dev).isEmpty

/-- The job of an execution context. -/
def State.jobOf (s : State) (asid : Nat) : Nat := (AMap.get? s.jobs asid).getD 0

/-- The group of a job (R299). -/
def State.group (s : State) (job group : Nat) : Group :=
  (AMap.get? s.groups (256 * job + group)).getD Group.zero

/-- The chips that a line can be sent to (R288, R299): this device's port to it is live, and it holds the
group's last edit. -/
def State.chips (s : State) (job group : Nat) : List Nat :=
  (State.livePorts s).filter fun p => (((State.group s job group).chips[p]?).getD (0, false)).2

/-- A port's counter after `n` flits (R307): at 2^35 it raises the alarm, at 2^36 − 2 it stops. -/
def Port.count (P : Port) (n : Nat) : Port :=
  let c := Min.min (P.counter + n) (2 ^ 36 - 2)
  { P with counter := c, alarm := P.alarm || decide (2 ^ 35 ≤ c), stopped := P.stopped || c = 2 ^ 36 - 2 }

/-- `n` flits sent by a port; the supervisor is interrupted as the alarm is set (R307). -/
def State.flits (s : State) (p n : Nat) : State :=
  let P := (AMap.get? s.ports p).getD Port.zero
  let s := State.onPort s p fun P => Port.count P n
  if !P.alarm && 2 ^ 35 ≤ P.counter + n then State.report s .keyAlarm [p] else s

/-- JOB, QUEUE and RCNT of a warp's packet (R289). A grid without a queue counts as queue 0's. -/
def State.stamp (s : State) (W : Warp) (p : Sent) : Sent :=
  let q := ((State.gridOf? s W).bind (·.queue)).getD 0
  { p with job := State.jobOf s (State.asidOf s W), queue := q, rcnt := (State.queue s q).rcnt }

/-- Whether a reset notice has still to be acknowledged (R306): the reset that it announces waits for its device. -/
def State.noticeWaits (s : State) (p : Sent) : Bool :=
  let Q := State.queue s p.queue
  Q.state = .resetting && Q.rcnt = p.rcnt && Q.unacked.contains p.dst

/-- Whether a packet has still to be acknowledged (R288): its request waits for an answer to it, or the reset that it
announces does. A packet that is itself an answer is acknowledged as it leaves. DESIGN CHOICE: log 96. -/
def State.unanswered (s : State) (p : Sent) : Bool :=
  if p.kind = 8 then !p.reply && State.noticeWaits s p
  else match p.owner.bind fun o => (State.warp? s o.1).bind fun W => (Warp.req? W o.2).map fun r => (W, r) with
  | none => false
  | some (W, r) => !r.done && match r.op with
    | .fax _ _ _ _ _ => r.todo.any fun it => p.lanes.contains it.lane
    | .fmc rec => p.kind = 3 || match AMap.get? W.mrecs rec with
      | some m => m.left.contains p.dst
      | none => false
    | _ => true

/-- The destination of a packet in the hash of R288: for a multicast line, its group. -/
def Sent.key (p : Sent) : Nat := if p.kind = 3 then p.data.headD 0 else p.dst

/-- Whether two packets go to the same destination, window and block (R288). WIN and BLK are those of requests and lines,
so packets of one KIND are compared. -/
def Sent.along (p q : Sent) : Bool :=
  p.kind = q.kind && Sent.key p = Sent.key q && p.win = q.win && p.block = q.block

/-- The flits of a packet (R289): its header and its data. -/
def Sent.flits (p : Sent) : Nat := 1 + (p.bytes + 63) / 64

/-- The port that a packet takes (R288): by a hash over the live paths. -/
def State.portFor (s : State) (p : Sent) : Option Nat :=
  let ports := if p.kind = 3 then State.chips s p.job (Sent.key p) else State.paths s p.dst
  ports[Config.pathHash (Sent.key p) p.win p.block % ports.length]?

/-- Whether a packet waits behind others to its destination, window and block (R288): those that have not left, and those
that are not acknowledged and were sent again, or left by another path than the one that the hash now gives. -/
def State.held (s : State) (p : Sent) : Bool :=
  !p.again && (s.unsent.any (Sent.along p) || s.sent.any fun q =>
    Sent.along p q && State.unanswered s q && (q.again || q.port ≠ State.portFor s p))

/-- A packet leaves by the port that the hash gives, with the version of its link, or waits while no path is live (R288,
R289). A port that its flits bring past 2^36 − 2 stops within the packet, which then goes by another path (R307). -/
def State.leave : Nat → State → Sent → State
  | 0, s, p => { s with unsent := s.unsent ++ [p] }
  | n + 1, s, p =>
    match State.portFor s p with
    | none => { s with unsent := s.unsent ++ [p] }
    | some port =>
      let P := (AMap.get? s.ports port).getD Port.zero
      let t := State.flits s port (Sent.flits p)
      if P.counter + Sent.flits p ≤ 2 ^ 36 - 2 then
        { t with sent := t.sent ++ [{ p with port := some port, ver := P.version }] }
      else State.leave n t { p with again := true }

/-- A packet leaves, or waits behind others (R288). A port that stops is tried no more, so 33 rounds pass over the 32
ports. -/
def State.depart (s : State) (p : Sent) : State :=
  if State.held s p then { s with unsent := s.unsent ++ [p] } else State.leave 33 s p

/-- SEQ of the next packet to a destination (R289). It starts at 0, and multicast lines have a number space of their own.
DESIGN CHOICE: log 96. -/
def State.number (s : State) (p : Sent) : State × Sent :=
  let k := if p.kind = 3 then 512 else p.dst
  let n := (AMap.get? s.seqOut k).getD 0
  ({ s with seqOut := AMap.set s.seqOut k ((n + 1) % 2 ^ 32) }, { p with seq := n })

/-- A packet sent (R288, R289). -/
def State.post (s : State) (p : Sent) : State :=
  let (s, p) := State.number s p
  State.depart s p

/-- Whether a packet that has not left is still to be sent: not once its request has failed for lack of a path, nor once
the reset that it announces is over (R288, R306). -/
def State.wanted (s : State) (p : Sent) : Bool :=
  (p.owner.isNone && (p.kind ≠ 8 || p.reply)) || State.unanswered s p

/-- The packets that have waited leave, where they can (R288). -/
def State.release (s : State) : State :=
  (s.unsent.filter (State.wanted s)).foldl State.depart { s with unsent := [] }

/-- A management packet of the island (R361, R362). By which link it leaves before the ports are trained is not stated: it
is sent, and its flits count on the path that R288 gives, if there is one. DESIGN CHOICE: log 97. -/
def State.manage (s : State) (p : Sent) : State :=
  let (s, p) := State.number s p
  if (State.portFor s p).isNone then { s with sent := s.sent ++ [p] } else State.leave 33 s p

/-- Whether a peer number is served as SELF (R287). -/
def State.isSelf (s : State) (peer : Nat) : Bool := peer = 0x1FF || peer = s.fabid

/-- Whether a packet of a peer is from before a reset notice (R306): its count is behind the one that
the notice gave. DEDUCED: log 40. -/
def State.outdated (s : State) (src queue rcnt : Nat) : Bool :=
  match AMap.get? s.notices (256 * src + queue) with
  | none => false
  | some n => (n + 2 ^ 16 - rcnt) % 2 ^ 16 ≠ 0 && (n + 2 ^ 16 - rcnt) % 2 ^ 16 < 2 ^ 15

/-- The messages of a source that the token inbox has begun and not finished are cut off: their WSEQ is not written, and the
next message takes their place in the ring (R268, R277, R306, R355). -/
def State.cutTokens (s : State) (mine : Stream → Bool) : State :=
  { s with streams := s.streams.map fun e => (e.1, if e.2.due && mine e.2 then
      { e.2 with due := false, reply := none, warp := none, wseq := (e.2.wseq + 2 ^ 32 - 1) % 2 ^ 32 } else e.2) }

/-- A DIEEV counter of a die counts one event (R365). -/
def State.tickDie (s : State) (die k : Nat) : State :=
  State.onHealth s die fun h => { h with dieev := h.dieev.modify k fun n => (n + 1) % 2 ^ 48 }

/-- The DIEEV counter of the engine operations, another than that of the dropped packets. DESIGN CHOICE: log 29. -/
def engineEvents : Nat :=
  if Config.engineCounter.val < Config.dropCounter.val then Config.engineCounter.val else Config.engineCounter.val + 1

/-- A packet dropped by a port is counted in its die's event counters (R289, R307, R365). -/
def State.dropPacket (s : State) (port : Nat) : State :=
  State.tickDie s (dieOfPort port) Config.dropCounter.val

/-- A peer's packet as the receiver takes it (R288, R289, R306): on a port that is up; dropped and counted if
its KIND is unknown, its TAG bad or its VER unsupported; dropped if it is from before a reset notice. A
request, a line or a token whose SEQ has been received is a duplicate. DEDUCED: log 40. DESIGN CHOICE: log 96. -/
def State.receive (s : State) (h : PktHdr) (kind : Nat) (k : State → State) : State :=
  if !((AMap.get? s.ports h.port).getD Port.zero).up then s
  else if !h.tagOk || h.kind = 0 || 9 < h.kind || !(h.ver = 1 || h.ver = 2) then
    State.dropPacket s h.port
  else
    let id := (decide (kind = 3), h.src, h.seq)
    if h.kind ≠ kind || State.outdated s h.src h.queue h.rcnt || s.seqs.contains id then s
    else
      let near (e : Bool × Nat × Nat) : Bool :=
        (e.1, e.2.1) ≠ (id.1, id.2.1) || (h.seq + 2 ^ 32 - e.2.2) % 2 ^ 32 < 2 ^ 31
      k { s with seqs := s.seqs.filter near ++ [id] }

end Sys2Proof.Machine
end

