-- ==== Sys2Proof/Machine/Fetch.lean ====
section
/-! DEFINITION. Fetching and running one instruction of a fragment or of a run, and a warp as it
starts. -/
namespace Sys2Proof.Machine

/-- A warp as it starts (R54): launch values in s1 to s7, one fragment of all lanes at offset 0, an
empty spill stack of undefined contents, SPTR at its end. -/
def Warp.fresh (team index nv spillLen seed : Nat) (idem : Bool) (launch : List Word) : Warp :=
  { team := team, index := index,
    sregs := (Warp.setGroup
      { team := team, index := index, sregs := [], vregs := [], preds := [], nv := nv, frags := [],
        exited := 0, queue := [], exec := none, nextRun := 0, reqs := [], nextReq := 0,
        spill := ⟨seed, [], []⟩, spillLen := spillLen, sptr := word spillLen,
        tvec := BitVec.allOnes 32, tctl := 0, tlev := 0, idem := idem, mstat := 0, cych := 0,
        tsbase := 0, tsbaseh := 0, svch := 0, bank1 := Bank.empty, bank2 := Bank.empty,
        async := [], laneTrap := none, killed := false, ended := false } 1 launch).sregs,
    vregs := [], preds := [], nv := nv,
    frags := some { mask := BitVec.allOnes 32, pc := 0, joins := [], hlev := 0, wait := .ready } ::
      List.replicate 31 none,
    exited := 0, queue := [], exec := none, nextRun := 0, reqs := [], nextReq := 0,
    spill := ⟨seed, [], []⟩, spillLen := spillLen, sptr := word spillLen, tvec := BitVec.allOnes 32,
    tctl := 0, tlev := 0, idem := idem, mstat := 0, cych := 0, tsbase := 0, tsbaseh := 0, svch := 0,
    bank1 := Bank.empty, bank2 := Bank.empty, async := [], laneTrap := none, killed := false,
    ended := false }

/-- Whether the team of a warp is resident on its core. -/
def State.resident (s : State) (W : Warp) : Bool :=
  match State.teamOf? s W with
  | some t => t.status = .running
  | none => false

/-- Whether a warp issues anything: its team is resident, it is neither killed nor ended, and an owner that
has resumed has its array again (R211). -/
def State.active (s : State) (W : Warp) : Bool :=
  !W.killed && !W.ended && W.mimage.isNone && State.resident s W

/-- A word of instruction bytes at a virtual address, and whether it is uncorrectable, which counts it (R358); or why it
cannot be fetched: it lies outside every executable mapping, or its translation faults (R73, R75, R330). -/
def State.fetchWord (s : State) (ag : Agent) (asid va : Nat) :
    Except (FetchFault × Nat) (State × Nat × Bool) :=
  match State.mapping? s asid va with
  | none => .error (State.unmappedFetch s ag asid va, va)
  | some _ =>
    match State.translate s ag asid va .fetch with
    | .error f => .error (.xlate f, va)
    | .ok (s, pa) =>
      if Memory.uncorrectable s.main pa 4 then .ok (State.countMain s pa, Memory.read s.main pa 4, true)
      else .ok (s, Memory.read s.main pa 4, false)

/-- The words at a fragment's pc (R73): its first word, and the second of a two-word form, or the
fault of the fetch and its address. -/
def fetchScalar (s : State) (c : Ctx) : Except (FetchFault × Nat) (State × Nat × Option Nat) :=
  let va := State.scalarVA s c.warp c.frag.pc
  let ag := Agent.core (State.coreOf s c.warp)
  let asid := State.asidOf s c.warp
  match State.checkStart s ag asid va false with
  | .error f => .error (f, va)
  | .ok (s, pa) =>
    let w := Memory.read s.main pa 4
    if Memory.uncorrectable s.main pa 4 then .error (.bad, va)
    else if scalarLength w = 2 then
      match State.fetchWord s ag asid (va + 4) with
      | .error f => .error f
      | .ok (s, v, lost) => if lost then .error (.bad, va + 4) else .ok (s, w, some v)
    else .ok (s, w, none)

/-- The slots of a run from a lane address, to its TRAIL, 24 at most, given as fuel (R68). A slot that is uncorrectable
is none that executes; where it stands and where its run ends the scan has established. DESIGN CHOICE: log 84. -/
def fetchSlots (s : State) (ag : Agent) (asid : Nat) : Nat → Nat →
    Except (FetchFault × Nat) (State × List Slot)
  | 0, _ => .ok (s, [])
  | n + 1, va =>
    match State.fetchWord s ag asid va with
    | .error e => .error e
    | .ok (s, w0, l0) =>
      match State.fetchWord s ag asid (va + 4) with
      | .error e => .error e
      | .ok (s, w1, l1) =>
        match State.fetchWord s ag asid (va + 8) with
        | .error e => .error e
        | .ok (s, w2, l2) =>
          let c : Slot := { w0 := w0, w1 := w1, w2 := w2, lost := l0 || l1 || l2 }
          if bits w0 31 22 = 0x3C0 then .ok (s, [c])
          else
            match fetchSlots s ag asid n (va + 12) with
            | .error e => .error e
            | .ok (s, rest) => .ok (s, c :: rest)

/-- The instruction that the fragment at State.cur executes next, or what stops it first. -/
inductive Fetched where
  /-- The fragment cannot issue: nothing happens. -/
  | idle
  /-- A pending trap of the warp is taken, if it can be, before the next instruction (R315). -/
  | pending
  /-- The fetch faults at an address (R73, R330). -/
  | fault (f : FetchFault) (va : Nat)
  /-- The instruction, and State with the fetch's translation gathered and its issue counted (R365). -/
  | instr (i : Instr) (s : State)
  /-- Bytes that are not an instruction. -/
  | bad (r : Reason)

/-- What the scalar stream of a fragment does next. DEDUCED: log 45. -/
def nextScalar (s : State) : Fetched :=
  match State.ctx? s with
  | none => .idle
  | some c =>
    if !State.active s c.warp || !Frag.issuable c.frag c.warp then .idle
    else if Warp.trapDue c.warp then .pending
    else match fetchScalar s c with
      | .error (f, va) => .fault f va
      | .ok (s, w, next) =>
        match decodeScalar w next with
        | .ok i => .instr i (State.tick s (State.coreOf s c.warp) 1)
        | .error r => .bad r

/-- The lane instruction that the run of State.laneCur executes next, if any. -/
def nextLane (s : State) : Option (Except Reason Instr) :=
  (State.warp? s s.laneCur).bind fun W =>
    if !State.active s W then none
    else W.exec.bind fun e =>
      if e.trail.isSome then none
      else (e.entry.code[e.idx]?).bind fun c =>
        if c.lost then none else some (decodeLane c.w0 c.w1 c.w2)

/-- The core and the level of a fragment that claims issue (R111): 1 while it executes a trap handler. -/
def State.claim (s : State) (e : Nat × Nat) : Option (Nat × Bool) :=
  (State.warp? s e.1).bind fun W => (Warp.frag? W e.2).bind fun f =>
    if State.active s W && Frag.issuable f W then some (State.coreOf s W, 1 ≤ f.hlev) else none

/-- How often in a row a fragment has been passed over. -/
def State.age (s : State) (e : Nat × Nat) : Nat :=
  match s.ages.find? fun x => x.1 = e with
  | some x => x.2
  | none => 0

/-- The fragment that a core's arbiter serves next (R111): a level-0 fragment that has been passed over 64
times in a row, else the first of level 1, else the first of level 0, in round-robin order. -/
def State.choice (s : State) (core : Nat) : Option (Nat × Nat) :=
  (s.rr.find? fun e => State.claim s e = some (core, false) && 64 ≤ State.age s e) <|>
    (s.rr.find? fun e => State.claim s e = some (core, true)) <|>
    s.rr.find? fun e => State.claim s e = some (core, false)

/-- Whether a fragment is the one that its core's arbiter serves next. -/
def State.chosen (s : State) (e : Nat × Nat) : Bool :=
  match State.claim s e with
  | some (core, _) => State.choice s core = some e
  | none => false

/-- A fragment served by its core's arbiter (R111): it is last in the round-robin order, and every other
level-0 fragment of the core that claims issue has been passed over once more. -/
def State.issueTo (s : State) (w slot : Nat) : State :=
  match State.claim s (w, slot) with
  | none => s
  | some (core, _) =>
    let ages := s.rr.filterMap fun e =>
      match State.claim s e with
      | some (c, lev) =>
        if c = core then (if e = (w, slot) || lev then none else some (e, State.age s e + 1))
        else if State.age s e = 0 then none else some (e, State.age s e)
      | none => none
    State.rotate { s with ages := ages } w slot

/-- What acts while the hub die is held in reset (R356, R366): the island. -/
def islandEvent : Instr → Bool
  | .boot _ => true
  | .heartbeatSend => true
  | .heartbeatReceive _ => true
  | .partnerSilent _ => true
  | .quorumResetMessage _ => true
  | .thermalWarning => true
  | .thermalTrip => true
  | .powerLoss _ => true
  | _ => false

/-- What the ringmaster cores do, once their firmware is loaded (R343 to R347, R356). -/
def ringmasterEvent : Instr → Bool
  | .packetPrefetch _ => true
  | .nopPacket _ => true
  | .resetPacket _ => true
  | .fetchfence _ => true
  | .signal _ => true
  | .waitsig _ => true
  | .waitsigTimeout _ => true
  | .ib _ => true
  | .ibret _ => true
  | .launchPacket _ => true
  | .nlaunch _ => true
  | .copyPacket _ => true
  | .harvest _ => true
  | .queueWaitEnd _ => true
  | _ => false

/-- Whether an agent may act: before BOOT, and after a trip, a loss of power or a reset of the dies, the island
alone (R356, R364, R366). DESIGN CHOICE: log 71. -/
def State.acts (s : State) (t : Turn) : Bool :=
  match t with
  | .event i => islandEvent i || (s.island.booted && (s.island.loaded || !ringmasterEvent i))
  | _ => s.island.booted

/-- The next turn: the head of the agenda, or, when the agenda is empty, the first fragment of the order
that its core's arbiter serves next (R111, log 1). -/
def State.nextTurn (s : State) : Option (Turn × State) :=
  match s.agenda with
  | t :: rest => some (t, { s with agenda := rest })
  | [] => (s.rr.find? (State.chosen s)).map fun e => (.scalar e.1 e.2, s)

/-- Bytes placed where the next step fetches: a warp of a team of a grid of its own, whose scalar
section (or, for a lane slot, whose executing run) holds exactly that instruction, and the agenda
naming it first, on a device that has booted; its core's arbiter serves no other fragment before it (log 6). -/
def State.placeCode (s : State) (bs : List Byte) (lane : Bool) : State :=
  let w := s.warps.length
  let t := s.teams.length
  let g := s.grids.length
  let va := 0x10000
  let W := Warp.fresh t 0 64 4096 w false []
  let word (k : Nat) : Nat := (wordAt bs k).getD 0
  let run : RunEntry :=
    { run := 0, code := [{ w0 := word 0, w1 := word 1, w2 := word 2 }], await := 0, mask := BitVec.allOnes 32,
      args := [0, 0, 0, 0], seq := 0, lev := 0 }
  let W := if lane then
      { W with nextRun := 1, exec := some { entry := run, live := BitVec.allOnes 32, idx := 0,
                                            latch := [], wbs := [], reqs := [], trail := none } }
    else W
  { s with
    island := { s.island with booted := true, loaded := true },
    agenda := (if lane then .lane w else .scalar w 0) :: s.agenda,
    rr := (w, 0) :: s.rr.filter fun e => (State.claim s e).map (·.1) ≠ some 0,
    warps := s.warps ++ [W],
    teams := s.teams ++
      [{ grid := g, tx := 0, ty := 0, tz := 0, status := .running, core := 0, shm := Memory.empty,
         shLen := 0, warps := [w] }],
    grids := s.grids ++
      [{ asid := 0, depth := 0, scode := va, lcode := va, scr := List.replicate 8 Memory.empty,
         constLo := 0, constHi := 0, argOff := 0, argLen := 0, scrLen := 0, nbhd := false, teams := [t] }],
    main := Memory.writeBytes s.main 0 bs,
    tlb := { agent := .core 0, asid := 0, va := va, size := 0x10000, pa := 0, r := true, w := false,
             x := true, a := true, d := false, leaf := 0 } :: s.tlb,
    execMaps := { asid := 0, va := va, len := 0x10000, lane := false, starts := [0], vhigh := 0 } ::
      s.execMaps }

end Sys2Proof.Machine
end

