-- ==== Sys2Proof/Machine/Num.lean ====
section
/-! DEFINITION. Number formats, rounding and exact sums (R77 to R96).

Values are exact: an extended value is NaN, an infinity, a signed zero, or a non-zero rational given
by its sign and a numerator over a denominator. Every result is one rounding of such a value. -/
namespace Sys2Proof.Machine

/-- An extended value (R77). A finite value has `num` and `den` above zero. -/
inductive Ext where
  | nan
  | inf (neg : Bool)
  | zero (neg : Bool)
  | fin (neg : Bool) (num den : Nat)
  deriving DecidableEq, Repr

/-- A floating-point format (R78): its width, exponent and fraction widths, bias, whether it has
infinities, its largest magnitude as `maxK × 2^maxE`, and its canonical NaN code. -/
structure Fmt where
  bits  : Nat
  E     : Nat
  M     : Nat
  bias  : Nat
  infs  : Bool
  maxK  : Nat
  maxE  : Int
  nan   : Nat
  deriving DecidableEq, Repr

/-- binary64. -/
def Fmt.f64 : Fmt := ⟨64, 11, 52, 1023, true, 2 ^ 53 - 1, 971, 0x7FF8000000000000⟩
/-- binary32. -/
def Fmt.f32 : Fmt := ⟨32, 8, 23, 127, true, 2 ^ 24 - 1, 104, 0x7FC00000⟩
/-- binary16. -/
def Fmt.f16 : Fmt := ⟨16, 5, 10, 15, true, 2 ^ 11 - 1, 5, 0x7E00⟩
/-- bfloat16. -/
def Fmt.bf16 : Fmt := ⟨16, 8, 7, 127, true, 2 ^ 8 - 1, 120, 0x7FC0⟩
/-- E5M2. -/
def Fmt.e5m2 : Fmt := ⟨8, 5, 2, 15, true, 2 ^ 3 - 1, 13, 0x7E⟩
/-- E4M3. -/
def Fmt.e4m3 : Fmt := ⟨8, 4, 3, 7, false, 14, 5, 0x7F⟩
/-- E2M1; it has no NaN, and NaN encodes as zero (R80). -/
def Fmt.e2m1 : Fmt := ⟨4, 2, 1, 1, false, 3, 1, 0⟩

/-- The exponent of the smallest normal value. -/
def Fmt.emin (f : Fmt) : Int := 1 - f.bias

/-- A power of two as a multiplier of a numerator. -/
def pow2 (e : Int) : Nat := 2 ^ e.toNat

/-- The value sign × k × 2^e; zero keeps the sign. -/
def Ext.scaled (neg : Bool) (k : Nat) (e : Int) : Ext :=
  if k = 0 then .zero neg else .fin neg (k * pow2 e) (pow2 (-e))

/-- Decode (R79), but for E2M1's escape, which the block rules read (R90). -/
def decodeF (f : Fmt) (b : Nat) : Ext :=
  let neg := b / 2 ^ (f.bits - 1) % 2 = 1
  let e := b / 2 ^ f.M % 2 ^ f.E
  let t := b % 2 ^ f.M
  if f = Fmt.e4m3 && b % 128 = 127 then .nan
  else if f.infs && e = 2 ^ f.E - 1 then (if t = 0 then .inf neg else .nan)
  else if e = 0 then Ext.scaled neg t (Fmt.emin f - f.M)
  else Ext.scaled neg (2 ^ f.M + t) ((e : Int) - f.bias - f.M)

/-- floor(log2(num / den)). -/
def floorLog2 (num den : Nat) : Int :=
  let e : Int := (Nat.log2 num : Int) - Nat.log2 den
  if num * pow2 (-e) < den * pow2 e then e - 1 else e

/-- Encode (R80) of a value exactly representable in the format. -/
def encodeF (f : Fmt) (y : Ext) : Nat :=
  let sign (neg : Bool) : Nat := if neg then 2 ^ (f.bits - 1) else 0
  match y with
  | .nan => f.nan
  | .inf neg => sign neg + (2 ^ f.E - 1) * 2 ^ f.M
  | .zero neg => if f = Fmt.e2m1 then 0 else sign neg
  | .fin neg num den =>
    let e := max (floorLog2 num den) (Fmt.emin f)
    let k := num * pow2 (f.M - e) / (den * pow2 (e - f.M))
    if k < 2 ^ f.M then sign neg + k
    else sign neg + ((e + f.bias).toNat * 2 ^ f.M + (k - 2 ^ f.M))

/-- The rounding modes (R82). -/
inductive Rnd where
  | rne | rtz | rup | rdn
  deriving DecidableEq, Repr

/-- The rounding mode of fn[1:0] (R65). -/
def rndOfFn (fn : Nat) : Rnd :=
  match fn % 4 with
  | 0 => .rne
  | 1 => .rtz
  | 2 => .rup
  | _ => .rdn

/-- The nearest integer to N / D, ties to even. -/
def nearest (N D : Nat) : Nat :=
  let k := N / D
  let r := N % D
  if 2 * r < D then k else if D < 2 * r then k + 1 else if k % 2 = 0 then k else k + 1

/-- The integer that a mode gives for the magnitude N / D of a sign. -/
def roundInt (m : Rnd) (neg : Bool) (N D : Nat) : Nat :=
  let up := (N + D - 1) / D
  match m with
  | .rne => nearest N D
  | .rtz => N / D
  | .rup => if neg then N / D else up
  | .rdn => if neg then up else N / D

/-- The largest finite value of a sign. -/
def Fmt.max (f : Fmt) (neg : Bool) : Ext := Ext.scaled neg f.maxK f.maxE

/-- Overflow (R82). -/
def overflowF (f : Fmt) (m : Rnd) (neg : Bool) : Ext :=
  if m = .rtz || (m = .rup && neg) || (m = .rdn && !neg) then Fmt.max f neg
  else if f.infs then .inf neg
  else if f = Fmt.e4m3 then .nan
  else Fmt.max f neg

/-- Whether k × 2^e exceeds the format's largest magnitude. -/
def aboveMax (f : Fmt) (k : Nat) (e : Int) : Bool :=
  f.maxK * pow2 (f.maxE - e) < k * pow2 (e - f.maxE)

/-- Round (R82). -/
def roundF (f : Fmt) (m : Rnd) (x : Ext) : Ext :=
  match x with
  | .nan => .nan
  | .zero neg => .zero neg
  | .inf neg =>
    if f.infs then .inf neg else if f = Fmt.e4m3 then .nan else Fmt.max f neg
  | .fin neg num den =>
    let e := max (floorLog2 num den) (Fmt.emin f)
    let k := roundInt m neg (num * pow2 (f.M - e)) (den * pow2 (e - f.M))
    if aboveMax f k (e - f.M) then overflowF f m neg else Ext.scaled neg k (e - f.M)

/-- The order of two extended values that are no NaN: less. Zeros are equal. -/
def Ext.lt (x y : Ext) : Bool :=
  match x, y with
  | .nan, _ => false
  | _, .nan => false
  | .inf a, .inf b => a && !b
  | .inf a, _ => a
  | _, .inf b => !b
  | .zero _, .zero _ => false
  | .zero _, .fin b _ _ => !b
  | .fin a _ _, .zero _ => a
  | .fin a n d, .fin b n' d' =>
    if a && !b then true
    else if !a && b then false
    else if a then n' * d < n * d' else n * d' < n' * d

/-- Equality of decoded values: -0 equals +0, a NaN equals nothing. -/
def Ext.eq (x y : Ext) : Bool :=
  match x, y with
  | .nan, _ => false
  | _, .nan => false
  | _, _ => !Ext.lt x y && !Ext.lt y x

/-- Sat (R83). -/
def satF (f : Fmt) (x : Ext) : Ext :=
  match x with
  | .nan => .nan
  | _ =>
    if Ext.lt (Fmt.max f false) x then Fmt.max f false
    else if Ext.lt x (Fmt.max f true) then Fmt.max f true
    else x

/-- RoundSR (R84). -/
def roundSR (f : Fmt) (x : Ext) (rnd : Nat) : Ext :=
  match x with
  | .nan => .nan
  | .zero neg => .zero neg
  | .inf neg => .inf neg
  | .fin neg num den =>
    let e := max (floorLog2 num den) (Fmt.emin f)
    let N := num * pow2 (f.M - e)
    let D := den * pow2 (e - f.M)
    let k := (N * 65536 + rnd * D) / (D * 65536)
    if aboveMax f k (e - f.M) then .inf neg else Ext.scaled neg k (e - f.M)

/-- The sign of a value changed. -/
def Ext.negate : Ext → Ext
  | .nan => .nan
  | .inf n => .inf (!n)
  | .zero n => .zero (!n)
  | .fin n a b => .fin (!n) a b

/-- An integer as an extended value; zero is +0. -/
def Ext.ofInt (i : Int) : Ext := if i = 0 then .zero false else .fin (i < 0) i.natAbs 1

/-- x + y before rounding (R85); an exact zero sum of opposite signs is -0 under rdn only. -/
def Ext.add (m : Rnd) (x y : Ext) : Ext :=
  match x, y with
  | .nan, _ => .nan
  | _, .nan => .nan
  | .inf a, .inf b => if a = b then .inf a else .nan
  | .inf a, _ => .inf a
  | _, .inf b => .inf b
  | .zero a, .zero b => if a = b then .zero a else .zero (m = .rdn)
  | .zero _, y => y
  | x, .zero _ => x
  | .fin a n d, .fin b n' d' =>
    if a = b then .fin a (n * d' + n' * d) (d * d')
    else
      let p := n * d'
      let q := n' * d
      if p = q then .zero (m = .rdn)
      else if q < p then .fin a (p - q) (d * d') else .fin b (q - p) (d * d')

/-- x × y before rounding (R85). -/
def Ext.mul (x y : Ext) : Ext :=
  match x, y with
  | .nan, _ => .nan
  | _, .nan => .nan
  | .inf a, .inf b => .inf (a != b)
  | .inf _, .zero _ => .nan
  | .zero _, .inf _ => .nan
  | .inf a, .fin b _ _ => .inf (a != b)
  | .fin a _ _, .inf b => .inf (a != b)
  | .zero a, .zero b => .zero (a != b)
  | .zero a, .fin b _ _ => .zero (a != b)
  | .fin a _ _, .zero b => .zero (a != b)
  | .fin a n d, .fin b n' d' => .fin (a != b) (n * n') (d * d')

/-- x / y before rounding (R85). -/
def Ext.div (x y : Ext) : Ext :=
  match x, y with
  | .nan, _ => .nan
  | _, .nan => .nan
  | .inf _, .inf _ => .nan
  | .inf a, .zero b => .inf (a != b)
  | .inf a, .fin b _ _ => .inf (a != b)
  | .zero a, .inf b => .zero (a != b)
  | .fin a _ _, .inf b => .zero (a != b)
  | .zero _, .zero _ => .nan
  | .zero a, .fin b _ _ => .zero (a != b)
  | .fin a _ _, .zero b => .inf (a != b)
  | .fin a n d, .fin b n' d' => .fin (a != b) (n * d') (d * n')

/-- The integer square root, rounded down, found bit by bit from bit `i - 1`. -/
def isqrtBits (n : Nat) : (i acc : Nat) → Nat
  | 0, acc => acc
  | i + 1, acc =>
    let t := acc + 2 ^ i
    if t * t ≤ n then isqrtBits n i t else isqrtBits n i acc

/-- The integer square root, rounded down. -/
def isqrt (n : Nat) : Nat := isqrtBits n (Nat.log2 n / 2 + 1) 0

/-- A value that every rounding to a format treats as √(num / den): exact when the root is rational
at the scale used, else strictly between the two neighbours it lies between, which are finer than
any rounding boundary. -/
def sqrtFin (f : Fmt) (num den : Nat) : Ext :=
  let s := f.M + 4 + Nat.log2 den
  let n := num * 4 ^ s
  let r := isqrt (n / den)
  if r * r * den = n then .fin false r (2 ^ s) else .fin false (2 * r + 1) (2 ^ (s + 1))

/-- √x before rounding to the format (R85). -/
def Ext.sqrt (f : Fmt) (x : Ext) : Ext :=
  match x with
  | .nan => .nan
  | .zero neg => .zero neg
  | .inf neg => if neg then .nan else .inf false
  | .fin neg num den => if neg then .nan else sqrtFin f num den

/-- x × y + z before rounding (R85), formed exactly. -/
def Ext.fma (m : Rnd) (x y z : Ext) : Ext := Ext.add m (Ext.mul x y) z

/-- Encode(Round(x, f, m), f). -/
def roundEnc (f : Fmt) (m : Rnd) (x : Ext) : Nat := encodeF f (roundF f m x)

/-- The format of a float lane type. -/
def fmtOf : LaneTy → Fmt
  | .f16 => Fmt.f16 | .bf16 => Fmt.bf16 | .f64 => Fmt.f64 | .e4m3 => Fmt.e4m3
  | .e5m2 => Fmt.e5m2 | .e2m1 => Fmt.e2m1
  | .f32 => Fmt.f32 | .b32 => Fmt.f32 | .i8 => Fmt.f32 | .i16 => Fmt.f32 | .i32 => Fmt.f32
  | .i64 => Fmt.f32 | .n8 => Fmt.f32 | .n16 => Fmt.f32 | .n32 => Fmt.f32 | .n64 => Fmt.f32
  | .q4 => Fmt.f32 | .q8 => Fmt.f32 | .b64 => Fmt.f32

/-- FMIN (`mx` false) and FMAX of two codes of a format (R85): the chosen operand's bits unchanged,
-0 below +0, the canonical NaN when both are NaN. -/
def minMaxF (f : Fmt) (mx : Bool) (a b : Nat) : Nat :=
  let x := decodeF f a
  let y := decodeF f b
  match x, y with
  | .nan, .nan => f.nan
  | .nan, _ => b
  | _, .nan => a
  | .zero n, .zero n' =>
    if n = n' then a else if n then (if mx then b else a) else (if mx then a else b)
  | _, _ => if Ext.lt x y then (if mx then b else a) else (if mx then a else b)

/-- A float to the nearest integer, ties to even, then clamped; NaN gives 0 (R87). -/
def toIntClamp (x : Ext) (lo hi : Int) : Int :=
  match x with
  | .nan => 0
  | .inf neg => if neg then lo else hi
  | .zero _ => max lo (min 0 hi)
  | .fin neg num den =>
    let k : Int := nearest num den
    max lo (min (if neg then -k else k) hi)

/-- The two's complement reading of the low `w` bits. -/
def toSigned (w n : Nat) : Int :=
  let m := n % 2 ^ w
  if m < 2 ^ (w - 1) then m else (m : Int) - 2 ^ w

/-- An exact integer modulo 2^w (R94). -/
def wrap (w : Nat) (i : Int) : Nat := (i % 2 ^ w).toNat

/-- Quotient truncated toward zero (R95). -/
def quotInt (a b : Int) : Int := Int.tdiv a b

/-- Remainder with the sign of the dividend (R95). -/
def remInt (a b : Int) : Int := Int.tmod a b

/-- The running state of an exact sum (R93): whether a NaN, +inf or -inf has occurred, whether every
term was -0, and the sum of the finite terms as an integer of units of 2^-scale. -/
structure Sum where
  nan    : Bool
  pinf   : Bool
  ninf   : Bool
  allNeg : Bool
  total  : Int
  scale  : Nat
  deriving DecidableEq, Repr

/-- The empty sum. -/
def Sum.empty : Sum := ⟨false, false, false, true, 0, 0⟩

/-- One term more. A finite term's denominator is a power of two. -/
def Sum.push (s : Sum) (x : Ext) : Sum :=
  match x with
  | .nan => { s with nan := true, allNeg := false }
  | .inf neg => if neg then { s with ninf := true, allNeg := false }
                else { s with pinf := true, allNeg := false }
  | .zero neg => { s with allNeg := s.allNeg && neg }
  | .fin neg num den =>
    let k := Nat.log2 den
    let sc := max s.scale k
    let t : Int := num * 2 ^ (sc - k)
    { s with allNeg := false, scale := sc,
             total := s.total * 2 ^ (sc - s.scale) + (if neg then -t else t) }

/-- The value of an exact sum (R93). -/
def Sum.value (s : Sum) : Ext :=
  if s.nan || (s.pinf && s.ninf) then .nan
  else if s.pinf then .inf false
  else if s.ninf then .inf true
  else if s.total = 0 then .zero s.allNeg
  else .fin (s.total < 0) s.total.natAbs (2 ^ s.scale)

/-- E8M0 (R81). -/
def decodeE8M0 (e : Nat) : Ext := if e = 255 then .nan else Ext.scaled false 1 ((e : Int) - 127)

/-- One step of Philox-4x32-10's round function (R142). -/
def philoxRound (c : Nat × Nat × Nat × Nat) (k0 k1 : Nat) : Nat × Nat × Nat × Nat :=
  let p0 := 0xD2511F53 * c.1
  let p1 := 0xCD9E8D57 * c.2.2.1
  (((p1 / 2 ^ 32) ^^^ c.2.1) ^^^ k0, p1 % 2 ^ 32, ((p0 / 2 ^ 32) ^^^ c.2.2.2) ^^^ k1, p0 % 2 ^ 32)

/-- The rounds of Philox-4x32 (R142); the key steps between rounds. -/
def philox : Nat → (Nat × Nat × Nat × Nat) → Nat → Nat → Nat × Nat × Nat × Nat
  | 0, c, _, _ => c
  | n + 1, c, k0, k1 =>
    philox n (philoxRound c k0 k1) ((k0 + 0x9E3779B9) % 2 ^ 32) ((k1 + 0xBB67AE85) % 2 ^ 32)

end Sys2Proof.Machine
end

