-- ==== Sys2Proof/Machine/Copies.lean ====
section
/-! DEFINITION. What the copy unit moves: ends, layouts, units and their order, and the checks of a
transfer (R161 to R170, R174, R178). -/
namespace Sys2Proof.Machine

/-! ### Ends and where they lie -/

/-- Where a byte of an end lies: in on-chip memory, or at a physical address. -/
inductive Where where
  | chip (p : Place)
  | main (pa : Nat)
  deriving DecidableEq, Repr

/-- An end further on by `n` bytes. -/
def End.add (e : End) (n : Nat) : End :=
  match e with
  | .chip sp off => .chip sp (off + n)
  | .main va => .main (va + n)

/-- The offset or virtual address of an end. -/
def End.addr : End → Nat
  | .chip _ off => off
  | .main va => va

/-- An end as FADDR names it: a virtual address, or, on chip, the copy address word (DEDUCED, log 19). -/
def End.name : End → Nat
  | .chip .scratch off => 2 ^ 28 + off
  | .chip _ off => off
  | .main va => va

/-- The end's granule: its first byte. -/
def End.floor : End → End
  | .chip sp off => .chip sp (off / 32 * 32)
  | .main va => .main (va / 32 * 32)

/-- A place moved down to its granule. -/
def Place.floor : Place → Place
  | .team t off => .team t (off / 32 * 32)
  | .scratch g die off => .scratch g die (off / 32 * 32)
  | .spill off => .spill (off / 32 * 32)

/-- The agent that translates for a warp's core (R328). -/
def State.agentOf (s : State) (W : Warp) : Agent := .core (State.coreOf s W)

/-- An end resolved for an access, or its translation fault and address. -/
def State.resolve (s : State) (W : Warp) (e : End) (acc : Access) :
    Except (XlFault × Nat) (State × Where) :=
  match e with
  | .chip sp off => .ok (s, .chip (State.placeOf s W sp off))
  | .main va =>
    match State.translate s (State.agentOf s W) (State.asidOf s W) va acc with
    | .ok (s, pa) => .ok (s, .main pa)
    | .error f => .error (f, va)

/-- Where an end lies now, without an access. -/
def State.peek (s : State) (W : Warp) (e : End) : Option Where :=
  match State.resolve s W e .read with
  | .ok r => some r.2
  | .error _ =>
    match State.resolve s W e .write with
    | .ok r => some r.2
    | .error _ => none

/-- `n` bytes where an end lies, as a number (R3). -/
def State.readWhere (s : State) (w : Nat) (p : Where) (n : Nat) : Nat :=
  match p with
  | .chip p => State.readPlace s w p n
  | .main pa => Memory.read s.main pa n

/-- Whether `n` bytes at a physical address belong to an open forest's array or log (R232). -/
def State.inForest (s : State) (pa n : Nat) : Bool :=
  s.forests.any fun e => e.2.segs.any fun g => g.2.1 < pa + n && pa < g.2.1 + g.2.2

/-- `n` bytes of main memory read by a copy, a GATH or a fabric access: undefined values where they
belong to an open forest (R232). -/
def State.readMain (s : State) (pa n : Nat) : State × Nat :=
  if State.inForest s pa n then State.freeBytes s n else (s, Memory.read s.main pa n)

/-- `n` bytes where an end lies, as an instruction is delivered them: uncorrectable data of on-chip memory
never is (R25), and where the entry states no outcome the instruction completes (R9), with an undefined
value; the die counts it (R358). DESIGN CHOICE: log 14. -/
def State.deliver (s : State) (w : Nat) (p : Where) (n : Nat) : State × Nat :=
  match p with
  | .chip p =>
    if State.badPlace s w p n then State.freeBytes (State.metPlace s w p) n else (s, State.readPlace s w p n)
  | .main pa => State.readMain s pa n

/-- A forest whose bytes have been written while it was open: its state is undefined (R232), its entries and
registers free values from a counter. Its flags, N and CAP stay. DESIGN CHOICE: log 95. -/
def Forest.spoil (F : Forest) (seed : Nat) : Forest :=
  let v (i : Nat) : Nat := (Config.freeWord (seed + i)).toNat
  { F with wild := some (seed + 11), init := false, entries := [], logs := [], classes := v 0, lsize := v 1,
           lroot := v 2, unions := v 3 + 2 ^ 32 * v 10, fill := v 4 % (F.cap + 1), fails := v 5, lastst := v 6, lastel := v 7,
           ls0 := v 8, lr0 := v 9 }

/-- The forests after `n` bytes at a physical address have been written by anyone but their engine (R232). -/
def State.spoilForests (s : State) (pa n : Nat) : State :=
  if State.inForest s pa n then
    s.forests.foldl (fun s e =>
      if e.2.segs.any fun g => g.2.1 < pa + n && pa < g.2.1 + g.2.2 then
        { s with forests := AMap.set s.forests e.1 (Forest.spoil e.2 s.freeCount),
                 freeCount := s.freeCount + 11 + 2 * e.2.n + 2 * e.2.cap }
      else s) s
  else s

/-- The low `n` bytes of a number stored in main memory. -/
def State.putMain (s : State) (pa n v : Nat) : State :=
  let s := State.spoilForests s pa n
  { s with main := Memory.write s.main pa n v }

/-- Bytes stored in main memory. -/
def State.putMainBytes (s : State) (pa : Nat) (bs : List Byte) : State :=
  let s := State.spoilForests s pa bs.length
  { s with main := Memory.writeBytes s.main pa bs }

/-- The low `n` bytes of a number stored where an end lies. -/
def State.writeWhere (s : State) (w : Nat) (p : Where) (n v : Nat) : State :=
  match p with
  | .chip p => State.writePlace s w p n v
  | .main pa => State.putMain s pa n v

/-- Whether the granule of a place is uncorrectable. -/
def State.badGranule (s : State) (w : Nat) (p : Where) : Bool :=
  match p with
  | .chip p => State.badPlace s w (Place.floor p) 32
  | .main pa => Memory.uncorrectable s.main (pa / 32 * 32) 32

/-- A request meets an uncorrectable granule: its die counts it, and an address of main memory is logged (R358). -/
def State.metWhere (s : State) (w : Nat) (p : Where) : State :=
  match p with
  | .chip p => State.metPlace s w p
  | .main pa => State.countMain s pa

/-- Whether two places of `n` and `m` bytes share a byte. -/
def placesMeet (p : Place) (n : Nat) (q : Place) (m : Nat) : Bool :=
  match p, q with
  | .team t a, .team u b => t = u && a < b + m && b < a + n
  | .scratch g d a, .scratch h e b => g = h && d = e && a < b + m && b < a + n
  | .spill a, .spill b => a < b + m && b < a + n
  | _, _ => false

/-- Whether two ranges of bytes meet. -/
def Where.meets (p : Where) (n : Nat) (q : Where) (m : Nat) : Bool :=
  match p, q with
  | .chip p, .chip q => placesMeet p n q m
  | .main a, .main b => a < b + m && b < a + n
  | _, _ => false

/-! ### Bytes of uncovered matrix operations (R33, R204) -/

/-- Whether `len` bytes from an end share a byte with `n` bytes at a place; a range of main memory page by
page. -/
def State.rangeMeets (s : State) (W : Warp) (e : End) (len : Nat) (p : Where) (n : Nat) : Bool :=
  match e with
  | .chip sp off => Where.meets (.chip (State.placeOf s W sp off)) len p n
  | .main va =>
    (List.range ((va + len - 1) / 65536 + 1 - va / 65536)).any fun k =>
      let lo := Max.max va (65536 * (va / 65536 + k))
      let hi := Min.min (va + len) (65536 * (va / 65536 + k + 1))
      match State.peek s W (.main lo) with
      | some q => Where.meets q (hi - lo) p n
      | none => false

/-- Whether `n` bytes that request `id` of a warp accesses belong to a matrix operation of the warp that has issued, unless
the request comes after an MWAIT covering the operation: the access then gives undefined values (R33, R204). -/
def State.hidden (s : State) (W : Warp) (id : Nat) (p : Where) (n : Nat) : Bool :=
  W.mtouch.any fun t => t.below.all (fun k => decide (id < k)) && State.rangeMeets s W t.at_ t.len p n

/-- `n` bytes that request `id` of a warp reads. -/
def State.load (s : State) (w : Nat) (W : Warp) (id : Nat) (p : Where) (n : Nat) : State × Nat :=
  if State.hidden s W id p n then State.freeBytes s n else State.deliver s w p n

/-- `n` bytes that request `id` of a warp writes. -/
def State.store (s : State) (w : Nat) (W : Warp) (id : Nat) (p : Where) (n v : Nat) : State :=
  if State.hidden s W id p n then
    let (s, u) := State.freeBytes s n
    State.writeWhere s w p n u
  else State.writeWhere s w p n v

/-- Where the byte `i` bytes further on lies. -/
def Where.add (p : Where) (i : Nat) : Where :=
  match p with
  | .chip (.team t off) => .chip (.team t (off + i))
  | .chip (.scratch g die off) => .chip (.scratch g die (off + i))
  | .chip (.spill off) => .chip (.spill (off + i))
  | .main pa => .main (pa + i)

/-- `n` bytes that a transfer writes: a byte that lies in its source range of `len` bytes as well is left
undefined (R168). -/
def State.storeOver (s : State) (w : Nat) (W : Warp) (id : Nat) (src : End) (len : Nat) (p : Where)
    (n v : Nat) : State :=
  if State.rangeMeets s W src len p n then
    (List.range n).foldl (fun s i =>
      let q := Where.add p i
      if State.rangeMeets s W src len q 1 then
        let (s, u) := State.freeBytes s 1
        State.writeWhere s w q 1 u
      else State.store s w W id q 1 (v / 256 ^ i % 256)) s
  else State.store s w W id p n v

/-! ### Tiles (R164) -/

/-- The number of tiles along x. -/
def TileBind.ntx (b : TileBind) : Nat := (b.ex + b.tx - 1) / b.tx
/-- The number of tiles along y. -/
def TileBind.nty (b : TileBind) : Nat := (b.ey + b.ty - 1) / b.ty
/-- The number of tiles along z. -/
def TileBind.ntz (b : TileBind) : Nat := (b.ez + b.tz - 1) / b.tz
/-- The number of tiles. -/
def TileBind.count (b : TileBind) : Nat := TileBind.ntx b * TileBind.nty b * TileBind.ntz b
/-- The elements of a tile. -/
def TileBind.elems (b : TileBind) : Nat := b.tx * b.ty * b.tz
/-- The element size in bytes. -/
def TileBind.es (b : TileBind) : Nat := 2 ^ b.esz

/-- Bits of x in even positions and of y in odd positions. -/
def zOrder (x y : Nat) : Nat :=
  (List.range 16).foldl (fun m i => m + (x / 2 ^ i % 2) * 4 ^ i + (y / 2 ^ i % 2) * (2 * 4 ^ i)) 0

/-- The element of traversal index e in tile n (R164): its on-chip offset, its main-memory address,
and whether it is inside the tensor. -/
def TileBind.element (b : TileBind) (n e : Nat) : Nat × Nat × Bool :=
  let es := TileBind.es b
  let nbx := b.tx / b.bx
  let nby := b.ty / b.byy
  let tx := n % TileBind.ntx b
  let ty := n / TileBind.ntx b % TileBind.nty b
  let tz := n / (TileBind.ntx b * TileBind.nty b)
  let ex := e % b.tx
  let ey := e / b.tx % b.ty
  let ez := e / (b.tx * b.ty)
  let bx := ex / b.bx
  let ix := ex % b.bx
  let byy := ey / b.byy
  let iy := ey % b.byy
  let blk := if b.outer = 0 then byy * nbx + bx else if b.outer = 1 then bx * nby + byy
    else zOrder bx byy
  let inn := if b.inner = 0 then iy * b.bx + ix else ix * b.byy + iy
  let o := (ez * b.tx * b.ty + blk * b.bx * b.byy + inn) * es
  let o := o ^^^ (o / 128 % 2 ^ b.swz * 16)
  let x := tx * b.tx + ex
  let y := ty * b.ty + ey
  let z := tz * b.tz + ez
  (o, b.base + z * b.sz + y * b.sy + x * es, x < b.ex && y < b.ey && z < b.ez)

/-- Whether a layout record's fields keep R162, PTR apart. -/
def TileBind.ok (b : TileBind) : Bool :=
  b.esz ≤ 3 && b.outer ≤ 2 && b.inner ≤ 1 && b.swz ≤ 3 &&
  1 ≤ b.ex && b.ex ≤ 2 ^ 31 && 1 ≤ b.ey && b.ey ≤ 2 ^ 31 && 1 ≤ b.ez && b.ez ≤ 2 ^ 31 &&
  1 ≤ b.tx && 1 ≤ b.ty && 1 ≤ b.tz && 1 ≤ b.bx && 1 ≤ b.byy &&
  b.tx % b.bx = 0 && b.ty % b.byy = 0 && b.tx * TileBind.es b % 32 = 0 &&
  b.sy % 32 = 0 && b.sy < 2 ^ 57 && b.sz % 32 = 0 && b.sz < 2 ^ 57 &&
  TileBind.elems b * TileBind.es b ≤ 2 ^ 24 && TileBind.count b ≤ 2 ^ 28 &&
  (b.outer != 2 || (b.tx / b.bx = b.ty / b.byy && (List.range 17).any fun k => b.tx / b.bx = 2 ^ k))

/-- The layout record of 64 bytes (R162), without a base, and its PTR. -/
def TileBind.ofRecord (r : Nat) : TileBind × Nat :=
  ({ base := 0, esz := bits r 35 32, outer := bits r 39 36, inner := bits r 43 40,
     swz := bits r 47 44, ex := bits r 95 64, ey := bits r 127 96, ez := bits r 159 128,
     tx := bits r 175 160, ty := bits r 191 176, tz := bits r 207 192, bx := bits r 215 208,
     byy := bits r 223 216, sy := bits r 383 320, sz := bits r 447 384 }, bits r 31 0)

/-- Whether the reserved fields of a layout record are zero (R162). -/
def layoutReserved (r : Nat) : Bool := bits r 511 448 = 0 && bits r 319 224 = 0 && bits r 63 48 = 0

/-! ### Pieces: linear and tiled transfers (R168) -/

/-- The bytes of a unit: a word, or an element. -/
def Piece.unitBytes (p : Piece) : Nat :=
  match p.tile with
  | none => 4
  | some (b, _) => TileBind.es b

/-- The number of units. -/
def Piece.total (p : Piece) : Nat :=
  match p.tile with
  | none => p.size / 4
  | some (b, _) => TileBind.elems b

/-- Unit u in traversal order: where it is written, and where it is read (`none`: zero is written).
A store skips an element outside the tensor (R164). -/
def Piece.unit (p : Piece) (u : Nat) : Option (End × Option End) :=
  match p.tile with
  | none => some (End.add p.dst (4 * u), some (End.add p.src (4 * u)))
  | some (b, n) =>
    let (o, m, inside) := TileBind.element b n u
    match p.dst with
    | .chip sp off => some (.chip sp (off + o), if inside then some (.main m) else none)
    | .main _ => if inside then some (.main m, some (End.add p.src o)) else none

/-- The granule that unit u is written to, if it still has to be written. -/
def Piece.remaining (p : Piece) (u : Nat) : Option Nat :=
  if u < p.start then none
  else match Piece.unit p u with
    | none => none
    | some (d, _) => if p.done.contains (End.addr d / 32) then none else some (End.addr d / 32)

/-- The progress in units: the leading ones that have all been written (R178). -/
def Piece.progress (p : Piece) : Nat :=
  ((List.range (Piece.total p)).find? fun u => (Piece.remaining p u).isSome).getD (Piece.total p)

/-- The bytes that the progress stands for (R171). -/
def Piece.bytes (p : Piece) : Nat := Piece.progress p * Piece.unitBytes p

/-- Whether every unit has been written. -/
def Piece.finished (p : Piece) : Bool := Piece.progress p = Piece.total p

/-- A piece stopped at its progress, from which it resumes (R179, R180): granules that have been written stay written,
and are not written again, since a later copy of the warp may have followed (R174). -/
def Piece.rewind (p : Piece) : Piece := { p with start := Piece.progress p }

/-- What a unit of work meets when it cannot be performed. -/
inductive MoveFail where
  /-- A translation fault. -/
  | xlate (f : XlFault) (va : Nat)
  /-- An uncorrectable granule: where, and the name of its first byte. -/
  | unc (p : Where) (faddr : Nat)
  deriving DecidableEq, Repr

/-- A source read of request `id`: `n` bytes at an end, unless it faults or its granule is uncorrectable. -/
def State.readEnd (s : State) (w : Nat) (W : Warp) (id : Nat) (e : End) (n : Nat) :
    Except MoveFail (State × Nat) :=
  match State.resolve s W e .read with
  | .error (f, va) => .error (.xlate f va)
  | .ok (s, p) =>
    if State.badGranule s w p then .error (.unc p (End.name (End.floor e)))
    else .ok (State.load s w W id p n)

/-- A destination resolved for a write. -/
def State.target (s : State) (W : Warp) (e : End) : Except MoveFail (State × Where) :=
  match State.resolve s W e .write with
  | .error (f, va) => .error (.xlate f va)
  | .ok r => .ok r

/-- What units read, by number, each unless it has been read before, or what stops them. -/
def State.readUnits (w : Nat) (W : Warp) (id n : Nat) :
    State → List (Nat × End) → Except MoveFail (State × AMap Nat)
  | s, [] => .ok (s, [])
  | s, (u, e) :: rest =>
    match State.readEnd s w W id e n with
    | .error f => .error f
    | .ok (s, v) =>
      match State.readUnits w W id n s rest with
      | .error f => .error f
      | .ok (s, vs) => .ok (s, (u, v) :: vs)

/-- The writes that a list of units makes, all reads first, or what stops them. A unit of `saved` has been read. -/
def State.gatherUnits (w : Nat) (W : Warp) (id n : Nat) (saved : AMap Nat) :
    State → List (Nat × End × Option End) → Except MoveFail (State × List (Where × Nat))
  | s, [] => .ok (s, [])
  | s, (u, d, e) :: rest =>
    let src := match e, AMap.get? saved u with
      | none, _ => Except.ok (s, 0)
      | some _, some v => Except.ok (s, v)
      | some e, none => State.readEnd s w W id e n
    match src with
    | .error f => .error f
    | .ok (s, v) =>
      match State.target s W d with
      | .error f => .error f
      | .ok (s, p) =>
        match State.gatherUnits w W id n saved s rest with
        | .error f => .error f
        | .ok (s, ws) => .ok (s, (p, v) :: ws)

/-- The writes of a piece's units, of request `id`: those of a linear transfer whose ranges overlap leave
undefined values in the overlap (R168). -/
def State.writeUnits (s : State) (w : Nat) (W : Warp) (id : Nat) (p : Piece) (ws : List (Where × Nat)) :
    State :=
  ws.foldl (fun s x => State.storeOver s w W id p.src (if p.tile.isNone then p.size else 0) x.1
    (Piece.unitBytes p) x.2) s

/-- The units of a piece that are still to be written in a granule, with their numbers. -/
def Piece.inGranule (p : Piece) (g : Nat) : List (Nat × End × Option End) :=
  (List.range (Piece.total p)).filterMap fun u =>
    if Piece.remaining p u = some g then (Piece.unit p u).map fun x => (u, x) else none

/-- What a piece still reads and writes: place, bytes, and whether it is written. -/
def Piece.touches (s : State) (W : Warp) (p : Piece) : List (Where × Nat × Bool) :=
  let n := Piece.unitBytes p
  (List.range (Piece.total p)).flatMap fun u =>
    if (Piece.remaining p u).isNone then []
    else match Piece.unit p u with
      | none => []
      | some (d, e) =>
        ((State.peek s W d).toList.map fun x => (x, n, true)) ++
          (((if (AMap.get? p.saved u).isSome then none else e).bind (State.peek s W)).toList.map fun x =>
            (x, n, false))

/-! ### The checks of a transfer (R161, R167) -/

/-- The bound check of an on-chip range of `n` bytes, or its cause (R103, R167). -/
def State.chipRange (s : State) (W : Warp) (sp : Space) (off n : Nat) : Option Nat :=
  match sp with
  | .shared =>
    match State.sharedAt s W off with
    | some (_, x, len) => if x + n ≤ len then none else some (causeCode 3 0)
    | none => some (causeCode 3 0)
  | .scratch =>
    match State.gridOf? s W with
    | some g => if off + n ≤ g.scrLen then none else some (causeCode 3 1)
    | none => some (causeCode 3 1)
  | .spill => if off + n ≤ W.spillLen then none else some (causeCode 3 6)

/-- Whether a range written in the scratchpad lies partly in .const (R52). -/
def State.constRange (s : State) (W : Warp) (sp : Space) (off n : Nat) : Bool :=
  match sp, State.gridOf? s W with
  | .scratch, some g => 0 < n && g.constLo < g.constHi && off < g.constHi && g.constLo < off + n
  | _, _ => false

/-- The bound check of an end. -/
def State.endRange (s : State) (W : Warp) (e : End) (n : Nat) : Option Nat :=
  match e with
  | .chip sp off => State.chipRange s W sp off n
  | .main _ => none

/-- Whether a destination lies partly in .const. -/
def State.endConst (s : State) (W : Warp) (e : End) (n : Nat) : Bool :=
  match e with
  | .chip sp off => State.constRange s W sp off n
  | .main _ => false

/-- The on-chip end that an address word names (R161). -/
def chipEnd (x : Nat) : Option End :=
  if bits x 31 28 = 0 then some (.chip .shared (bits x 27 0))
  else if bits x 31 28 = 1 then some (.chip .scratch (bits x 27 0))
  else none

/-- Whether an address word's SPACE is a location (R161). -/
def spaceOk (x : Nat) : Bool := bits x 31 28 ≤ 2

/-- Whether an address word names main memory. -/
def inMain (x : Nat) : Bool := bits x 31 28 = 2

/-- The end of an address word, main memory from a base (R161). -/
def endOf (base x : Nat) : End := (chipEnd x).getD (.main (base + bits x 27 0))

/-- The first of a list of failed checks: cause and TVAL. -/
def firstFailed : List (Bool × Nat × Nat) → Option (Nat × Nat)
  | [] => none
  | (bad, cause, tval) :: rest => if bad then some (cause, tval) else firstFailed rest

/-- The handles of a warp's team. -/
def State.handle? (s : State) (W : Warp) (h : Nat) : Option TileBind :=
  (State.teamOf? s W).bind fun t => AMap.get? t.handles h

/-- A range check as an entry of a list of checks; a range of no bytes passes it (R167). -/
def rangeCheck (s : State) (W : Warp) (e : End) (n x : Nat) : Bool × Nat × Nat :=
  match if n = 0 then none else State.endRange s W e n with
  | some cause => (true, cause, x)
  | none => (false, 0, 0)

/-- The checks of a LIN transfer, and the transfer (R167). Which word TVAL names when several fail one row: DESIGN CHOICE:
log 108. -/
def State.checkLin (s : State) (W : Warp) (dw sw hw : Nat) : Except (Nat × Nat) Piece :=
  let main := inMain dw || inMain sw
  let h := bits hw 29 24
  let size := bits hw 23 0
  let b := State.handle? s W h
  let base := match b with
    | some b => b.base
    | none => 0
  let d := endOf base dw
  let e := endOf base sw
  match firstFailed
    [(!spaceOk dw, causeCode 4 0, dw), (!spaceOk sw, causeCode 4 0, sw),
     (bits hw 31 30 ≠ 0 || (!main && h ≠ 0), causeCode 4 0, hw),
     (main && b.isNone, causeCode 4 1, if inMain dw then dw else sw),
     (dw % 4 ≠ 0, causeCode 4 3, dw), (sw % 4 ≠ 0, causeCode 4 3, sw),
     (size % 4 ≠ 0, causeCode 4 3, hw),
     rangeCheck s W d size dw, rangeCheck s W e size sw,
     (State.endConst s W d size, causeCode 3 2, dw)] with
  | some f => .error f
  | none => .ok { dst := d, src := e, tile := none, size := size, start := 0, done := [] }

/-- The checks of a TILE transfer, and the transfer (R167). TVAL where not exactly one side is in main memory, and which
word it names when several fail one row: DESIGN CHOICE: log 108. -/
def State.checkTile (s : State) (W : Warp) (dw sw hw : Nat) : Except (Nat × Nat) Piece :=
  let main := inMain dw || inMain sw
  let b := State.handle? s W (bits hw 29 24)
  let mw := if inMain dw then dw else sw
  let cw := if inMain dw then sw else dw
  match firstFailed
    [(!spaceOk dw, causeCode 4 0, dw), (!spaceOk sw, causeCode 4 0, sw),
     (bits hw 31 30 ≠ 0 || bits hw 23 0 ≠ 0, causeCode 4 0, hw),
     (main && b.isNone, causeCode 4 1, mw),
     (inMain dw == inMain sw, causeCode 4 2, dw)] with
  | some f => .error f
  | none =>
    match b with
    | none => .error (causeCode 4 1, mw)
    | some b =>
      let n := bits mw 27 0
      let bytes := TileBind.elems b * TileBind.es b
      let c := (chipEnd cw).getD (.chip .shared 0)
      match firstFailed
        [(TileBind.count b ≤ n, causeCode 4 2, mw),
         (bits cw 27 0 % (if 0 < b.swz then 128 else 32) ≠ 0, causeCode 4 3, cw),
         rangeCheck s W c bytes cw,
         (inMain sw && State.endConst s W c bytes, causeCode 3 2, dw)] with
      | some f => .error f
      | none =>
        .ok { dst := if inMain dw then .main b.base else c,
              src := if inMain sw then .main b.base else c,
              tile := some (b, n), size := bytes, start := 0, done := [] }

/-- The record that a ring takes next. -/
def Ring.next (r : Ring) (i : Nat) : Nat := (r.start + i) % r.len

/-- A ring's record of 16 bytes checked as a CPY (R168): its transfer, or the cause. -/
def State.checkRecord (s : State) (W : Warp) (x : Nat) : Except Nat Piece :=
  let mw := bits x 127 96
  let go := if mw = 1 then State.checkTile s W (bits x 31 0) (bits x 63 32) (bits x 95 64)
    else State.checkLin s W (bits x 31 0) (bits x 63 32) (bits x 95 64)
  if 2 ≤ mw then .error (causeCode 4 0)
  else match go with
    | .error (cause, _) => .error cause
    | .ok p => .ok p

/-- What a ring still reads and writes, as its records now read. -/
def Ring.touches (s : State) (w : Nat) (W : Warp) (r : Ring) : List (Where × Nat × Bool) :=
  let cur := match r.cur with
    | some p => Piece.touches s W p
    | none => []
  let later := (List.range r.count).filter fun i => r.pos + (if r.cur.isSome then 1 else 0) ≤ i
  cur ++ later.flatMap fun i =>
    (State.peek s W (End.add r.at_ (16 * Ring.next r i))).toList.flatMap fun x => (x, 16, false) ::
      match State.checkRecord s W (State.readWhere s w x 16) with
      | .ok p => Piece.touches s W p
      | .error _ => []

/-! ### Level transfers: points and taps (R183, R184) -/

/-- The format of a code (R182). -/
def gridFmt : Nat → Fmt
  | 0 => Fmt.f64
  | 1 => Fmt.f32
  | 2 => Fmt.f16
  | _ => Fmt.bf16

/-- The element size of a code (R182). -/
def gridEs : Nat → Nat
  | 0 => 8
  | 1 => 4
  | _ => 2

/-- The number of points of a level. -/
def Grid3.count (g : Grid3) : Nat := g.nx * g.ny * g.nz

/-- The offset of a point of a level. -/
def Grid3.at_ (g : Grid3) (x y z : Nat) : Nat := z * g.sz + y * g.sy + x * gridEs g.fmt

/-- Destination point p in traversal order (R184). -/
def Level.point (l : Level) (p : Nat) : Nat × Nat × Nat :=
  (p % l.dg.nx, p / l.dg.nx % l.dg.ny, p / (l.dg.nx * l.dg.ny))

/-- The end of a destination point. -/
def Level.dstAt (l : Level) (p : Nat) : End :=
  let (x, y, z) := Level.point l p
  End.add l.dst (Grid3.at_ l.dg x y z)

/-- A component of a source index resolved by the boundary rule (R183). -/
def resolveIndex (bnd : Nat) (j : Int) (n : Nat) : Option Nat :=
  if 0 ≤ j && j < n then some j.toNat
  else if bnd = 0 then none
  else if bnd = 1 then some (Min.min (Max.max j 0) (n - 1)).toNat
  else some (j % (n : Int)).toNat

/-- The taps of a destination point that read a source point: its end and the weight (R183). -/
def Level.taps (l : Level) (p : Nat) : List (End × Word) :=
  let (x, y, z) := Level.point l p
  let base (c : Nat) : Int := if l.kind = 1 then (c / 2 : Nat) else (2 * c : Nat)
  let cls := if l.kind = 1 then x % 2 + 2 * (y % 2) + 4 * (z % 2) else 0
  let list := if l.kind = 2 then [{ dz := 0, dy := 0, dx := 0, w := 0x3F800000 : Tap }]
    else (l.table[cls]?).getD []
  list.filterMap fun t =>
    match resolveIndex l.bnd (base x + t.dx) l.sg.nx, resolveIndex l.bnd (base y + t.dy) l.sg.ny,
      resolveIndex l.bnd (base z + t.dz) l.sg.nz with
    | some jx, some jy, some jz => some (End.add l.src (Grid3.at_ l.sg jx jy jz), t.w)
    | _, _, _ => none

/-- What the next point of a transfer reads and writes. -/
def Level.pointTouches (s : State) (W : Warp) (l : Level) : List (Where × Nat × Bool) :=
  ((State.peek s W (Level.dstAt l l.pos)).toList.map fun x => (x, gridEs l.dg.fmt, true)) ++
    (Level.taps l l.pos).flatMap fun t =>
      (State.peek s W t.1).toList.map fun x => (x, gridEs l.sg.fmt, false)

/-- What a transfer has still to read and write. -/
def Level.touches (s : State) (W : Warp) (l : Level) : List (Where × Nat × Bool) :=
  (List.range (Grid3.count l.dg)).flatMap fun p =>
    if p < l.pos then []
    else ((State.peek s W (Level.dstAt l p)).toList.map fun x => (x, gridEs l.dg.fmt, true)) ++
      (Level.taps l p).flatMap fun t =>
        (State.peek s W t.1).toList.map fun x => (x, gridEs l.sg.fmt, false)

/-! ### Order within a warp (R104, R174) -/

/-- The element size of an EQREL (R244). -/
def EqRel.es (e : EqRel) : Nat := if e.fn < 2 then 4 else if e.et < 3 then 4 else 8

/-- What an EQREL still reads and writes: the source elements not yet read, and as many destination elements
as it may have, those of written granules apart (R245). -/
def EqRel.touches (s : State) (W : Warp) (e : EqRel) : List (Where × Nat × Bool) :=
  let es := EqRel.es e
  let n := match e.roots, AMap.get? s.forests e.forest with
    | some roots, _ => roots.length
    | none, some F => F.n
    | none, none => 0
  let k := if 2 ≤ e.fn && e.roots.isSome then e.classes.length else n
  let at_ (x : End) (i : Nat) (wr : Bool) : List (Where × Nat × Bool) :=
    (State.peek s W (End.add x (i * es))).toList.map fun p => (p, es, wr)
  ((List.range k).flatMap fun i =>
      if e.done.contains ((End.addr e.dst + i * es) / 32) then [] else at_ e.dst i true) ++
    (List.range n).flatMap fun i => if 2 ≤ e.fn && e.pos ≤ i then at_ e.src i false else []

/-- What a copy command still reads and writes. -/
def CopyCmd.touches (s : State) (w : Nat) (W : Warp) (c : CopyCmd) : List (Where × Nat × Bool) :=
  match c.stop with
  | .failed _ _ _ => []
  | .running | .faulted _ _ =>
    match c.work with
    | .piece p => Piece.touches s W p
    | .ring r => Ring.touches s w W r
    | .level l => Level.touches s W l
    | .eqrel e => EqRel.touches s W e

/-- What a copy, an EQREL, a GATH or a SCAT still reads and writes. -/
def Req.touches (s : State) (w : Nat) (W : Warp) (r : Req) : List (Where × Nat × Bool) :=
  match r.op with
  | .gath _ _ => r.todo.map fun it => (.main it.x.toNat, 32, false)
  | .scat => r.todo.map fun it => (.main it.x.toNat, 32, true)
  | .copy c => if r.done then [] else CopyCmd.touches s w W c
  | _ => []

/-- Whether two accesses must keep their order: they share a byte and one is a write. -/
def clash (a b : Where × Nat × Bool) : Bool :=
  (a.2.2 || b.2.2) && Where.meets a.1 a.2.1 b.1 b.2.1

/-- The binding and tile that an operation fetches through, if it does. -/
def MWork.handle? : MWork → Option (TileBind × Nat)
  | .mblTile _ b n => some (b, n)
  | .mmaTile _ b n _ _ => some (b, n)
  | _ => none

/-- What a matrix operation's handle fetch still reads: it is ordered as a copy issued at the same
moment (R204). -/
def MOp.fetchReads (s : State) (W : Warp) (o : MOp) : List (Where × Nat × Bool) :=
  match MWork.handle? o.work with
  | none => []
  | some (b, n) =>
    (List.range (TileBind.elems b)).flatMap fun e =>
      let (off, m, inside) := TileBind.element b n e
      if inside && (AMap.get? o.img (off / 32)).isNone then
        (State.peek s W (.main m)).toList.map fun p => (p, TileBind.es b, false)
      else []

/-- The unretired matrix operations on a warp's core. -/
def State.matrixOps (s : State) (W : Warp) : List MOp :=
  match AMap.get? s.arrays (State.coreOf s W) with
  | some a => a.ops
  | none => []

/-- Whether accesses of request `id` wait for an earlier copy, EQREL, GATH or SCAT of the warp, a handle
fetch, or an SSAVE or SREST that issued before it (R104, R174, R204, R247, R323). -/
def State.cpBlocked (s : State) (w : Nat) (W : Warp) (id : Nat) (mine : List (Where × Nat × Bool)) :
    Bool :=
  (W.reqs.any fun q => q.id < id &&
    (Req.touches s w W q).any fun a => mine.any (clash a)) ||
  ((State.matrixOps s W).any fun o => o.w = w && o.cp ≤ id &&
    (MOp.fetchReads s W o).any fun a => mine.any (clash a)) ||
  (Warp.live W).any fun f =>
    match f.2.wait with
    | .save load va limit => limit ≤ id &&
      match State.peek s W (.main va) with
      | some p => mine.any (clash (p, 512, !load))
      | none => false
    | _ => false

/-! ### Local requests and their order (R104, R158) -/

/-- The space and the width of a request's accesses, if it accesses local memory. -/
def ReqOp.access : ReqOp → Option (Space × Nat)
  | .load sp t _ => some (sp, tyBytes t)
  | .store sp n => some (sp, n)
  | .atomic sp _ t _ => some (sp, tyBytes t)
  | .sload sp _ _ => some (sp, 4)
  | .sstore sp => some (sp, 4)
  | .cross => none
  | .gath _ _ => none
  | .scat => none
  | .copy _ => none
  | .eq _ _ _ => none
  | .unite _ _ => none
  | .find _ _ => none
  | .fax _ _ _ _ _ => none
  | .toksend _ _ _ _ _ => none
  | .fmc _ => none

/-- Whether an unperformed access of a request of the warp before `limit` on a space's path names some
of `n` bytes (R104). -/
def State.localPending (s : State) (W : Warp) (sp : Space) (x n limit : Nat) : Bool :=
  let p := State.placeOf s W sp x
  W.reqs.any fun q => q.id < limit && q.path = Space.path sp &&
    match ReqOp.access q.op with
    | none => false
    | some (sp', m) => q.todo.any fun it => placesMeet p n (State.placeOf s W sp' it.addr.toNat) m

/-- What an instruction reads on chip at its issue. -/
inductive ChipRead where
  | ok (s : State) (v : Nat)
  /-- An earlier request of the warp to these bytes is not yet performed (R104). -/
  | later

/-- Whether such a read gives an undefined value (R6): the bytes belong to a matrix operation (R33), or are uncorrectable
(log 14). An undefined value never causes a trap. -/
def State.openRead (s : State) (w : Nat) (W : Warp) (sp : Space) (x n limit : Nat) : Bool :=
  let p := State.placeOf s W sp x
  State.hidden s W limit (.chip p) n || State.badPlace s w p n

/-- `n` bytes read as a load of the warp issued after the requests before `limit` (R104). -/
def State.chipRead (s : State) (w : Nat) (W : Warp) (sp : Space) (x n limit : Nat) : ChipRead :=
  if State.localPending s W sp x n limit then .later
  else
    let (s, v) := State.load s w W limit (.chip (State.placeOf s W sp x)) n
    .ok s v

end Sys2Proof.Machine
end

