-- ==== Sys2Proof/Machine/Operands.lean ====
section
/-! DEFINITION. The operand forms of lane instructions (R61, R119, R120, R127) and how a lane
instruction leaves its result in its run (R20, R121). -/
namespace Sys2Proof.Machine

/-- The i types, read as two's complement. -/
def signedTy (t : LaneTy) : Bool := t = .i8 || t = .i16 || t = .i32 || t = .i64

/-- The floating-point types. -/
def floatTy (t : LaneTy) : Bool :=
  flTys.contains t || t = .e4m3 || t = .e5m2 || t = .e2m1

/-- The run that executes a lane instruction, with its warp. -/
structure LaneCtx where
  w    : Nat
  warp : Warp
  ex   : RunExec

/-- The executing run that State.laneCur names. -/
def State.laneCtx? (s : State) : Option LaneCtx :=
  (State.warp? s s.laneCur).bind fun W =>
    W.exec.bind fun e => if e.trail.isSome then none else some ⟨s.laneCur, W, e⟩

/-- A lane meaning over the executing run; without one, a refusal that step never meets. -/
def withRun (s : State) (k : LaneCtx → Out State) : Out State :=
  match State.laneCtx? s with
  | some c => k c
  | none => .refused .noRun

/-- Whether the guard is true in a lane (R63), read from committed state (R120). -/
def LaneCtx.guard (c : LaneCtx) (o : LaneOp) (L : Nat) : Bool :=
  (Warp.p c.warp o.pg).getLsbD L != o.pn

/-- Whether a lane takes part in an instruction (R119). -/
def LaneCtx.part (c : LaneCtx) (o : LaneOp) (L : Nat) : Bool :=
  c.ex.live.getLsbD L && LaneCtx.guard c o L

/-- The mask of the lanes that take part. -/
def LaneCtx.partMask (c : LaneCtx) (o : LaneOp) : Word := maskOf (LaneCtx.part c o)

/-- A w2 or run-argument word at a type (R43, R120): sign-extended for i64, zero-extended for n64 and
b64, widened exactly from binary32 for f64, else as it stands. -/
def immAt (t : LaneTy) (x : Word) : Nat :=
  match t with
  | .i64 => (x.signExtend 64).toNat
  | .f64 => encodeF Fmt.f64 (decodeF Fmt.f32 x.toNat)
  | .b32 => x.toNat | .i8 => x.toNat | .i16 => x.toNat | .i32 => x.toNat | .n8 => x.toNat
  | .n16 => x.toNat | .n32 => x.toNat | .n64 => x.toNat | .f16 => x.toNat | .bf16 => x.toNat
  | .f32 => x.toNat | .e4m3 => x.toNat | .e5m2 => x.toNat | .e2m1 => x.toNat | .q4 => x.toNat
  | .q8 => x.toNat | .b64 => x.toNat

/-- A source operand in a lane, at a type: 64 bits for a 64-bit type, else 32 (R61, R120). DESIGN CHOICE:
log 111, for a lane constant as a source of a float type. -/
def LaneCtx.src (c : LaneCtx) (o : LaneOp) (t : LaneTy) (x : Src) (L : Nat) : Nat :=
  let wide := wideTy t
  match x with
  | .v r =>
    (Warp.v c.warp r L).toNat + (if wide then (Warp.v c.warp (r + 1) L).toNat * 2 ^ 32 else 0)
  | .q k =>
    let q := (((c.ex.latch[k]?).bind fun l => l[L]?).getD 0).toNat
    if wide then q else q % 2 ^ 32
  | .w2 => immAt t o.w2
  | .arg i => immAt t ((c.ex.entry.args[i]?).getD 0)
  | .lane => L
  | .warp => c.warp.index
  | .frag => if c.ex.live.getLsbD L then 1 else 0
  | .pred p => if (Warp.p c.warp p).getLsbD L then 1 else 0

/-- The low bits of a source that its type reads (R127). -/
def tyLow (t : LaneTy) (raw : Nat) : Nat := raw % 2 ^ tyBits t

/-- A source as the integer its type reads (R127, R129). -/
def tyInt (t : LaneTy) (raw : Nat) : Int :=
  if signedTy t then toSigned (tyBits t) raw else (tyLow t raw : Int)

/-- Source a at the instruction's type. -/
def LaneCtx.a (c : LaneCtx) (o : LaneOp) (L : Nat) : Nat := LaneCtx.src c o o.ty o.a L
/-- Source b at the instruction's type. -/
def LaneCtx.b (c : LaneCtx) (o : LaneOp) (L : Nat) : Nat := LaneCtx.src c o o.ty o.b L
/-- Source c at the instruction's type. -/
def LaneCtx.c (c : LaneCtx) (o : LaneOp) (L : Nat) : Nat := LaneCtx.src c o o.ty o.c L

/-- A result in the written form of its type (R127): i8 and i16 sign-extended to 32 bits, every
other narrow type zero-extended. -/
def writtenForm (t : LaneTy) (x : Nat) : Nat :=
  match t with
  | .i8 => wrap 32 (toSigned 8 x)
  | .i16 => wrap 32 (toSigned 16 x)
  | .b32 => tyLow t x | .i32 => tyLow t x | .i64 => tyLow t x | .n8 => tyLow t x
  | .n16 => tyLow t x | .n32 => tyLow t x | .n64 => tyLow t x | .f16 => tyLow t x
  | .bf16 => tyLow t x | .f32 => tyLow t x | .f64 => tyLow t x | .e4m3 => tyLow t x
  | .e5m2 => tyLow t x | .e2m1 => tyLow t x | .q4 => tyLow t x | .q8 => tyLow t x
  | .b64 => tyLow t x

/-- A condition source (R135): a predicate reads as 1 or 0, any other source gives its bit 0. -/
def LaneCtx.cond (c : LaneCtx) (o : LaneOp) (x : Src) (L : Nat) : Bool :=
  LaneCtx.src c o o.ty x L % 2 = 1

/-- The run after one instruction more: its latch, its write-backs, its requests. -/
def LaneCtx.push (c : LaneCtx) (s : State) (latch : List DWord) (wbs : List WriteBack)
    (reqs : List Req) : State :=
  State.tick (State.onWarp s c.w fun W =>
    { W with exec := some { c.ex with idx := c.ex.idx + 1, latch := c.ex.latch ++ [latch],
                                      wbs := c.ex.wbs ++ wbs, reqs := c.ex.reqs ++ reqs } })
    (State.coreOf s c.warp) 2

/-- The register write-backs of a value: one register, or a pair. -/
def wbReg (L d : Nat) (wide : Bool) (v : Nat) : List WriteBack :=
  .vreg L d (word v) :: (if wide then [.vreg L (d + 1) (word (v / 2 ^ 32))] else [])

/-- An instruction that gives each lane that takes part a value: its latch holds the value, zero in
the other lanes (R119), and, unless nw is set, d receives it at the commit. `wide` says that the
value has 64 bits. -/
def LaneCtx.give (c : LaneCtx) (o : LaneOp) (s : State) (wide : Bool) (f : Nat → Nat) :
    Out State :=
  let latch := lanes.map fun L => if LaneCtx.part c o L then dword (f L) else 0
  let wbs := if o.nw then [] else
    lanes.flatMap fun L => if LaneCtx.part c o L then wbReg L o.d wide (f L) else []
  .next (LaneCtx.push c s latch wbs [])

/-- A result at the instruction's type. -/
def LaneCtx.giveTy (c : LaneCtx) (o : LaneOp) (s : State) (f : Nat → Nat) : Out State :=
  LaneCtx.give c o s (wideTy o.ty) fun L => writtenForm o.ty (f L)

/-- A truth value to predicate d[2:0] and, as 1 or 0, to the latch (R134, R135). -/
def LaneCtx.givePred (c : LaneCtx) (o : LaneOp) (s : State) (f : Nat → Bool) : Out State :=
  let latch := lanes.map fun L => if LaneCtx.part c o L && f L then 1 else 0
  let wbs := if o.nw then [] else
    lanes.flatMap fun L => if LaneCtx.part c o L then [WriteBack.preg L o.d (f L)] else []
  .next (LaneCtx.push c s latch wbs [])

/-- A request of the run, which issues at its commit (R121). -/
def LaneCtx.request (c : LaneCtx) (p : Path) (op : ReqOp) (todo : List LaneItem) (land : List Land) :
    Req :=
  { id := 0, path := p, op := op, todo := todo, land := land, done := false,
    run := some c.ex.entry.seq, token := RunEntry.token c.ex.entry, lev := c.ex.entry.lev }

/-- A memory, cross-lane, copy, fabric or equivalence instruction: its latch reads zero, and its
request, if a lane takes part, is collected for the commit (R123). -/
def LaneCtx.ask (c : LaneCtx) (o : LaneOp) (s : State) (reqs : List Req) : Out State :=
  let reqs := if LaneCtx.partMask c o = 0 then [] else reqs
  .next (LaneCtx.push c s (lanes.map fun _ => 0) [] reqs)

/-- The lanes that take part. -/
def LaneCtx.partLanes (c : LaneCtx) (o : LaneOp) : List Nat := lanes.filter (LaneCtx.part c o)

/-- The register landings of a value: one register, or a pair. -/
def landReg (L d : Nat) (wide : Bool) (v : Nat) : List Land :=
  .vreg L d (word v) :: (if wide then [.vreg L (d + 1) (word (v / 2 ^ 32))] else [])

/-- The lane-section index of the executing instruction (R324). -/
def LaneCtx.index (c : LaneCtx) : Nat := c.ex.entry.run + c.ex.idx

/-- The run traps (R20, R315, R317): it is discarded whole, and the trap is taken, or stays due until
its fragment can take it (R368). -/
def LaneCtx.trap (c : LaneCtx) (s : State) (cause : Nat) (m : Word) (tval : DWord)
    (write : Bool := false) : Out State :=
  let s := State.onWarp s c.w fun W =>
    { W with exec := none,
             laneTrap := some { id := 0, token := none, cause := cause, mask := m, tval := tval,
                                write := write, lev := W.tlev, run := some c.ex.entry } }
  let s := State.tick s (State.coreOf s c.warp) 4
  .next ((takePending s c.w).getD s)

end Sys2Proof.Machine
end

