-- ==== Sys2Proof/Machine/Scalar.lean ====
section
/-! DEFINITION. The scalar integer, bit, immediate and float instructions (R98 to R102). -/
namespace Sys2Proof.Machine

/-- An instruction that writes S[d] from S[a] and S[b] and completes. -/
def scalarOp (d a b : Nat) (f : Word → Word → Word) (s : State) : Out State :=
  withFrag s fun c => Ctx.result c d (f (Warp.s c.warp a) (Warp.s c.warp b)) s

/-- An instruction that writes S[d] from S[a] and completes. -/
def scalarUn (d a : Nat) (f : Word → Word) (s : State) : Out State :=
  withFrag s fun c => Ctx.result c d (f (Warp.s c.warp a)) s

/-- A truth value as 1 or 0 (R98). -/
def flag (b : Bool) : Word := if b then 1 else 0

/-- An immediate as a 32-bit pattern (R56). -/
def immWord (i : Int) : Word := BitVec.ofInt 32 i

/-! ### Register-register ALU (R98) -/

/-- ADD (R98). -/
def execAdd (d a b : Nat) (s : State) : Out State := scalarOp d a b (· + ·) s
/-- SUB (R98). -/
def execSub (d a b : Nat) (s : State) : Out State := scalarOp d a b (· - ·) s
/-- AND (R98). -/
def execAnd (d a b : Nat) (s : State) : Out State := scalarOp d a b (· &&& ·) s
/-- OR (R98). -/
def execOr (d a b : Nat) (s : State) : Out State := scalarOp d a b (· ||| ·) s
/-- XOR (R98). -/
def execXor (d a b : Nat) (s : State) : Out State := scalarOp d a b (· ^^^ ·) s
/-- SHL by B mod 32 (R94, R98). -/
def execShl (d a b : Nat) (s : State) : Out State :=
  scalarOp d a b (fun x y => x <<< (y.toNat % 32)) s
/-- SHR by B mod 32 (R94, R98). -/
def execShr (d a b : Nat) (s : State) : Out State :=
  scalarOp d a b (fun x y => x >>> (y.toNat % 32)) s
/-- SRA by B mod 32 (R94, R98). -/
def execSra (d a b : Nat) (s : State) : Out State :=
  scalarOp d a b (fun x y => x.sshiftRight (y.toNat % 32)) s
/-- MIN, signed (R98). -/
def execMin (d a b : Nat) (s : State) : Out State :=
  scalarOp d a b (fun x y => if x.slt y then x else y) s
/-- MAX, signed (R98). -/
def execMax (d a b : Nat) (s : State) : Out State :=
  scalarOp d a b (fun x y => if x.slt y then y else x) s
/-- MINN, unsigned (R98). -/
def execMinn (d a b : Nat) (s : State) : Out State :=
  scalarOp d a b (fun x y => if x.ult y then x else y) s
/-- MAXN, unsigned (R98). -/
def execMaxn (d a b : Nat) (s : State) : Out State :=
  scalarOp d a b (fun x y => if x.ult y then y else x) s
/-- SLT, signed (R98). -/
def execSlt (d a b : Nat) (s : State) : Out State := scalarOp d a b (fun x y => flag (x.slt y)) s
/-- SLTN, unsigned (R98). -/
def execSltn (d a b : Nat) (s : State) : Out State := scalarOp d a b (fun x y => flag (x.ult y)) s
/-- SEQ (R98). -/
def execSeq (d a b : Nat) (s : State) : Out State := scalarOp d a b (fun x y => flag (x = y)) s
/-- SNE (R98). -/
def execSne (d a b : Nat) (s : State) : Out State := scalarOp d a b (fun x y => flag (x ≠ y)) s

/-! ### Multiply and divide (R95, R96, R99) -/

/-- MUL, the low half (R99). -/
def execMul (d a b : Nat) (s : State) : Out State := scalarOp d a b (· * ·) s
/-- MULH, the high half, signed (R99). -/
def execMulh (d a b : Nat) (s : State) : Out State :=
  scalarOp d a b (fun x y => BitVec.ofInt 32 (x.toInt * y.toInt / 2 ^ 32)) s
/-- MULHN, the high half, unsigned (R99). -/
def execMulhn (d a b : Nat) (s : State) : Out State :=
  scalarOp d a b (fun x y => word (x.toNat * y.toNat / 2 ^ 32)) s

/-- Division of words: R95 for every divisor. -/
def divideWord (signed rem : Bool) (x y : Word) : Word :=
  if y = 0 then (if rem then x else BitVec.allOnes 32)
  else if signed then
    BitVec.ofInt 32 (if rem then remInt x.toInt y.toInt else quotInt x.toInt y.toInt)
  else word (if rem then x.toNat % y.toNat else x.toNat / y.toNat)

/-- The scalar divisions (R99): with TCTL.DZ set, a zero divisor traps with DIVZ, TVAL the dividend
(R96, R369). -/
def scalarDiv (sgn rem : Bool) (d a b : Nat) (s : State) : Out State :=
  withFrag s fun c =>
    let x := Warp.s c.warp a
    let y := Warp.s c.warp b
    if y = 0 && c.warp.tctl.getLsbD 0 then Ctx.trap c s (causeCode 1 0) (x.setWidth 64)
    else Ctx.result c d (divideWord sgn rem x y) s

/-- DIV (R99). -/
def execDiv (d a b : Nat) (s : State) : Out State := scalarDiv true false d a b s
/-- DIVN (R99). -/
def execDivn (d a b : Nat) (s : State) : Out State := scalarDiv false false d a b s
/-- REM (R99). -/
def execRem (d a b : Nat) (s : State) : Out State := scalarDiv true true d a b s
/-- REMN (R99). -/
def execRemn (d a b : Nat) (s : State) : Out State := scalarDiv false true d a b s

/-! ### Address, bit and field instructions (R100) -/

/-- LEA (R100). -/
def execLea (d a b sh : Nat) (s : State) : Out State :=
  scalarOp d a b (fun x y => x + (y <<< sh)) s

/-- The number of one bits among the low `n` bits. -/
def popCount (n x : Nat) : Nat := ((List.range n).filter fun i => x.testBit i).length
/-- The number of leading zeros among the low `n` bits. -/
def leadingZeros (n x : Nat) : Nat :=
  match (List.range n).reverse.find? fun i => x.testBit i with
  | some i => n - 1 - i
  | none => n
/-- The number of trailing zeros among the low `n` bits. -/
def trailingZeros (n x : Nat) : Nat :=
  match (List.range n).find? fun i => x.testBit i with
  | some i => i
  | none => n

/-- POPC (R100). -/
def execPopc (d a : Nat) (s : State) : Out State := scalarUn d a (fun x => word (popCount 32 x.toNat)) s
/-- CLZ (R100). -/
def execClz (d a : Nat) (s : State) : Out State :=
  scalarUn d a (fun x => word (leadingZeros 32 x.toNat)) s
/-- CTZ (R100). -/
def execCtz (d a : Nat) (s : State) : Out State :=
  scalarUn d a (fun x => word (trailingZeros 32 x.toNat)) s
/-- BREV (R100). -/
def execBrev (d a : Nat) (s : State) : Out State := scalarUn d a (fun x => x.reverse) s
/-- SELNZ (R100): S[d] unchanged when S[b] is zero. -/
def execSelnz (d a b : Nat) (s : State) : Out State :=
  withFrag s fun c =>
    if Warp.s c.warp b ≠ 0 then Ctx.result c d (Warp.s c.warp a) s else .next (Ctx.advance c 1 s)

/-- The field of `len` bits at `pos` of a word; bits above bit 31 read 0 (R100). -/
def extractField (x : Word) (pos len : Nat) (sx : Bool) : Word :=
  let f := x.toNat / 2 ^ pos % 2 ^ len
  if sx then BitVec.ofInt 32 (toSigned len f) else word f

/-- A word with the low `len` bits of another placed at `pos`; bits past 31 are dropped (R100). -/
def insertField (y x : Word) (pos len : Nat) : Word :=
  let m : Word := (BitVec.ofNat 32 (2 ^ len - 1)) <<< pos
  (y &&& ~~~m) ||| ((x <<< pos) &&& m)

/-- EXTB (R100). -/
def execExtb (d a pos len : Nat) (sx : Bool) (s : State) : Out State :=
  scalarUn d a (fun x => extractField x pos len sx) s
/-- INSB (R100). -/
def execInsb (d a pos len : Nat) (s : State) : Out State :=
  withFrag s fun c =>
    Ctx.result c d (insertField (Warp.s c.warp d) (Warp.s c.warp a) pos len) s

/-! ### Immediates and moves (R101) -/

/-- ADDI (R101). -/
def execAddi (d a : Nat) (imm : Int) (s : State) : Out State := scalarUn d a (· + immWord imm) s
/-- ANDI (R101). -/
def execAndi (d a : Nat) (imm : Int) (s : State) : Out State := scalarUn d a (· &&& immWord imm) s
/-- ORI (R101). -/
def execOri (d a : Nat) (imm : Int) (s : State) : Out State := scalarUn d a (· ||| immWord imm) s
/-- XORI (R101). -/
def execXori (d a : Nat) (imm : Int) (s : State) : Out State := scalarUn d a (· ^^^ immWord imm) s
/-- SHLI (R101). -/
def execShli (d a sh : Nat) (s : State) : Out State := scalarUn d a (fun x => x <<< sh) s
/-- SHRI (R101). -/
def execShri (d a sh : Nat) (s : State) : Out State := scalarUn d a (fun x => x >>> sh) s
/-- SRAI (R101). -/
def execSrai (d a sh : Nat) (s : State) : Out State := scalarUn d a (fun x => x.sshiftRight sh) s
/-- SLTI, signed (R101). -/
def execSlti (d a : Nat) (imm : Int) (s : State) : Out State :=
  scalarUn d a (fun x => flag (x.slt (immWord imm))) s
/-- SLTNI, unsigned against the sign-extended pattern (R101). -/
def execSltni (d a : Nat) (imm : Int) (s : State) : Out State :=
  scalarUn d a (fun x => flag (x.ult (immWord imm))) s
/-- SEQI (R101). -/
def execSeqi (d a : Nat) (imm : Int) (s : State) : Out State :=
  scalarUn d a (fun x => flag (x = immWord imm)) s
/-- MOVHI (R101): the immediate in [31:14], zeros below. -/
def execMovhi (d : Nat) (imm : Int) (s : State) : Out State :=
  withFrag s fun c => Ctx.result c d (immWord imm <<< 14) s
/-- MOVI (R101). -/
def execMovi (d : Nat) (imm : Int) (s : State) : Out State :=
  withFrag s fun c => Ctx.result c d (immWord imm) s
/-- MOVL (R101), of two words. -/
def execMovl (d : Nat) (lit : Word) (s : State) : Out State :=
  withFrag s fun c => .next (Ctx.advance c 2 (Ctx.on c s fun W => Warp.setS W d lit))

/-! ### Scalar float (R85, R86, R87, R102) -/

/-- A binary32 register's value. -/
def valF32 (x : Word) : Ext := decodeF Fmt.f32 x.toNat
/-- A value rounded to binary32 with rne and encoded. -/
def encF32 (x : Ext) : Word := word (roundEnc Fmt.f32 .rne x)

/-- FADD (R102). -/
def execFadd (d a b : Nat) (s : State) : Out State :=
  scalarOp d a b (fun x y => encF32 (Ext.add .rne (valF32 x) (valF32 y))) s
/-- FSUB (R102). -/
def execFsub (d a b : Nat) (s : State) : Out State :=
  scalarOp d a b (fun x y => encF32 (Ext.add .rne (valF32 x) (Ext.negate (valF32 y)))) s
/-- FMUL (R102). -/
def execFmul (d a b : Nat) (s : State) : Out State :=
  scalarOp d a b (fun x y => encF32 (Ext.mul (valF32 x) (valF32 y))) s
/-- FMIN (R102). -/
def execFmin (d a b : Nat) (s : State) : Out State :=
  scalarOp d a b (fun x y => word (minMaxF Fmt.f32 false x.toNat y.toNat)) s
/-- FMAX (R102). -/
def execFmax (d a b : Nat) (s : State) : Out State :=
  scalarOp d a b (fun x y => word (minMaxF Fmt.f32 true x.toNat y.toNat)) s
/-- FEQ (R102). -/
def execFeq (d a b : Nat) (s : State) : Out State :=
  scalarOp d a b (fun x y => flag (Ext.eq (valF32 x) (valF32 y))) s
/-- FLT (R102). -/
def execFlt (d a b : Nat) (s : State) : Out State :=
  scalarOp d a b (fun x y => flag (Ext.lt (valF32 x) (valF32 y))) s
/-- FLE (R102). -/
def execFle (d a b : Nat) (s : State) : Out State :=
  scalarOp d a b
    (fun x y => flag (Ext.lt (valF32 x) (valF32 y) || Ext.eq (valF32 x) (valF32 y))) s
/-- FCVTI: binary32 to i32 (R87, R102). -/
def execFcvti (d a : Nat) (s : State) : Out State :=
  scalarUn d a (fun x => BitVec.ofInt 32 (toIntClamp (valF32 x) (-(2 ^ 31)) (2 ^ 31 - 1))) s
/-- FCVTF: i32 to binary32 (R87, R102). -/
def execFcvtf (d a : Nat) (s : State) : Out State :=
  scalarUn d a (fun x => encF32 (Ext.ofInt x.toInt)) s
/-- FABS: bit 31 cleared (R102). -/
def execFabs (d a : Nat) (s : State) : Out State :=
  scalarUn d a (fun x => x &&& 0x7FFFFFFF) s
/-- FFMA: A × B + S[d], one rounding (R102). -/
def execFfma (d a b : Nat) (s : State) : Out State :=
  withFrag s fun c =>
    Ctx.result c d (encF32 (Ext.fma .rne (valF32 (Warp.s c.warp a)) (valF32 (Warp.s c.warp b))
      (valF32 (Warp.s c.warp d)))) s

end Sys2Proof.Machine
end

