-- ==== Sys2Proof/Machine/LaneInt.lean ====
section
/-! DEFINITION. The lane instructions that compute integers, predicates and moves (R126, R129, R130,
R134, R135). -/
namespace Sys2Proof.Machine

/-- LNOP (R126): nothing; its latch is not readable. -/
def execLnop (o : LaneOp) (s : State) : Out State :=
  withRun s fun c => LaneCtx.give c { o with nw := true } s false fun _ => 0

/-- TRAIL (R126): the run stands at its end with its token; it commits when R117 allows (R121). -/
def execTrail (o : LaneOp) (s : State) : Out State :=
  withRun s fun c =>
    .next (State.tick (State.onWarp s c.w fun W =>
      { W with exec := some { c.ex with idx := c.ex.idx + 1, trail := some (o.fn % 8) } })
      (State.coreOf s c.warp) 2)

/-- An integer result of two sources, modulo 2^w (R94, R129). -/
def laneInt2 (o : LaneOp) (s : State) (f : Int → Int → Int) : Out State :=
  withRun s fun c => LaneCtx.giveTy c o s fun L =>
    wrap (tyBits o.ty) (f (tyInt o.ty (LaneCtx.a c o L)) (tyInt o.ty (LaneCtx.b c o L)))

/-- An integer result of one source (R129). -/
def laneInt1 (o : LaneOp) (s : State) (f : Int → Int) : Out State :=
  withRun s fun c => LaneCtx.giveTy c o s fun L =>
    wrap (tyBits o.ty) (f (tyInt o.ty (LaneCtx.a c o L)))

/-- An integer result of three sources (R129). -/
def laneInt3 (o : LaneOp) (s : State) (f : Int → Int → Int → Int) : Out State :=
  withRun s fun c => LaneCtx.giveTy c o s fun L =>
    wrap (tyBits o.ty) (f (tyInt o.ty (LaneCtx.a c o L)) (tyInt o.ty (LaneCtx.b c o L))
      (tyInt o.ty (LaneCtx.c c o L)))

/-- A result of the low bits of two sources. -/
def laneBits2 (o : LaneOp) (s : State) (f : Nat → Nat → Nat) : Out State :=
  withRun s fun c => LaneCtx.giveTy c o s fun L =>
    f (tyLow o.ty (LaneCtx.a c o L)) (tyLow o.ty (LaneCtx.b c o L))

/-- A result of the low bits of one source. -/
def laneBits1 (o : LaneOp) (s : State) (f : Nat → Nat) : Out State :=
  withRun s fun c => LaneCtx.giveTy c o s fun L => f (tyLow o.ty (LaneCtx.a c o L))

/-- ADD (R129). -/
def execLaneAdd (o : LaneOp) (s : State) : Out State := laneInt2 o s (· + ·)
/-- SUB (R129). -/
def execLaneSub (o : LaneOp) (s : State) : Out State := laneInt2 o s (· - ·)
/-- MUL (R129). -/
def execLaneMul (o : LaneOp) (s : State) : Out State := laneInt2 o s (· * ·)
/-- MULH: bits [2w-1:w] of the exact product (R129). -/
def execLaneMulh (o : LaneOp) (s : State) : Out State :=
  laneInt2 o s fun x y => x * y / 2 ^ tyBits o.ty
/-- MAD (R129). -/
def execMad (o : LaneOp) (s : State) : Out State := laneInt3 o s fun x y z => x * y + z

/-- Quotient or remainder at a width (R95). -/
def divideInt (rem : Bool) (x y : Int) : Int :=
  if y = 0 then (if rem then x else -1) else if rem then remInt x y else quotInt x y

/-- DIV and REM (R129): with TCTL.DZ set as the run executes, the lanes that divide by zero trap the
run with DIVZ, TVAL the instruction's index (R96, R324). -/
def laneDivide (rem : Bool) (o : LaneOp) (s : State) : Out State :=
  withRun s fun c =>
    let zero := maskOf fun L => LaneCtx.part c o L && tyLow o.ty (LaneCtx.b c o L) = 0
    if c.warp.tctl.getLsbD 0 && zero ≠ 0 then
      LaneCtx.trap c s (causeCode 1 0) zero (dword (LaneCtx.index c))
    else LaneCtx.giveTy c o s fun L =>
      wrap (tyBits o.ty)
        (divideInt rem (tyInt o.ty (LaneCtx.a c o L)) (tyInt o.ty (LaneCtx.b c o L)))

/-- DIV (R129). -/
def execLaneDiv (o : LaneOp) (s : State) : Out State := laneDivide false o s
/-- REM (R129). -/
def execLaneRem (o : LaneOp) (s : State) : Out State := laneDivide true o s
/-- MIN (R129). -/
def execLaneMin (o : LaneOp) (s : State) : Out State := laneInt2 o s fun x y => if y < x then y else x
/-- MAX (R129). -/
def execLaneMax (o : LaneOp) (s : State) : Out State := laneInt2 o s fun x y => if x < y then y else x
/-- ABS (R129). -/
def execAbs (o : LaneOp) (s : State) : Out State := laneInt1 o s fun x => (x.natAbs : Int)
/-- NEG (R129). -/
def execNeg (o : LaneOp) (s : State) : Out State := laneInt1 o s fun x => -x
/-- AND (R129). -/
def execLaneAnd (o : LaneOp) (s : State) : Out State := laneBits2 o s (· &&& ·)
/-- OR (R129). -/
def execLaneOr (o : LaneOp) (s : State) : Out State := laneBits2 o s (· ||| ·)
/-- XOR (R129). -/
def execLaneXor (o : LaneOp) (s : State) : Out State := laneBits2 o s (· ^^^ ·)
/-- NOT (R129). -/
def execNot (o : LaneOp) (s : State) : Out State :=
  laneBits1 o s fun x => 2 ^ tyBits o.ty - 1 - x
/-- SHL by b mod w (R94, R129). -/
def execLaneShl (o : LaneOp) (s : State) : Out State :=
  laneBits2 o s fun x y => x * 2 ^ (y % tyBits o.ty)
/-- SHR by b mod w, zeros in (R129). -/
def execLaneShr (o : LaneOp) (s : State) : Out State :=
  laneBits2 o s fun x y => x / 2 ^ (y % tyBits o.ty)
/-- SRA by b mod w, copies of bit w - 1 in, for every type (R129). -/
def execLaneSra (o : LaneOp) (s : State) : Out State :=
  laneBits2 o s fun x y =>
    wrap (tyBits o.ty) (toSigned (tyBits o.ty) x / 2 ^ (y % tyBits o.ty))
/-- ROT left by b mod w (R129). -/
def execRot (o : LaneOp) (s : State) : Out State :=
  laneBits2 o s fun x y =>
    let n := y % tyBits o.ty
    x * 2 ^ n % 2 ^ tyBits o.ty + x / 2 ^ (tyBits o.ty - n)
/-- POPC (R129). -/
def execLanePopc (o : LaneOp) (s : State) : Out State :=
  withRun s fun c => LaneCtx.give c o s (wideTy o.ty) fun L =>
    popCount (tyBits o.ty) (tyLow o.ty (LaneCtx.a c o L))
/-- CLZ (R129). -/
def execLaneClz (o : LaneOp) (s : State) : Out State :=
  withRun s fun c => LaneCtx.give c o s (wideTy o.ty) fun L =>
    leadingZeros (tyBits o.ty) (tyLow o.ty (LaneCtx.a c o L))

/-- BFE's field (R130). -/
def bfeBits (t : LaneTy) (a b c : Nat) : Nat :=
  let w := tyBits t
  let len := min (c % 256) w
  if len = 0 then 0
  else
    let f := a / 2 ^ (b % 256) % 2 ^ len
    if signedTy t then wrap w (toSigned len f) else f

/-- BFE (R130). -/
def execBfe (o : LaneOp) (s : State) : Out State :=
  withRun s fun c => LaneCtx.giveTy c o s fun L =>
    bfeBits o.ty (tyLow o.ty (LaneCtx.a c o L)) (LaneCtx.b c o L) (LaneCtx.c c o L)

/-- BFI's result: the low bits of a placed in b; bits past w - 1 are dropped (R130). -/
def bfiBits (t : LaneTy) (a b c : Nat) : Nat :=
  let w := tyBits t
  let pos := c % 256
  let len := min (c / 256 % 256) w
  (List.range len).foldl (fun d i =>
    if pos + i < w then
      d - (if d.testBit (pos + i) then 2 ^ (pos + i) else 0) +
        (if a.testBit i then 2 ^ (pos + i) else 0)
    else d) b

/-- BFI (R130). -/
def execBfi (o : LaneOp) (s : State) : Out State :=
  withRun s fun c => LaneCtx.giveTy c o s fun L =>
    bfiBits o.ty (tyLow o.ty (LaneCtx.a c o L)) (tyLow o.ty (LaneCtx.b c o L)) (LaneCtx.c c o L)

/-- SAD (R129). -/
def execSad (o : LaneOp) (s : State) : Out State :=
  laneInt3 o s fun x y z => ((x - y).natAbs : Int) + z

/-! ### Predicates and moves -/

/-- The comparison that SETP's fn selects, on integers or decoded floats (R65, R134). -/
def compareTy (t : LaneTy) (fn a b : Nat) : Bool :=
  if flTys.contains t then
    let x := decodeF (fmtOf t) (tyLow t a)
    let y := decodeF (fmtOf t) (tyLow t b)
    match fn with
    | 0 => Ext.eq x y
    | 1 => !Ext.eq x y
    | 2 => Ext.lt x y
    | 3 => Ext.lt x y || Ext.eq x y
    | 4 => Ext.lt y x
    | 5 => Ext.lt y x || Ext.eq x y
    | _ => x = .nan || y = .nan
  else
    let x := tyInt t a
    let y := tyInt t b
    match fn with
    | 0 => x = y
    | 1 => x ≠ y
    | 2 => x < y
    | 3 => x ≤ y
    | 4 => y < x
    | _ => y ≤ x

/-- SETP (R134). -/
def execSetp (o : LaneOp) (s : State) : Out State :=
  withRun s fun c => LaneCtx.givePred c o s fun L =>
    compareTy o.ty o.fn (LaneCtx.a c o L) (LaneCtx.b c o L)

/-- PLOG (R135). -/
def execPlog (o : LaneOp) (s : State) : Out State :=
  withRun s fun c => LaneCtx.givePred c o s fun L =>
    let x := LaneCtx.cond c o o.a L
    let y := LaneCtx.cond c o o.b L
    match o.fn with
    | 0 => x && y
    | 1 => x || y
    | _ => x != y

/-- SEL (R135). -/
def execSel (o : LaneOp) (s : State) : Out State :=
  withRun s fun c => LaneCtx.giveTy c o s fun L =>
    if LaneCtx.cond c o o.c L then LaneCtx.a c o L else LaneCtx.b c o L

/-- MOV (R135). -/
def execMov (o : LaneOp) (s : State) : Out State :=
  withRun s fun c => LaneCtx.giveTy c o s fun L => LaneCtx.a c o L

/-- MOVP (R135): a predicate source reading 1, or a non-zero value of any other kind. -/
def execMovp (o : LaneOp) (s : State) : Out State :=
  withRun s fun c => LaneCtx.givePred c o s fun L => LaneCtx.a c o L ≠ 0

end Sys2Proof.Machine
end

