-- ==== Sys2Proof/Machine/CrossLane.lean ====
section
/-! DEFINITION. The cross-lane instructions (R143 to R151). Each reads its operands as its run
executes; the results are fixed then, and land after the commit. -/
namespace Sys2Proof.Machine

/-- The member lanes E (R143): the lanes that take part and whose bit is set in the member mask. -/
def LaneCtx.members (c : LaneCtx) (o : LaneOp) : List Nat :=
  lanes.filter fun L => LaneCtx.part c o L && (LaneCtx.src c o .b32 o.c L).testBit L

/-- A cross-lane request whose results go to the lanes of E. -/
def LaneCtx.exchange (c : LaneCtx) (o : LaneOp) (s : State) (E : List Nat) (f : Nat → Nat) :
    Out State :=
  LaneCtx.ask c o s
    [LaneCtx.request c .sh .cross [] (E.flatMap fun L => landReg L o.d (wideTy o.ty) (f L))]

/-- PERM (R145). -/
def execPerm (o : LaneOp) (s : State) : Out State :=
  withRun s fun c =>
    LaneCtx.exchange c o s (LaneCtx.partLanes c o) fun L =>
      let k := LaneCtx.b c o L % 2 ^ 32
      if k ≤ 31 && LaneCtx.part c o k then LaneCtx.a c o k else LaneCtx.c c o L

/-- The source lane of SHFL, exactly (R146). -/
def shflLane (fn L b : Nat) : Int :=
  match fn with
  | 0 => b
  | 1 => (L : Int) - b
  | 2 => (L : Int) + b
  | _ => ((L ^^^ b : Nat) : Int)

/-- SHFL (R146). -/
def execShfl (o : LaneOp) (s : State) : Out State :=
  withRun s fun c =>
    let E := LaneCtx.members c o
    LaneCtx.exchange c o s E fun L =>
      let k := shflLane o.fn L (LaneCtx.b c o L % 2 ^ 32)
      if 0 ≤ k && k ≤ 31 && E.contains k.toNat then LaneCtx.a c o k.toNat else LaneCtx.a c o L

/-- VOTE (R147). -/
def execVote (o : LaneOp) (s : State) : Out State :=
  withRun s fun c =>
    let E := LaneCtx.members c o
    let on := E.filter (LaneCtx.cond c o o.a)
    match o.fn with
    | 0 => LaneCtx.ask c o s
        [LaneCtx.request c .sh .cross [] (E.map fun L => .preg L o.d (on.length == E.length))]
    | 1 => LaneCtx.ask c o s
        [LaneCtx.request c .sh .cross [] (E.map fun L => .preg L o.d (!on.isEmpty))]
    | _ => LaneCtx.exchange c o s E fun _ => on.foldl (fun m i => m + 2 ^ i) 0

/-- RED's combination of two values (R148), on their bits. -/
def combine (t : LaneTy) (op x y : Nat) : Nat :=
  let w := tyBits t
  if floatTy t then
    match op with
    | 0 => roundEnc (fmtOf t) .rne (Ext.add .rne (decodeF (fmtOf t) x) (decodeF (fmtOf t) y))
    | 1 => minMaxF (fmtOf t) false x y
    | _ => minMaxF (fmtOf t) true x y
  else match op with
    | 0 => (x + y) % 2 ^ w
    | 1 => if tyInt t y < tyInt t x then y else x
    | 2 => if tyInt t x < tyInt t y then y else x
    | 3 => x &&& y
    | 4 => x ||| y
    | _ => x ^^^ y

/-- RED's identity (R148). -/
def identityOf (t : LaneTy) (op : Nat) : Nat :=
  let w := tyBits t
  if floatTy t then
    match op with
    | 0 => encodeF (fmtOf t) (.zero true)
    | 1 => encodeF (fmtOf t) (.inf false)
    | _ => encodeF (fmtOf t) (.inf true)
  else match op with
    | 0 => 0
    | 1 => if signedTy t then 2 ^ (w - 1) - 1 else 2 ^ w - 1
    | 2 => if signedTy t then 2 ^ (w - 1) else 0
    | 3 => 2 ^ w - 1
    | _ => 0

/-- A code with any NaN made canonical (R80, R148). DEDUCED: log 34. -/
def canonNaN (t : LaneTy) (x : Nat) : Nat :=
  if floatTy t && decodeF (fmtOf t) x = .nan then (fmtOf t).nan else x

/-- One level of RED's tree: neighbours combined, an absent one passed over (R148). -/
def redLevel (f : Nat → Nat → Nat) : List (Option Nat) → List (Option Nat)
  | x :: y :: rest =>
    (match x, y with
      | none, y => y
      | some x, none => some x
      | some x, some y => some (f x y)) :: redLevel f rest
  | [x] => [x]
  | [] => []

/-- RED over 32 lanes: five levels of the fixed tree (R148). -/
def redTree (f : Nat → Nat → Nat) (xs : List (Option Nat)) : Option Nat :=
  ((redLevel f (redLevel f (redLevel f (redLevel f (redLevel f xs)))))[0]?).join

/-- RED (R148). A float result is written with Encode, so a NaN is canonical. -/
def execRed (o : LaneOp) (s : State) : Out State :=
  withRun s fun c =>
    let E := LaneCtx.members c o
    let xs := lanes.map fun L => if E.contains L then some (tyLow o.ty (LaneCtx.a c o L)) else none
    let r := (redTree (combine o.ty (o.fn % 8)) xs).getD (identityOf o.ty (o.fn % 8))
    LaneCtx.exchange c o s E fun _ => canonNaN o.ty r

/-- SCAN's results over the members in ascending order (R149). -/
def scanList (f : Nat → Nat → Nat) (excl : Bool) (id : Nat) :
    Option Nat → List (Nat × Nat) → List (Nat × Nat)
  | _, [] => []
  | acc, (L, x) :: rest =>
    let next := match acc with
      | none => x
      | some r => f r x
    (L, if excl then acc.getD id else next) :: scanList f excl id (some next) rest

/-- SCAN (R149). -/
def execScan (o : LaneOp) (s : State) : Out State :=
  withRun s fun c =>
    let E := LaneCtx.members c o
    let op := o.fn % 8
    let vals := scanList (combine o.ty op) (8 ≤ o.fn) (identityOf o.ty op) none
      (E.map fun L => (L, tyLow o.ty (LaneCtx.a c o L)))
    LaneCtx.exchange c o s E fun L => canonNaN o.ty ((AMap.get? vals L).getD 0)

/-- MATCH (R150): a 32-bit mask; for b64 it goes to the even register, zero to the odd one.
DEDUCED: log 33. -/
def execMatchLanes (o : LaneOp) (s : State) : Out State :=
  withRun s fun c =>
    let E := LaneCtx.members c o
    LaneCtx.exchange c o s E fun L =>
      (E.filter fun M => LaneCtx.a c o M = LaneCtx.a c o L).foldl (fun m i => m + 2 ^ i) 0

end Sys2Proof.Machine
end

