-- ==== Sys2Proof/Machine/LaneMem.lean ====
section
/-! DEFINITION. The lane loads, stores and atomics of local memory (R153 to R157). -/
namespace Sys2Proof.Machine

/-- A lane's address (R154): base plus offset modulo 2^32, the base read as n32. -/
def LaneCtx.addr (c : LaneCtx) (o : LaneOp) (L : Nat) : Nat :=
  (LaneCtx.src c o .b32 o.a L + o.w2.toNat) % 2 ^ 32

/-- The place of a cause in the check table (R155): lower is checked first. -/
def checkOrder (cause : Nat) : Nat :=
  if cause = causeCode 3 5 then 0
  else if cause = causeCode 3 0 || cause = causeCode 3 1 then 1
  else if cause = causeCode 3 2 then 2
  else 3

/-- The first check that some lane fails, with every lane that fails it (R155). Lanes are given with
the cause of their own first failed check, if any. -/
def firstFault (fs : List (Nat × Nat)) : Option (Nat × List Nat) :=
  match fs with
  | [] => none
  | (_, c0) :: rest =>
    let cause := rest.foldl (fun c x => if checkOrder x.2 < checkOrder c then x.2 else c) c0
    some (cause, (fs.filter fun x => x.2 = cause).map (·.1))

/-- A local memory instruction (R153 to R155): every lane's access is checked as the run executes,
and a fault traps the run; otherwise the request is collected. -/
def laneMem (sp : Space) (write : Bool) (o : LaneOp) (s : State) (op : ReqOp)
    (x y : LaneCtx → Nat → Nat) : Out State :=
  withRun s fun c =>
    let ls := LaneCtx.partLanes c o
    let faults := ls.filterMap fun L =>
      match State.checkLocal s c.warp sp write (LaneCtx.addr c o L) (tyBytes o.ty) with
      | .ok _ => none
      | .fault cause => some (L, cause)
    match firstFault faults with
    | some (cause, bad) =>
      LaneCtx.trap c s cause (maskOfList bad) (dword (LaneCtx.addr c o (bad.headD 0)))
    | none =>
      LaneCtx.ask c o s
        [LaneCtx.request c (Space.path sp) op
          (ls.map fun L => ⟨L, dword (LaneCtx.addr c o L), dword (x c L), dword (y c L), []⟩) []]

/-- A lane load. -/
def laneLoad (sp : Space) (o : LaneOp) (s : State) : Out State :=
  laneMem sp false o s (.load sp o.ty o.d) (fun _ _ => 0) (fun _ _ => 0)

/-- A lane store of c. -/
def laneStore (sp : Space) (o : LaneOp) (s : State) : Out State :=
  laneMem sp true o s (.store sp (tyBytes o.ty)) (fun c L => LaneCtx.c c o L) (fun _ _ => 0)

/-- The atomic operation of a modifier (R65). -/
def atomOfFn : Nat → AtomOp
  | 0 => .add | 1 => .min | 2 => .max | 3 => .and | 4 => .or | 5 => .xor | 6 => .xchg | _ => .cas

/-- The new value of a CAS: the register, or pair, after the one that c names (R67). -/
def casNew (c : LaneCtx) (o : LaneOp) (L : Nat) : Nat :=
  match o.c with
  | .v r => LaneCtx.src c o o.ty (.v (r + (if wideTy o.ty then 2 else 1))) L
  | .q _ => 0
  | .w2 => 0
  | .arg _ => 0
  | .lane => 0
  | .warp => 0
  | .frag => 0
  | .pred _ => 0

/-- A lane atomic: the old value goes to d, or is discarded with nw = 1 (R157). -/
def laneAtomic (sp : Space) (o : LaneOp) (s : State) : Out State :=
  laneMem sp true o s (.atomic sp (atomOfFn o.fn) o.ty (if o.nw then none else some o.d))
    (fun c L => LaneCtx.c c o L) (fun c L => casNew c o L)

/-- LDS (R153). -/
def execLds (o : LaneOp) (s : State) : Out State := laneLoad .shared o s
/-- STS (R153). -/
def execSts (o : LaneOp) (s : State) : Out State := laneStore .shared o s
/-- LDX (R153). -/
def execLdx (o : LaneOp) (s : State) : Out State := laneLoad .scratch o s
/-- STX (R153). -/
def execStx (o : LaneOp) (s : State) : Out State := laneStore .scratch o s
/-- LDK (R153). -/
def execLdk (o : LaneOp) (s : State) : Out State := laneLoad .spill o s
/-- STK (R153). -/
def execStk (o : LaneOp) (s : State) : Out State := laneStore .spill o s
/-- ATS (R157). -/
def execAts (o : LaneOp) (s : State) : Out State := laneAtomic .shared o s
/-- ATX (R157). -/
def execAtx (o : LaneOp) (s : State) : Out State := laneAtomic .scratch o s

/-- The value an atomic leaves (R157), from the old bits and the lane's data. -/
def atomNew (op : AtomOp) (t : LaneTy) (old x y : Nat) : Nat :=
  let w := tyBits t
  let x := tyLow t x
  match op with
  | .add => if t = .f32 then
      roundEnc Fmt.f32 .rne (Ext.add .rne (decodeF Fmt.f32 old) (decodeF Fmt.f32 x))
    else (old + x) % 2 ^ w
  | .min => if tyInt t x < tyInt t old then x else old
  | .max => if tyInt t old < tyInt t x then x else old
  | .and => old &&& x
  | .or => old ||| x
  | .xor => old ^^^ x
  | .xchg => x
  | .cas => if old = x then tyLow t y else old

end Sys2Proof.Machine
end

