-- ==== Sys2Proof/Machine/RunsScalar.lean ====
section
/-! DEFINITION. The scalar instructions that enqueue runs, wait for them, and read and write lane
state and path counters (R112 to R117). -/
namespace Sys2Proof.Machine

/-- Whether a token mask names a token. -/
def tokenIn (mask token : Nat) : Bool := mask.testBit token

/-- Whether some run before `limit` that names a token of the mask has not committed or has
long-latency results outstanding (R113). -/
def Warp.tokensDue (W : Warp) (mask limit : Nat) : Bool :=
  Warp.uncommitted W limit (fun e => tokenIn mask (RunEntry.token e)) ||
    W.reqs.any fun r => Req.pendingResults r && tokenIn mask r.token &&
      match r.run with
      | some n => n < limit
      | none => false

/-- Whether an asynchronous trap of a request of a token of the mask has still to be taken (R169,
R297). -/
def Warp.tokenTrap (W : Warp) (mask : Nat) : Bool :=
  W.async.any fun p => !Warp.holds W p &&
    match p.token with
    | some t => tokenIn mask t
    | none => false

/-- LRUN (R112): waits for a queue entry, fetches the run, and appends its entry with the arguments
as they then read. -/
def execLrun (run await n x0 x1 x2 x3 : Nat) (s : State) : Out State :=
  withFrag s fun c =>
    let W := c.warp
    if 4 ≤ W.queue.length + (if W.exec.isSome then 1 else 0) then Ctx.wait c .runQueue s
    else
      let va := State.runVA s W run
      let ag := Agent.core (State.coreOf s W)
      let asid := State.asidOf s W
      match State.checkStart s ag asid va true with
      | .error f => Ctx.fetchFault c s (causeCode 2 1) f va
      | .ok (s, _) =>
        match fetchSlots s ag asid 24 va with
        | .error (f, at_) => Ctx.fetchFault c s (causeCode 2 1) f at_
        | .ok (s, code) =>
          let arg (i x : Nat) : Word := if i < n then Warp.s W x else 0
          let e : RunEntry :=
            { run := run, code := code, await := await, mask := c.frag.mask,
              args := [arg 0 x0, arg 1 x1, arg 2 x2, arg 3 x3], seq := W.nextRun, lev := W.tlev }
          .next (Ctx.advance c 2
            (Ctx.on c s fun W => { W with queue := W.queue ++ [e], nextRun := W.nextRun + 1 }))

/-- LWAIT (R113). -/
def execLwait (mask : Nat) (s : State) : Out State :=
  withFrag s fun c =>
    if Warp.tokensDue c.warp mask c.warp.nextRun then Ctx.wait c (.runs mask c.warp.nextRun) s
    else .next (Ctx.advance c 1 s)

/-- The lane that S[a] names (R114). -/
def laneOf (W : Warp) (a : Nat) : Nat := (Warp.s W a).toNat % 32

/-- LGET (R114): committed register state of any lane of the warp. -/
def execLget (d a v : Nat) (s : State) : Out State :=
  withFrag s fun c =>
    if c.warp.nv ≤ v then Ctx.trap c s (causeCode 2 3) (dword v)
    else Ctx.result c d (Warp.v c.warp v (laneOf c.warp a)) s

/-- The write of LPUT (R114): nothing outside the fragment's lanes. -/
def lputWrite (m : Word) (d a v : Nat) (W : Warp) : Warp :=
  if m.getLsbD (laneOf W a) then Warp.setV W v (laneOf W a) (Warp.s W d) else W

/-- LPUT (R114): after every run enqueued before it has committed. -/
def execLput (d a v : Nat) (s : State) : Out State :=
  withFrag s fun c =>
    if c.warp.nv ≤ v then Ctx.trap c s (causeCode 2 3) (dword v)
    else if Warp.uncommitted c.warp c.warp.nextRun (fun _ => true) then
      Ctx.wait c (.lput c.warp.nextRun d a v) s
    else .next (Ctx.advance c 1 (Ctx.on c s (lputWrite c.frag.mask d a v)))

/-- PGET (R115). -/
def execPget (d p : Nat) (s : State) : Out State :=
  withFrag s fun c => Ctx.result c d (Warp.p c.warp p) s

/-- The write of PSET (R115): the fragment's lanes only. -/
def psetWrite (m : Word) (a p : Nat) (W : Warp) : Warp :=
  Warp.setP W p ((Warp.p W p &&& ~~~m) ||| (Warp.s W a &&& m))

/-- PSET (R115): waits as LPUT does. -/
def execPset (a p : Nat) (s : State) : Out State :=
  withFrag s fun c =>
    if Warp.uncommitted c.warp c.warp.nextRun (fun _ => true) then
      Ctx.wait c (.pset c.warp.nextRun a p) s
    else .next (Ctx.advance c 1 (Ctx.on c s (psetWrite c.frag.mask a p)))

/-- Whether an FXNACK trap has still to be taken before a wait on FB passes (R297). -/
def Warp.fabricTrap (W : Warp) : Bool :=
  W.async.any fun p => !Warp.holds W p && p.cause / 64 = 9

/-- Whether WAITP on a path passes (R116, R297). -/
def Warp.counterOk (W : Warp) (p : Path) (n : Nat) : Bool :=
  Warp.counter W p ≤ n && !(p = .fb && Warp.fabricTrap W)

/-- WAITP (R116). No rule says whether a waiting WAITP compares with S[a] as another fragment leaves it: it
compares with what it read when it issued. DESIGN CHOICE: log 89. -/
def execWaitp (a path : Nat) (s : State) : Out State :=
  withFrag s fun c =>
    let n := (Warp.s c.warp a).toNat
    if Warp.counterOk c.warp (pathOfCode path) n then .next (Ctx.advance c 1 s)
    else Ctx.wait c (.counter (pathOfCode path) n) s

/-- RDCNT (R116). -/
def execRdcnt (d path : Nat) (s : State) : Out State :=
  withFrag s fun c => Ctx.result c d (word (Warp.counter c.warp (pathOfCode path))) s

end Sys2Proof.Machine
end

