-- ==== Sys2Proof/Machine/Requests.lean ====
section
/-! DEFINITION. The steps that runs and requests take by themselves: a run starts and commits, a
request's lanes are performed, results land, requests retire, waiting fragments wake, a warp ends
(R107, R111, R119 to R123, R156 to R159). A step whose condition does not hold changes nothing
(log 8). -/
namespace Sys2Proof.Machine

/-- Whether an access of a request names bytes that an earlier-issued, unperformed access of the
warp on the same path names (R104, R158). -/
def State.blocked (s : State) (w : Nat) (W : Warp) (r : Req) (it : LaneItem) : Bool :=
  match ReqOp.access r.op with
  | some (sp, n) => State.localPending s W sp it.addr.toNat n r.id
  | none =>
    match r.op with
    | .gath _ _ => State.cpBlocked s w W r.id [(.main it.x.toNat, 32, false)]
    | .scat => State.cpBlocked s w W r.id [(.main it.x.toNat, 32, true)]
    | _ => false

/-- Words as one number, the first lowest. -/
def numOfWords : List Word → Nat
  | [] => 0
  | w :: ws => w.toNat + 2 ^ 32 * numOfWords ws

/-- One lane's access of request `id` performed (R156): what memory becomes, and the register writes of its
result. GATH and SCAT gather A and D (R20, R329). DEDUCED: log 17. -/
def performItem (s : State) (w : Nat) (W : Warp) (id : Nat) (op : ReqOp) (it : LaneItem) :
    State × List Land :=
  let at_ (sp : Space) : Where := .chip (State.placeOf s W sp it.addr.toNat)
  let touch (acc : Access) : State :=
    State.touch s (State.agentOf s W) (State.asidOf s W) it.addr.toNat acc
  match op with
  | .load sp t d =>
    let (s, v) := State.load s w W id (at_ sp) (tyBytes t)
    (s, landReg it.lane d (wideTy t) (writtenForm t v))
  | .store sp n => (State.store s w W id (at_ sp) n it.x.toNat, [])
  | .atomic sp a t d =>
    let (s, old) := State.load s w W id (at_ sp) (tyBytes t)
    (State.store s w W id (at_ sp) (tyBytes t) (atomNew a t old it.x.toNat it.y.toNat), match d with
      | some d => landReg it.lane d (wideTy t) (writtenForm t old)
      | none => [])
  | .cross => (s, [])
  | .sload sp d _ =>
    let (s, v) := State.load s w W id (at_ sp) 4
    (s, [.sreg d (word v)])
  | .sstore sp => (State.store s w W id (at_ sp) 4 it.x.toNat, [])
  | .gath d _ =>
    let (s, v) := State.load (touch .read) w W id (.main it.x.toNat) 32
    (s, (List.range 8).map fun k => .vreg it.lane (d + k) (word (v / 2 ^ (32 * k))))
  | .scat => (State.store (touch .write) w W id (.main it.x.toNat) 32 (numOfWords it.ws), [])
  | .copy _ => (s, [])
  | .eq _ _ _ => (s, [])
  | .unite _ _ => (s, [])
  | .find _ _ => (s, [])
  | .fax _ _ _ _ _ => (s, [])
  | .toksend _ _ _ _ _ => (s, [])
  | .fmc _ => (s, [])

/-- Whether a request is performed: every access has been, and every result has landed (R156,
R159). -/
def Req.complete (r : Req) : Bool := r.todo.isEmpty && r.land.isEmpty

/-- A request marked performed if it is; what can retire then retires (R159). -/
def Warp.putReq (W : Warp) (r : Req) : Warp := Warp.setReq W { r with done := Req.complete r }

/-- A GATH lane that meets an uncorrectable granule is noted, and nothing of it lands (R169). -/
def Req.noteBad (r : Req) (m : Memory) (it : LaneItem) : Option Req :=
  match r.op with
  | .gath d bad =>
    if Memory.uncorrectable m it.x.toNat 32 then
      some { r with op := .gath d (bad ++ [(it.lane, it.addr.toNat)]) }
    else none
  | _ => none

/-- Whether a request is performed by REQUEST_RETIRES; copies, engine and fabric requests have steps
of their own. -/
def ReqOp.laneSteps : ReqOp → Bool
  | .copy _ => false
  | .eq _ _ _ => false
  | .unite _ _ => false
  | .find _ _ => false
  | .fax _ _ _ _ _ => false
  | .toksend _ _ _ _ _ => false
  | .fmc _ => false
  | _ => true

/-- Whether a request moves copy granules (R169, R365): a GATH or a SCAT, one for each lane. -/
def ReqOp.movesGranules : ReqOp → Bool
  | .gath _ _ => true
  | .scat => true
  | _ => false

/-- REQUEST_RETIRES: the next lane access of a request is performed, in ascending lane order; a
request with none left and nothing to land is performed and retires in issue order (R104, R156,
R158, R159). -/
def execRequestRetires (w id : Nat) (s : State) : Out State :=
  match State.warp? s w with
  | none => .next s
  | some W =>
    match Warp.req? W id with
    | none => .next s
    | some r =>
      if !ReqOp.laneSteps r.op || r.done then .next s
      else match r.todo with
      | [] => .next (State.setWarp s w (Warp.putReq W r))
      | it :: rest =>
        if State.blocked s w W r it then .next s
        else match Req.noteBad r s.main it with
        | some r => .next (State.countMain (State.setWarp s w (Warp.putReq W { r with todo := rest })) it.x.toNat)
        | none =>
          let (s, land) := performItem s w W r.id r.op it
          let s := if ReqOp.movesGranules r.op then State.tick s (State.coreOf s W) 6 else s
          .next (State.onWarp s w fun W =>
            Warp.putReq W { r with todo := rest, land := r.land ++ land })

/-- The lane that a landing goes to; a scalar register counts as lane 0. -/
def Land.lane : Land → Nat
  | .vreg L _ _ => L
  | .preg L _ _ => L
  | .sreg _ _ => 0

/-- The vector registers of a FAX's results (R294). -/
def FaxOp.dests : FaxOp → List Nat
  | .ld t d => if wideTy t then [d, d + 1] else [d]
  | .ldg d => (List.range 8).map (d + ·)
  | .st _ => []
  | .unite d => [d, d + 1]
  | .find d => [d]
  | .atomic _ t (some d) => if wideTy t then [d, d + 1] else [d]
  | .atomic _ _ none => []

/-- The vector registers that a request's results are aimed at in the lanes not yet performed
(R122). -/
def ReqOp.dests : ReqOp → List Nat
  | .load _ t d => if wideTy t then [d, d + 1] else [d]
  | .store _ _ => []
  | .atomic _ _ t (some d) => if wideTy t then [d, d + 1] else [d]
  | .atomic _ _ _ none => []
  | .cross => []
  | .sload _ _ _ => []
  | .sstore _ => []
  | .gath d _ => (List.range 8).map (d + ·)
  | .scat => []
  | .copy _ => []
  | .eq _ _ _ => []
  | .unite _ d => [d, d + 1]
  | .find _ d => [d]
  | .fax _ _ op _ _ => FaxOp.dests op
  | .toksend _ _ _ _ _ => []
  | .fmc _ => []

/-- Whether a request still aims a result at the target of a landing. -/
def Req.aims (r : Req) (l : Land) : Bool :=
  match l with
  | .vreg L d _ =>
    (r.todo.any fun it => it.lane = L && (ReqOp.dests r.op).contains d) ||
      r.land.any fun k => match k with
        | .vreg L' d' _ => L' = L && d' = d
        | .preg _ _ _ => false
        | .sreg _ _ => false
  | .preg L p _ =>
    r.land.any fun k => match k with
      | .preg L' p' _ => L' = L && p' = p
      | .vreg _ _ _ => false
      | .sreg _ _ => false
  | .sreg _ _ => false

/-- Whether an earlier request holds a landing back: one aimed at the same register and lane (R122),
or, on SH, any whose results are outstanding (R151). -/
def Warp.landsLater (W : Warp) (r : Req) (l : Land) : Bool :=
  W.reqs.any fun q => q.id < r.id &&
    (Req.aims q l || (r.path = .sh && q.path = .sh && !q.done && ReqOp.returns q.op))

/-- A landing of request `id` written into its register (R122): a scalar register unless a later-issued
instruction has written it (R97). -/
def Warp.landOne (id : Nat) (W : Warp) : Land → Warp
  | .vreg L d v => Warp.setV W d L v
  | .preg L p b => Warp.setP W p (setBit (Warp.p W p) L b)
  | .sreg d v => Warp.landS W (.req id) d v

/-- RESULT_LANDS: the results of one lane of a request are written (R122, R151); a scalar load's
result lands in its register (R104). -/
def execResultLands (w id lane : Nat) (s : State) : Out State :=
  match State.warp? s w with
  | none => .next s
  | some W =>
    match Warp.req? W id with
    | none => .next s
    | some r =>
      let mine := r.land.filter fun l => Land.lane l = lane
      if mine.any (Warp.landsLater W r) then .next s
      else
        let W := mine.foldl (Warp.landOne id) W
        .next (State.setWarp s w
          (Warp.putReq W { r with land := r.land.filter fun l => Land.lane l ≠ lane }))

/-- Whether the results of the runs of an await mask are all written (R19, R28), and their traps
taken (R169, R297). -/
def Warp.awaited (W : Warp) (mask : Nat) : Bool :=
  !(W.reqs.any fun r => Req.pendingResults r && r.run.isSome && tokenIn mask r.token) &&
    !Warp.tokenTrap W mask

/-- RUN_START: the run at the head of the queue starts when no other run of the warp executes, no trap can
be taken first (R316), and its awaited tokens are due (R19, R26, R119); it acts on the lanes of its mask that
have not exited (R112). DEDUCED: log 74. -/
def execRunStart (w : Nat) (s : State) : Out State :=
  match State.warp? s w with
  | none => .next s
  | some W =>
    match W.queue, W.exec with
    | e :: rest, none =>
      if State.active s W && W.laneTrap.isNone && (takePending s w).isNone && Warp.awaited W e.await then
        .next (State.setWarp s w
          { W with queue := rest,
                   exec := some { entry := e, live := e.mask &&& ~~~W.exited, idx := 0,
                                  latch := [], wbs := [], reqs := [], trail := none } })
      else .next s
    | _, _ => .next s

/-- A write-back takes effect. -/
def Warp.writeBack (W : Warp) : WriteBack → Warp
  | .vreg L d v => Warp.setV W d L v
  | .preg L p b => Warp.setP W p (setBit (Warp.p W p) L b)

/-- Whether every counter has room for a list of requests (R117). -/
def Warp.roomFor (W : Warp) (rs : List Req) : Bool :=
  [Path.sh, .sc, .sp, .cp, .fb, .eq].all fun p =>
    Warp.room W p (rs.filter fun r => r.path = p).length

/-- The warp after a run's commit (R121): the write-backs together, later ones over earlier, then
the requests in instruction order. -/
def Warp.commit (W : Warp) (e : RunExec) : Warp :=
  let W := e.wbs.foldl Warp.writeBack W
  let W := e.reqs.foldl Warp.issue W
  { W with exec := none }

/-! ### The packets of FAX (R289) -/

/-- The bytes of a FAX access at the home; 0 for the forest operations (R294). -/
def FaxOp.size : FaxOp → Nat
  | .ld t _ => tyBytes t
  | .ldg _ => 32
  | .st n => n
  | .unite _ => 0
  | .find _ => 0
  | .atomic _ t _ => tyBytes t

/-- The most bytes of data that one lane adds to a packet or its response (R289). -/
def FaxOp.payload : FaxOp → Nat
  | .unite _ => 8
  | .find _ => 4
  | .atomic op t _ => if op = .cas then 2 * tyBytes t else tyBytes t
  | op => FaxOp.size op

/-- Whether a sub-operation acts on a forest (R290). -/
def FaxOp.onForest : FaxOp → Bool
  | .unite _ => true
  | .find _ => true
  | _ => false

/-- Whether a sub-operation only loads (R290). -/
def FaxOp.loads : FaxOp → Bool
  | .ld _ _ => true
  | .ldg _ => true
  | _ => false

/-- Whether a sub-operation is an atomic (R294). -/
def FaxOp.isAtomic : FaxOp → Bool
  | .ld _ _ => false
  | .ldg _ => false
  | .st _ => false
  | .unite _ => false
  | .find _ => false
  | .atomic _ _ _ => true

/-- The fn of a sub-operation (R65), and its type. -/
def FaxOp.code : FaxOp → Nat × Nat
  | .ld t _ => (0, tyCode t)
  | .ldg _ => (1, tyCode .b32)
  | .st n => (2, tyCode (if n = 8 then .b64 else .b32))
  | .unite _ => (3, tyCode .n32)
  | .find _ => (4, tyCode .n32)
  | .atomic op t _ => (8 + (match op with
      | .add => 0 | .min => 1 | .max => 2 | .and => 3 | .or => 4 | .xor => 5 | .xchg => 6 | .cas => 7), tyCode t)

/-- The packets of a FAX request to a peer leave the device (R288, R289): window, SUBOP and TY, and each
lane with its offset, data and new value. A load carries no data. -/
def State.sendFax (w : Nat) (W : Warp) (s : State) (r : Req) : State :=
  match r.op with
  | .fax peer win op pkts _ =>
    if State.isSelf s peer then s
    else pkts.foldl (fun s lanes =>
      let items := r.todo.filter fun it => lanes.contains it.lane
      State.post s (State.stamp s W
        { kind := 1, dst := peer, win := win, lanes := lanes, owner := some (w, r.id),
          block := if FaxOp.onForest op then 0 else (items.head?.elim 0 (·.addr.toNat)) / 256,
          bytes := if FaxOp.loads op then 0 else items.length * FaxOp.payload op,
          data := win :: (FaxOp.code op).1 :: (FaxOp.code op).2 :: items.flatMap fun it =>
            [it.lane, it.addr.toNat, it.x.toNat, it.y.toNat] })) s
  | _ => s

/-- RUN_COMMIT: a run at its TRAIL commits once every counter has room (R117, R121). -/
def execRunCommit (w : Nat) (s : State) : Out State :=
  match State.warp? s w with
  | none => .next s
  | some W =>
    match W.exec with
    | none => .next s
    | some e =>
      if e.trail.isSome && Warp.roomFor W e.reqs then
        let V := Warp.commit W e
        .next ((V.reqs.filter fun r => decide (W.nextReq ≤ r.id)).foldl (State.sendFax w V)
          (State.tick (State.setWarp s w V) (State.coreOf s W) 3))
      else .next s

/-- The executing run of State.laneCur has come to a slot whose fetch met uncorrectable data: it is never delivered, and
the run fails precisely (R25), with MEMUNC and the slot's address. DESIGN CHOICE: log 84. -/
def State.lostSlot (s : State) : Option (Out State) :=
  (State.laneCtx? s).bind fun c => (c.ex.entry.code[c.ex.idx]?).bind fun k =>
    if k.lost && State.active s c.warp then
      some (LaneCtx.trap c s (causeCode 4 4) c.ex.live (dword (State.runVA s c.warp (LaneCtx.index c))))
    else none

/-- ASYNC_TRAP_TAKEN: a pending trap of the warp is taken, when it can be (R315, R316). -/
def execAsyncTrapTaken (w : Nat) (s : State) : Out State :=
  match State.warp? s w with
  | none => .next s
  | some W => .next (if State.active s W then (takePending s w).getD s else s)

end Sys2Proof.Machine
end

