-- ==== Sys2Proof/Machine/Copy.lean ====
section
/-! DEFINITION. The copy instructions and the copy unit's steps (R165 to R180). -/
namespace Sys2Proof.Machine

/-! ### Tile handles -/

/-- A scalar instruction that reads local memory at its issue and then acts on the value. -/
def Ctx.withRead (c : Ctx) (s : State) (sp : Space) (x n : Nat) (later : Wait)
    (k : State → Nat → Out State) (limit : Nat) : Out State :=
  match State.chipRead s c.w c.warp sp x n limit with
  | .later => Ctx.wait c later s
  | .ok s v => k s v

/-- The argument block's offset and length, for a warp. -/
def State.args (s : State) (W : Warp) : Nat × Nat :=
  match State.gridOf? s W with
  | some g => (g.argOff, g.argLen)
  | none => (0, 0)

/-- THBIND's end (R165): the handle receives the binding or is unbound, and S[d] the status. -/
def Ctx.bindHandle (c : Ctx) (s : State) (d h status : Nat) (b : TileBind) : Out State :=
  let s := State.onTeam s c.warp.team fun T =>
    { T with handles := if status = 0 then AMap.set T.handles h b else AMap.erase T.handles h }
  Ctx.answer c d (word status) s

/-- THBIND from record offset x, its reads after the requests before `limit` (R165). -/
def Ctx.thbind (c : Ctx) (s : State) (d h x limit : Nat) : Out State :=
  let later := Wait.thbind d h x limit
  Ctx.withRead c s .scratch x 64 later (limit := limit) fun s r =>
    let (b, ptr) := TileBind.ofRecord r
    let (argOff, argLen) := State.args s c.warp
    if !layoutReserved r || !TileBind.ok b then Ctx.bindHandle c s d h 1 b
    else if ptr % 8 ≠ 0 || argLen < ptr + 8 then Ctx.bindHandle c s d h 3 b
    else Ctx.withRead c s .scratch (argOff + ptr) 8 later (limit := limit) fun s base =>
      let st := if 2 ^ 57 ≤ base then 4 else if base % 32 ≠ 0 then 2 else 0
      Ctx.bindHandle c s d h st { b with base := base }

/-- THBIND (R165). -/
def execThbind (d h b : Nat) (s : State) : Out State :=
  withFrag s fun c =>
    let x := (Warp.s c.warp b).toNat
    if x % 64 ≠ 0 then Ctx.trap c s (causeCode 3 5) (dword x)
    else match State.chipRange s c.warp .scratch x 64 with
      | some cause => Ctx.trap c s cause (dword x)
      | none => Ctx.thbind c s d h x c.warp.nextReq

/-! ### Issue -/

/-- The commands of a warp that a copy unit holds while its team is resident: those that have not completed
(R168). -/
def Warp.commands (W : Warp) : Nat :=
  (W.reqs.filter fun r => r.path = .cp && match r.op with
    | .copy _ => !r.done
    | _ => false).length

/-- The commands that a core's copy unit holds (R168): those of its resident teams. The order in which they start shows
nowhere: granules become visible in any order (R174). DEDUCED: log 92. -/
def State.commands (s : State) (core : Nat) : Nat :=
  (s.warps.map fun W => if State.resident s W && State.coreOf s W = core then Warp.commands W else 0).sum

/-- The slot of a completion word: its space and offset (R170). -/
def slotOf (cw : Nat) : Space × Nat :=
  (if bits cw 31 28 = 0 then .shared else .scratch, bits cw 27 6 * 64)

/-- The checks of a completion word before its ARRIVE is read (R170). No rule checks a record's slot against
the .const range: a record is written there like elsewhere. DESIGN CHOICE: log 94. -/
def State.checkSlot (s : State) (W : Warp) (cw : Nat) : Option (Nat × Nat) :=
  let space := bits cw 31 28
  let (sp, off) := slotOf cw
  if bits cw 4 0 ≠ 0 || (bits cw 5 5 = 1 && space = 15) || (space ≠ 0 && space ≠ 1 && space ≠ 15)
  then some (causeCode 4 0, cw)
  else if space = 15 then none
  else (State.chipRange s W sp off 64).map fun cause => (cause, cw)

/-- The object at a place of a team, as request `id` of a warp finds it: undefined where a matrix operation that no MWAIT
has covered reads or writes it (R204), or where it is uncorrectable. -/
def State.openBar (s : State) (w : Nat) (W : Warp) (id t off : Nat) : State :=
  State.mendBar (if State.hidden s W id (.chip (.team t off)) 8 then
      State.store s w W id (.chip (.team t off)) 8 0
    else s) t off

/-- The checks of an ARRIVE word (R170), and the barrier object it names. The COUNT of an object whose bytes are undefined
causes no trap (R6). -/
def State.checkArrive (s : State) (w : Nat) (W : Warp) (x : Nat) : Except Nat (State × Nat × Nat) :=
  if x % 8 ≠ 0 then .error (causeCode 3 5)
  else match State.sharedAt s W x with
    | some (t, off, len) =>
      let p := Place.team t off
      let undefined := State.hidden s W W.nextReq (.chip p) 8 || State.badPlace s w p 8
      let s := State.openBar s w W W.nextReq t off
      if len < off + 8 then .error (causeCode 3 0)
      else if (State.bar s t off).count = 0 && !undefined then .error (causeCode 4 0)
      else .ok (s, t, off)
    | none => .error (causeCode 3 0)

/-- The path of a command (R22). -/
def CopyWork.path : CopyWork → Path
  | .eqrel _ => .eq
  | _ => .cp

/-- What a command that has passed its checks waits for at its issue, if anything (R117, R168): room on its path,
or a place in the copy unit. -/
def Ctx.commandWait (c : Ctx) (s : State) (p : Path) : Option Wait :=
  if !Warp.room c.warp p 1 then some (.room p)
  else if p = .cp && 32 ≤ State.commands s (State.coreOf s c.warp) then some .command
  else none

/-- A copy command issues as one request on CP (R168), an EQREL as one on EQ (R247), once there is room for it;
`u` is the state with the barrier's PEND raised. The checks come first. DEDUCED: log 38. -/
def Ctx.issueCommand (c : Ctx) (s u : State) (cmd : CopyCmd) : Out State :=
  let path := CopyWork.path cmd.work
  match Ctx.commandWait c s path with
  | some k => Ctx.wait c k s
  | none =>
    .next (Ctx.advance c 1 (Ctx.on c u fun W => Warp.issue W
      { id := 0, path := path, op := .copy cmd, todo := [], land := [], done := false, run := none,
        token := 0, lev := c.warp.tlev }))

/-- The end of a copy's issue (R170, R226): the completion word is checked, and with BAR the ARRIVE
word is read and checked; then the command issues, and the object's PEND rises. An undefined ARRIVE word that names no
object causes no trap, and the copy arrives nowhere. DESIGN CHOICE: log 110. -/
def Ctx.issueCopy (c : Ctx) (s : State) (work : CopyWork) (mode cw : Nat) : Out State :=
  match State.checkSlot s c.warp cw with
  | some (cause, tval) => Ctx.trap c s cause (dword tval)
  | none =>
    let (sp, off) := slotOf cw
    let slot := if bits cw 31 28 = 15 then none else some (sp, off)
    if bits cw 5 5 = 0 then
      Ctx.issueCommand c s s { work := work, mode := mode, slot := slot, bar := none, stop := .running }
    else
      let undefined := State.openRead s c.w c.warp sp (off + 60) 4 c.warp.nextReq
      Ctx.withRead c s sp (off + 60) 4 (.ordered sp (off + 60) 4 c.warp.nextReq) (limit := c.warp.nextReq) fun s x =>
      match State.checkArrive s c.w c.warp x with
      | .error cause =>
        if undefined then Ctx.issueCommand c s s { work := work, mode := mode, slot := slot, bar := none, stop := .running }
        else Ctx.trap c s cause (dword x)
      | .ok (s, t, o) =>
        let b := State.bar s t o
        Ctx.issueCommand c s (State.setBar s t o { b with pend := b.pend + 1 })
          { work := work, mode := mode, slot := slot, bar := some x, stop := .running }

/-- A copy instruction on the words of its group, which it reads at its issue (R166). -/
def Ctx.copyGroup (c : Ctx) (a : Nat) (k : Nat → Nat → Nat → Nat → Out State) : Out State :=
  let r (i : Nat) : Nat := (Warp.s c.warp (a + i)).toNat
  k (r 0) (r 1) (r 2) (r 3)

/-- CPY.LIN (R166, R167). -/
def execCpyLin (a : Nat) (s : State) : Out State :=
  withFrag s fun c => Ctx.copyGroup c a fun dw sw hw cw =>
    match State.checkLin s c.warp dw sw hw with
    | .error (cause, tval) => Ctx.trap c s cause (dword tval)
    | .ok p => Ctx.issueCopy c s (.piece p) 0 cw

/-- CPY.TILE (R166, R167). -/
def execCpyTile (a : Nat) (s : State) : Out State :=
  withFrag s fun c => Ctx.copyGroup c a fun dw sw hw cw =>
    match State.checkTile s c.warp dw sw hw with
    | .error (cause, tval) => Ctx.trap c s cause (dword tval)
    | .ok p => Ctx.issueCopy c s (.piece p) 1 cw

/-- CPY.RING (R166, R167). -/
def execCpyRing (a : Nat) (s : State) : Out State :=
  withFrag s fun c => Ctx.copyGroup c a fun iw rw nw cw =>
    let len := if bits nw 27 16 = 0 then 4096 else bits nw 27 16
    let count := bits nw 12 0
    match firstFailed
      [(bits iw 31 12 ≠ 0, causeCode 4 0, iw), ((chipEnd rw).isNone, causeCode 4 0, rw),
       (bits nw 31 28 ≠ 0 || bits nw 15 13 ≠ 0, causeCode 4 0, nw),
       (count = 0 || len < count || 4096 < count, causeCode 4 2, nw),
       (rw % 16 ≠ 0, causeCode 4 3, rw),
       rangeCheck s c.warp (endOf 0 rw) (16 * len) rw] with
    | some (cause, tval) => Ctx.trap c s cause (dword tval)
    | none =>
      Ctx.issueCopy c s (.ring { at_ := endOf 0 rw, start := bits iw 11 0, count := count, len := len,
                                 pos := 0, bytes := 0, cur := none }) 2 cw

/-! ### Progress and completion -/

/-- The progress of a command (R178). -/
def CopyWork.progress : CopyWork → Nat
  | .piece p => match p.tile with
    | none => Piece.bytes p
    | some _ => Piece.progress p
  | .ring r => r.pos
  | .level l => l.pos
  | .eqrel e => e.pos

/-- CPYPROG (R178): the progress of the warp's oldest unretired copy or transfer. -/
def execCpyprog (d : Nat) (s : State) : Out State :=
  withFrag s fun c =>
    let p := c.warp.reqs.findSome? fun r => match r.op with
      | .copy k => if r.path = .cp then some (CopyWork.progress k.work) else none
      | _ => none
    Ctx.result c d (word (p.getD 0xFFFFFFFF)) s

/-- CPYW's wait for a slot (R175). -/
def Ctx.cpyw (c : Ctx) (s : State) (d : Nat) (sp : Space) (off : Nat) : Out State :=
  let (s, v) := State.load s c.w c.warp c.warp.nextReq (.chip (State.placeOf s c.warp sp off)) 4
  if v % 256 = 0 then Ctx.wait c (.cpyw d sp off) s else Ctx.answer c d (word v) s

/-- CPYW (R175). -/
def execCpyw (d a : Nat) (off : Int) (s : State) : Out State :=
  withFrag s fun c =>
    let x := (Warp.s c.warp a + BitVec.ofInt 32 (64 * off)).toNat
    if 2 ≤ bits x 31 28 || bits x 5 0 ≠ 0 then Ctx.trap c s (causeCode 4 0) (dword x)
    else
      let (sp, o) := slotOf x
      match State.chipRange s c.warp sp o 64 with
      | some cause => Ctx.trap c s cause (dword x)
      | none => Ctx.cpyw c s d sp o

/-! ### The stage queue (R176) -/

/-- A fragment of the team begins its wait on the stage queue. -/
def Ctx.stageWait (c : Ctx) (s : State) (k : Wait) : Out State :=
  .next (State.reportStall (Ctx.on c s fun W => Warp.await W c.slot k) c.warp.team)

/-- CQPUT. -/
def execCqput (a : Nat) (s : State) : Out State :=
  withFrag s fun c =>
    match State.teamOf? s c.warp with
    | none => .next s
    | some T =>
      if 16 ≤ T.stage.length then Ctx.stageWait c s .stagePut
      else .next (Ctx.advance c 1
        (State.onTeam s c.warp.team fun T => { T with stage := T.stage ++ [Warp.s c.warp a], told := false }))

/-- CQGET. -/
def execCqget (d : Nat) (s : State) : Out State :=
  withFrag s fun c =>
    match (State.teamOf? s c.warp).map (·.stage) with
    | some (v :: rest) =>
      Ctx.result c d v (State.onTeam s c.warp.team fun T => { T with stage := rest, told := false })
    | _ => Ctx.stageWait c s .stageGet

/-! ### GATH and SCAT (R169) -/

/-- The lanes' granules translated in lane order: their items, the lanes whose translation faults with
its cause, and State with the TLB entries that translation made. A and D wait for the access (R20). -/
def translateLanes (c : LaneCtx) (acc : Access) (item : Nat → Nat → Nat → LaneItem) (va : Nat → Nat) :
    State → List Nat → State × List LaneItem × List (Nat × Nat)
  | s, [] => (s, [], [])
  | s, L :: rest =>
    match State.lookup s (State.agentOf s c.warp) (State.asidOf s c.warp) (va L) acc with
    | .ok (s, pa) =>
      let (s, items, bad) := translateLanes c acc item va s rest
      (s, item L (va L) pa :: items, bad)
    | .error f =>
      let (s, items, bad) := translateLanes c acc item va (State.walked s f) rest
      (s, items, (L, XlFault.code f) :: bad)

/-- GATH and SCAT (R169): the checks in order, each over all lanes, then one request on CP.
DEDUCED: log 21. -/
def laneGranules (acc : Access) (o : LaneOp) (op : ReqOp) (data : LaneCtx → Nat → List Word)
    (s : State) : Out State :=
  withRun s fun c =>
    let ls := LaneCtx.partLanes c o
    let off (L : Nat) : Nat := LaneCtx.src c o (if o.ty = .b64 then .n64 else .n32) o.b L
    let h := LaneCtx.src c o .n32 o.a 0
    let skew := ls.filter fun L => off L % 32 ≠ 0
    if ls.isEmpty then LaneCtx.ask c o s []
    else match (if h ≤ 63 then State.handle? s c.warp h else none) with
    | none => LaneCtx.trap c s (causeCode 4 1) (maskOfList ls) (dword (LaneCtx.index c))
    | some b =>
      if !skew.isEmpty then
        LaneCtx.trap c s (causeCode 4 3) (maskOfList skew) (dword (LaneCtx.index c))
      else
        let va (L : Nat) : Nat := b.base + off L
        let item (L va pa : Nat) : LaneItem := ⟨L, dword va, dword pa, 0, data c L⟩
        match translateLanes c acc item va s ls with
        | (s, items, []) => LaneCtx.ask c o s [LaneCtx.request c .cp op items []]
        | (s, _, (L, cause) :: rest) =>
          let bad := L :: (rest.filter fun x => x.2 = cause).map (·.1)
          if c.warp.idem && c.ex.entry.lev = 0 then
            .next (idemAbort s c.warp.team cause (va L))
          else LaneCtx.trap c s cause (maskOfList bad) (dword (va L)) (acc = .write)

/-- GATH (R169). -/
def execGath (o : LaneOp) (s : State) : Out State :=
  laneGranules .read o (.gath o.d []) (fun _ _ => []) s

/-- The eight registers from c of a lane (R169). -/
def scatData (o : LaneOp) (c : LaneCtx) (L : Nat) : List Word :=
  match o.c with
  | .v r => (List.range 8).map fun k => Warp.v c.warp (r + k) L
  | _ => []

/-- SCAT (R169). -/
def execScat (o : LaneOp) (s : State) : Out State := laneGranules .write o .scat (scatData o) s

/-! ### The copy unit -/

/-- The command of a copy request. -/
def Req.command? (r : Req) : Option CopyCmd :=
  match r.op with
  | .copy c => if r.done then none else some c
  | _ => none

/-- A copy request with its command replaced. -/
def State.setCommand (s : State) (w : Nat) (r : Req) (c : CopyCmd) : State :=
  State.onWarp s w fun W => Warp.setReq W { r with op := .copy c }

/-- A command's work stopped where it stands, to resume there (R179, R180). -/
def CopyWork.rewind : CopyWork → CopyWork
  | .piece p => .piece (Piece.rewind p)
  | .ring r => .ring { r with cur := r.cur.map Piece.rewind }
  | .level l => .level { l with held := none }
  | .eqrel e => .eqrel e

/-- A command that ends at an uncorrectable granule (R172); FAULT is MEMUNC, the cause of R313 for one. DEDUCED:
log 91. -/
def State.failCommand (s : State) (w : Nat) (r : Req) (c : CopyCmd) (faddr : Nat) : State :=
  State.setCommand s w r { c with stop := .failed 0x11 (causeCode 4 4) faddr }

/-- A command that meets a failure (R172, R179, R332): a translation fault aborts an idempotent team,
or is reported and waits for the supervisor; an uncorrectable granule ends the copy. -/
def State.stopCommand (s : State) (w : Nat) (W : Warp) (r : Req) (c : CopyCmd) (f : MoveFail) :
    State :=
  let c := { c with work := CopyWork.rewind c.work }
  match f with
  | .xlate f va =>
    let s := State.walked s f
    let cause := XlFault.code f
    if W.idem && r.lev = 0 then idemAbort s W.team cause va
    else State.report (State.setCommand s w r { c with stop := .faulted cause va })
      .copyFault [w, r.id, cause, va]
  | .unc p faddr => State.failCommand (State.metWhere s w p) w r c faddr

/-- The units of a linear transfer whose ranges overlap that have still to read bytes which writing granule `g` replaces:
byte i of the destination receives byte i of the source (R168), so they are read before. -/
def Piece.ahead (s : State) (W : Warp) (p : Piece) (g : Nat) : List (Nat × End) :=
  if p.tile.isSome then []
  else
    let mine := (Piece.inGranule p g).filterMap fun x => State.peek s W x.2.1
    (List.range (Piece.total p)).filterMap fun u =>
      match Piece.remaining p u, Piece.unit p u with
      | some h, some (_, some e) =>
        if h != g && (AMap.get? p.saved u).isNone && (State.peek s W e).any fun x => mine.any fun q => Where.meets q 4 x 4
        then some (u, e) else none
      | _, _ => none

/-- One destination granule of a piece written, whole (R174): the piece after it. -/
def State.granule (s : State) (w : Nat) (W : Warp) (id : Nat) (p : Piece) (g : Nat) :
    Except MoveFail (State × Piece) :=
  let n := Piece.unitBytes p
  match State.readUnits w W id n s (Piece.ahead s W p g) with
  | .error f => .error f
  | .ok (s, vs) =>
    match State.gatherUnits w W id n p.saved s (Piece.inGranule p g) with
    | .error f => .error f
    | .ok (s, ws) =>
      .ok (State.writeUnits s w W id p ws, { p with done := p.done ++ [g], saved := p.saved ++ vs })

/-- What the units of a granule read and write. -/
def Piece.granuleTouches (s : State) (W : Warp) (p : Piece) (g : Nat) : List (Where × Nat × Bool) :=
  let n := Piece.unitBytes p
  (Piece.inGranule p g).flatMap fun x =>
    ((State.peek s W x.2.1).toList.map fun y => (y, n, true)) ++
      (((if (AMap.get? p.saved x.1).isSome then none else x.2.2).bind (State.peek s W)).toList.map fun y =>
        (y, n, false))

/-- A ring whose record under way is complete counts it (R168). -/
def Ring.settle (r : Ring) : Ring :=
  match r.cur with
  | some p =>
    if Piece.finished p then { r with pos := r.pos + 1, bytes := r.bytes + Piece.bytes p, cur := none }
    else r
  | none => r

/-- A ring takes its next record just before it performs it (R168). DEDUCED: log 20. A record that fails its checks has
no failing byte in main memory: FADDR is 0. DESIGN CHOICE: log 104. -/
def State.takeRecord (s : State) (w : Nat) (W : Warp) (r : Req) (c : CopyCmd) (q : Ring) : State :=
  let at_ := End.add q.at_ (16 * Ring.next q q.pos)
  match State.peek s W at_ with
  | none => s
  | some p =>
    if State.cpBlocked s w W r.id [(p, 16, false)] then s
    else if State.badGranule s w p then State.failCommand (State.metWhere s w p) w r c (End.name (End.floor at_))
    else
      let (s, x) := State.load s w W r.id p 16
      match State.checkRecord s W x with
      | .error cause => State.setCommand s w r { c with stop := .failed 0x12 cause 0 }
      | .ok p => State.setCommand s w r { c with work := .ring (Ring.settle { q with cur := some p }) }

/-- Whether a running command has something to move that no earlier request holds back (R174). -/
def CopyCmd.able (s : State) (w : Nat) (W : Warp) (id : Nat) (c : CopyCmd) : Bool :=
  let piece (p : Piece) : Bool := ((List.range (Piece.total p)).filterMap (Piece.remaining p)).any fun g =>
    !State.cpBlocked s w W id (Piece.granuleTouches s W p g)
  match c.stop, c.work with
  | .running, .piece p => piece p
  | .running, .ring q => q.cur.any piece
  | .running, .level l => l.pos != Grid3.count l.dg && !State.cpBlocked s w W id (Level.pointTouches s W l)
  | _, _ => false

/-- The commands that a core's copy unit has advanced in its round. -/
def State.copyRound (s : State) (core : Nat) : List (Nat × Nat) := (AMap.get? s.copyRounds core).getD []

/-- Whether every other command of a core that could be advanced has been, in the unit's round (R168). -/
def State.roundOver (s : State) (core w id : Nat) : Bool :=
  s.warps.zipIdx.all fun x => !State.resident s x.1 || State.coreOf s x.1 != core || x.1.reqs.all fun r =>
    (x.2 = w && r.id = id) || (State.copyRound s core).contains (x.2, r.id) || r.done || r.path != .cp ||
      (Req.command? r).all fun c => !CopyCmd.able s x.2 x.1 r.id c

/-- Whether the copy unit may advance a command now (R168): it has not in this round, or the round is over. -/
def State.copyTurn (s : State) (core w id : Nat) : Bool :=
  !(State.copyRound s core).contains (w, id) || State.roundOver s core w id

/-- A command advanced in its unit's round, or first in the next. -/
def State.advanced (s : State) (core w id : Nat) : State :=
  let round := State.copyRound s core
  { s with copyRounds := AMap.set s.copyRounds core (if round.contains (w, id) then [(w, id)] else round ++ [(w, id)]) }

/-- COPY_GRANULE: the copy unit, in its round, writes destination granule `g` of a command, or takes a ring's next
record (R168, R174, R179). -/
def execCopyGranule (w id g : Nat) (s : State) : Out State :=
  match State.warp? s w with
  | none => .next s
  | some W =>
    match Warp.req? W id with
    | none => .next s
    | some r =>
      match if State.resident s W then Req.command? r else none with
      | none => .next s
      | some c =>
        let core := State.coreOf s W
        let go (p : Piece) (k : Piece → CopyWork) : State :=
          if (Piece.inGranule p g).isEmpty || !State.copyTurn s core w id then s
          else if State.cpBlocked s w W id (Piece.granuleTouches s W p g) then s
          else
            let s := State.advanced s core w id
            match State.granule s w W id p g with
            | .error f => State.stopCommand s w W r c f
            | .ok (s, p) => State.tick (State.setCommand s w r { c with work := k p }) core 6
        match c.stop, c.work with
        | .running, .piece p => .next (go p .piece)
        | .running, .ring q =>
          match q.cur with
          | some p => .next (go p fun p => .ring (Ring.settle { q with cur := some p }))
          | none => .next (if q.pos < q.count then State.takeRecord s w W r c q else s)
        | _, _ => .next s

/-- Whether a command has written everything. -/
def CopyWork.finished : CopyWork → Bool
  | .piece p => Piece.finished p
  | .ring r => r.pos = r.count
  | .level l => l.pos = Grid3.count l.dg
  | .eqrel _ => false

/-- BYTES of a completion record (R171). -/
def CopyWork.bytes : CopyWork → Nat
  | .piece p => Piece.bytes p
  | .ring r => r.bytes + (match r.cur with
      | some p => Piece.bytes p
      | none => 0)
  | .level l => l.pos * gridEs l.dg.fmt
  | .eqrel e => e.bytes

/-- DONE of a completion record (R171). -/
def CopyWork.records : CopyWork → Nat
  | .piece _ => 0
  | .ring r => r.pos
  | .level _ => 0
  | .eqrel _ => 0

/-- The first 60 bytes of a completion record (R171); the copy unit keeps ARRIVE. DESIGN CHOICE: log 112,
for BYTES of 2^32 and more. -/
def recordBytes (status mode bytes cause records faddr : Nat) : Nat :=
  status + mode * 2 ^ 8 + bytes % 2 ^ 32 * 2 ^ 32 + cause * 2 ^ 64 + records * 2 ^ 112 +
    faddr * 2 ^ 192

/-- STATUS, FAULT and FADDR with which a command can complete now, if it can (R172). -/
def CopyCmd.outcome (c : CopyCmd) : Option (Nat × Nat × Nat) :=
  match c.stop with
  | .running => if CopyWork.finished c.work then some (1, 0, 0) else none
  | .faulted _ _ => none
  | .failed status cause faddr => some (status, cause, faddr)

/-- Bytes written with undefined values (R6). -/
def State.scramble (s : State) (w : Nat) (ps : List Where) : State :=
  ps.foldl (fun s p =>
    { State.writeWhere s w p 1 (Config.freeByte s.freeCount).toNat with
      freeCount := s.freeCount + 1 }) s

/-- The arrival of a completing copy, request `id` (R173, R226): PEND falls, and the arrival is counted or dropped;
answers STATUS after it. -/
def State.copyArrival (s : State) (w : Nat) (W : Warp) (id : Nat) (bar : Option Nat) (status : Nat) : State × Nat :=
  match bar.bind (State.sharedAt s W) with
  | none => (s, status)
  | some (t, off, _) =>
    let s := State.openBar s w W id t off
    let b := Bar.unpend (State.bar s t off)
    let s := State.setBar s t off b
    if Bar.dropped b then (s, if status = 1 then 2 else status)
    else (State.arriveBar s t off, status)

/-- The record of request `id` written, if it has a slot (R171). -/
def State.writeRecord (s : State) (w : Nat) (W : Warp) (id : Nat) (slot : Option (Space × Nat)) (v : Nat) :
    State :=
  match slot with
  | some (sp, off) => State.store s w W id (.chip (State.placeOf s W sp off)) 60 v
  | none => s

/-- A command that completes with an outcome (R171 to R173, R247): the arrival, then the record, which
holds the arrival's outcome, and the request has been performed, all in this one step. -/
def State.completeCommand (s : State) (w : Nat) (W : Warp) (r : Req) (c : CopyCmd)
    (status cause faddr : Nat) : State :=
  let (s, status) := State.copyArrival s w W r.id c.bar status
  let s := State.writeRecord s w W r.id c.slot
    (recordBytes status c.mode (CopyWork.bytes c.work) cause (CopyWork.records c.work) faddr)
  State.onWarp s w fun W => Warp.setReq W { r with done := true }

/-- COPY_COMPLETE: a command whose writes have been performed, or that has failed, arrives at its
barrier, writes its record and retires in turn (R171 to R173). -/
def execCopyComplete (w id : Nat) (s : State) : Out State :=
  match State.warp? s w with
  | none => .next s
  | some W =>
    match Warp.req? W id with
    | none => .next s
    | some r =>
      match (Req.command? r).bind fun c => (CopyCmd.outcome c).map fun o => (c, o) with
      | none => .next s
      | some (c, status, cause, faddr) =>
        if r.path = .cp && State.resident s W then .next (State.completeCommand s w W r c status cause faddr) else .next s

/-- The supervisor's answer to a reported fault of a copy (R179): it resumes, or it fails. -/
def State.copyReply (s : State) (w id : Nat) (resume : Bool) : State :=
  match State.warp? s w with
  | none => s
  | some W =>
    match Warp.req? W id with
    | none => s
    | some r =>
      match Req.command? r with
      | none => s
      | some c =>
        match c.stop with
        | .faulted cause va =>
          State.setCommand s w r
            { c with stop := if resume then .running else .failed 0x10 cause va }
        | _ => s

end Sys2Proof.Machine
end

