-- ==== Sys2Proof/Machine/Flags.lean ====
section
/-! DEFINITION. The flags of the Shudal. It has no flag register that arithmetic sets: a comparison writes
a predicate or a register (R98, R134). Its only flags are the three sticky bits of MSTAT (R208). -/
namespace Sys2Proof.Machine

/-- MSTAT.UNDER: an E2M1 escape had no side-list entry. -/
def mstatUnder : Nat := 1
/-- MSTAT.DSAT: a drain clamped a value. -/
def mstatDsat : Nat := 2
/-- MSTAT.DNAN: a drain met a NaN. -/
def mstatDnan : Nat := 4

/-- The magnitude of a value. -/
def magnitude : Ext → Ext
  | .fin _ n d => .fin false n d
  | .inf _ => .inf false
  | .zero _ => .zero false
  | .nan => .nan

/-- The bits that draining an accumulator value to a format sets (R207, R208). -/
def drainFlags (f : Fmt) (v : Ext) : Nat :=
  if v = .nan then mstatDnan else if Ext.lt (Fmt.max f false) (magnitude v) then mstatDsat else 0

/-- The bit that a block's decoding sets (R208). -/
def underFlag (b : Bool) : Nat := if b then mstatUnder else 0

/-- MSTAT with the bits of a retired operation (R208). -/
def Warp.raise (W : Warp) (flags : Nat) : Warp := { W with mstat := W.mstat ||| word flags }

end Sys2Proof.Machine
end

