-- ==== Sys2Proof/Machine/LaneFloat.lean ====
section
/-! DEFINITION. The lane floating-point instructions (R131 to R133). -/
namespace Sys2Proof.Machine

/-- A source's decoded value at the instruction's type. -/
def laneVal (t : LaneTy) (raw : Nat) : Ext := decodeF (fmtOf t) (tyLow t raw)

/-- A float result of three sources, rounded once in the mode of fn (R65, R131). -/
def laneF3 (o : LaneOp) (s : State) (f : Rnd → Ext → Ext → Ext → Ext) : Out State :=
  withRun s fun c => LaneCtx.giveTy c o s fun L =>
    let m := rndOfFn o.fn
    roundEnc (fmtOf o.ty) m (f m (laneVal o.ty (LaneCtx.a c o L)) (laneVal o.ty (LaneCtx.b c o L))
      (laneVal o.ty (LaneCtx.c c o L)))

/-- A result made from the low bits of two sources. -/
def laneFBits (o : LaneOp) (s : State) (f : Nat → Nat → Nat) : Out State :=
  withRun s fun c => LaneCtx.giveTy c o s fun L =>
    f (tyLow o.ty (LaneCtx.a c o L)) (tyLow o.ty (LaneCtx.b c o L))

/-- FADD (R131). -/
def execLaneFadd (o : LaneOp) (s : State) : Out State := laneF3 o s fun m x y _ => Ext.add m x y
/-- FSUB (R131). -/
def execLaneFsub (o : LaneOp) (s : State) : Out State :=
  laneF3 o s fun m x y _ => Ext.add m x (Ext.negate y)
/-- FMUL (R131). -/
def execLaneFmul (o : LaneOp) (s : State) : Out State := laneF3 o s fun _ x y _ => Ext.mul x y
/-- FFMA (R131). -/
def execLaneFfma (o : LaneOp) (s : State) : Out State := laneF3 o s fun m x y z => Ext.fma m x y z
/-- FMIN (R131). -/
def execLaneFmin (o : LaneOp) (s : State) : Out State := laneFBits o s (minMaxF (fmtOf o.ty) false)
/-- FMAX (R131). -/
def execLaneFmax (o : LaneOp) (s : State) : Out State := laneFBits o s (minMaxF (fmtOf o.ty) true)
/-- FABS: the sign bit cleared (R131). -/
def execLaneFabs (o : LaneOp) (s : State) : Out State :=
  laneFBits o s fun x _ => x % 2 ^ (tyBits o.ty - 1)
/-- FNEG: the sign bit inverted (R131). -/
def execFneg (o : LaneOp) (s : State) : Out State :=
  laneFBits o s fun x _ => x ^^^ 2 ^ (tyBits o.ty - 1)
/-- FRCP (R131). -/
def execFrcp (o : LaneOp) (s : State) : Out State :=
  laneF3 o s fun _ x _ _ => Ext.div (.fin false 1 1) x
/-- FSQRT (R131). -/
def execFsqrt (o : LaneOp) (s : State) : Out State :=
  laneF3 o s fun _ x _ _ => Ext.sqrt (fmtOf o.ty) x
/-- FDIV (R131). -/
def execFdiv (o : LaneOp) (s : State) : Out State := laneF3 o s fun _ x y _ => Ext.div x y

/-! ### Special functions (R132)

A result that R132 leaves within a bound is the fixed function `Config.special` of the input bits
(log 7); the special values, exact cases and the limits on the result are the rule's. -/

/-- The special functions, numbered by opcode. -/
inductive SpecialFn where
  | rsq | exp2 | exp | log2 | sin | cos | tanh
  deriving DecidableEq, Repr

/-- The number under which Config knows a function. -/
def SpecialFn.num : SpecialFn → Nat
  | .rsq => 0x49 | .exp2 => 0x4C | .exp => 0x4D | .log2 => 0x4E | .sin => 0x4F | .cos => 0x50
  | .tanh => 0x51

/-- The value of Config's function on a value of binary32. -/
def freeSpecial (f : SpecialFn) (x : Ext) : Ext :=
  decodeF Fmt.f32 (Config.special (SpecialFn.num f) (word (encodeF Fmt.f32 x))).toNat

/-- A result that is no NaN and not below zero. -/
def atLeastZero (r : Ext) : Ext :=
  if r = .nan || Ext.lt r (.zero false) || r = .zero true then .zero false else r

/-- A result of magnitude at most 1. -/
def withinOne (r : Ext) : Ext :=
  match r with
  | .nan => .zero false
  | .inf neg => .fin neg 1 1
  | .zero neg => .zero neg
  | .fin neg n d => if d < n then .fin neg 1 1 else .fin neg n d

/-- Whether r lies within one ulp of 1/√x for a positive x = num / den (R132), by comparing squares:
with u the spacing at y, (r - u)√x ≤ 1 ≤ (r + u)√x. The spacing is taken at the nearest result. -/
def rsqWithin (num den : Nat) (r : Ext) : Bool :=
  match r, roundF Fmt.f32 .rtz (sqrtFin Fmt.f64 den num) with
  | .fin false rn rd, .fin false yn yd =>
    let e := max (floorLog2 yn yd) (-126) - 23
    -- r ± 2^e as numbers over rd × 2^max(-e, 0)
    let D := rd * pow2 (-e)
    let R := rn * pow2 (-e)
    let U := rd * pow2 e
    let lo := R - U
    let hi := R + U
    lo * lo * num ≤ den * D * D && den * D * D ≤ hi * hi * num
  | _, _ => false

/-- 1/√x within 1 ulp: Config's value where it keeps the bound, else the nearest value. -/
def rsqValue (x : Ext) (num den : Nat) : Ext :=
  let r := freeSpecial .rsq x
  if rsqWithin num den r then r else roundF Fmt.f32 .rne (sqrtFin Fmt.f64 den num)

/-- The integer that a finite value is, if it is one. -/
def intOf (x : Ext) : Option Int :=
  match x with
  | .fin neg n d => if n % d = 0 then some (if neg then -((n / d : Nat) : Int) else (n / d : Nat))
                    else none
  | .zero _ => some 0
  | .nan => none
  | .inf _ => none

/-- The exponent of a positive power of two, if the value is one. -/
def powerOf (x : Ext) : Option Int :=
  match x with
  | .fin false n d => if n * pow2 (-(floorLog2 n d)) = d * pow2 (floorLog2 n d) then
      some (floorLog2 n d) else none
  | _ => none

/-! #### The bounds of R132

A transcendental y is computed in fixed point with 768 fraction bits, to far within 2^-600. -/

/-- 1 in fixed point. -/
def fxOne : Int := 2 ^ 768

/-- A finite value in fixed point, rounded down. -/
def fxOf (x : Ext) : Int :=
  match x with
  | .fin neg n d => (if neg then -(n : Int) else n) * fxOne / d
  | .zero _ => 0 | .inf _ => 0 | .nan => 0

/-- A fixed-point number as a value. -/
def fxExt (y : Int) : Ext := if y = 0 then .zero false else .fin (y < 0) y.natAbs fxOne.natAbs

/-- The rest of the series of e^t from its term k, with fuel. -/
def fxExpSum (t : Int) : (fuel k : Nat) → (term : Int) → Int
  | 0, _, _ => 0
  | f + 1, k, term =>
    let next := term * t / (fxOne * k)
    next + fxExpSum t f (k + 1) next

/-- e^t for t from 0 to 1. -/
def fxExp (t : Int) : Int := fxOne + fxExpSum t 170 1 fxOne

/-- The rest of the series of artanh z (sign 1) or arctan z (sign -1) from z^k / k, with fuel. -/
def fxArcSum (sign z : Int) : (fuel k : Nat) → (pow : Int) → Int
  | 0, _, _ => 0
  | f + 1, k, pow => pow / k + fxArcSum sign z f (k + 2) (sign * (pow * z / fxOne * z / fxOne))

/-- artanh z for z at most 1/3. -/
def fxArtanh (z : Int) : Int := fxArcSum 1 z 260 1 z
/-- arctan z for z at most 1/5. -/
def fxArctan (z : Int) : Int := fxArcSum (-1) z 180 1 z
/-- ln 2 = 2 artanh (1/3). -/
def fxLnTwo : Int := 2 * fxArtanh (fxOne / 3)
/-- π/2 = 8 arctan (1/5) - 2 arctan (1/239). -/
def fxHalfPi : Int := 8 * fxArctan (fxOne / 5) - 2 * fxArctan (fxOne / 239)

/-- The rest of the series of the sine or cosine of r behind a term of order k - 1, with fuel. -/
def fxTrigSum (r : Int) : (fuel k : Nat) → (term : Int) → Int
  | 0, _, _ => 0
  | f + 1, k, term =>
    let next := -(term * r / fxOne * r / (fxOne * (k * (k + 1) : Nat)))
    next + fxTrigSum r f (k + 2) next

/-- sin r for r from 0 to π/2. -/
def fxSinIn (r : Int) : Int := r + fxTrigSum r 110 2 r
/-- cos r for r from 0 to π/2. -/
def fxCosIn (r : Int) : Int := fxOne + fxTrigSum r 110 1 fxOne

/-- sin (x + quarter × π/2), with the argument reduced. -/
def fxSin (x : Int) (quarter : Nat) : Int :=
  let r := x % fxHalfPi
  match (x / fxHalfPi + quarter) % 4 with
  | 0 => fxSinIn r
  | 1 => fxCosIn r
  | 2 => -fxSinIn r
  | _ => -fxCosIn r

/-- y × 2^k. -/
def fxScale (y k : Int) : Int := y * pow2 k / pow2 (-k)

/-- e^x for x below 1,024. -/
def fxPower (x : Int) : Int := fxScale (fxExp (x % fxLnTwo)) (x / fxLnTwo)

/-- tanh of x, not negative. -/
def fxTanh (x : Int) : Int :=
  if 512 * fxOne ≤ x then fxOne - 1
  else
    let e := fxPower (2 * x)
    (e - fxOne) * fxOne / (e + fxOne)

/-- log₂ (n / d). -/
def fxLog2 (n d : Nat) : Int :=
  let e := floorLog2 n d
  let n := n * pow2 (-e)
  let d := d * pow2 e
  e * fxOne + 2 * fxArtanh (((n : Int) - d) * fxOne / (n + d)) * fxOne / fxLnTwo

/-- The exact value y of a transcendental function of a finite value. -/
def fxSpecial (f : SpecialFn) (x : Ext) : Int :=
  let v := fxOf x
  match f with
  | .rsq => 0
  | .exp2 => fxScale (fxExp (v % fxOne * fxLnTwo / fxOne)) (v / fxOne)
  | .exp => fxPower v
  | .log2 =>
    match x with
    | .fin _ n d => fxLog2 n d
    | .zero _ => 0 | .inf _ => 0 | .nan => 0
  | .sin => fxSin v 0
  | .cos => fxSin v 1
  | .tanh => if v < 0 then -fxTanh (-v) else fxTanh v

/-- The bound of the table around y: ulp(y) is 2^(max(floor(log2 |y|), -126) - 23). -/
def specialBound (f : SpecialFn) (y : Int) : Int :=
  let ulp : Int := pow2 (max (floorLog2 y.natAbs fxOne.natAbs) (-126) - 23 + 768)
  match f with
  | .rsq => ulp
  | .exp2 => ulp
  | .exp => 2 * ulp
  | .log2 => max (2 * ulp) (2 ^ 746)
  | .sin => max (2 * ulp) (2 ^ 746)
  | .cos => max (2 * ulp) (2 ^ 746)
  | .tanh => 2 * ulp

/-- Whether a result keeps the bound; an infinite one stands for a y above every finite value. -/
def specialWithin (f : SpecialFn) (y : Int) (r : Ext) : Bool :=
  match r with
  | .nan => false
  | .inf neg => !neg && (2 ^ 24 - 1) * 2 ^ 104 * fxOne < y
  | .zero _ => y.natAbs ≤ specialBound f y
  | .fin _ _ _ => (fxOf r - y).natAbs ≤ specialBound f y + 2 ^ 168

/-- A result within the bound: Config's value where it keeps it, else the nearest value. -/
def boundedSpecial (f : SpecialFn) (x : Ext) : Ext :=
  let y := fxSpecial f x
  let r := freeSpecial f x
  if specialWithin f y r then r else roundF Fmt.f32 .rne (fxExt y)

/-- The least value of binary32 at which e^x is not below 2^-150, half the smallest number: -150 ln 2 lies between it and the
next below, and there e^x underflows (R82, R132). -/
def expLeast : Ext := Ext.scaled true 13627828 (-17)

/-- The special function of a binary32 value (R132). -/
def specialF32 (f : SpecialFn) (x : Ext) : Ext :=
  match f with
  | .rsq =>
    match x with
    | .nan => .nan
    | .zero neg => .inf neg
    | .inf neg => if neg then .nan else .zero false
    | .fin neg n d => if neg then .nan else rsqValue x n d
  | .exp2 =>
    match x with
    | .nan => .nan
    | .zero _ => .fin false 1 1
    | .inf neg => if neg then .zero false else .inf false
    | .fin _ _ _ =>
      if !Ext.lt x (Ext.ofInt 128) then .inf false
      else if Ext.lt x (Ext.ofInt (-150)) then .zero false
      else match intOf x with
        | some k => if -149 ≤ k then Ext.scaled false 1 k else .zero false
        | none => atLeastZero (boundedSpecial .exp2 x)
  | .exp =>
    match x with
    | .nan => .nan
    | .zero _ => .fin false 1 1
    | .inf neg => if neg then .zero false else .inf false
    | .fin _ _ _ =>
      if !Ext.lt x (Ext.ofInt 89) then .inf false
      else if Ext.lt x expLeast then .zero false
      else atLeastZero (boundedSpecial .exp x)
  | .log2 =>
    match x with
    | .nan => .nan
    | .zero _ => .inf true
    | .inf neg => if neg then .nan else .inf false
    | .fin neg _ _ =>
      if neg then .nan
      else match powerOf x with
        | some k => Ext.ofInt k
        | none => boundedSpecial .log2 x
  | .sin =>
    match x with
    | .nan => .nan
    | .zero neg => .zero neg
    | .inf _ => .nan
    | .fin _ _ _ => withinOne (boundedSpecial .sin x)
  | .cos =>
    match x with
    | .nan => .nan
    | .zero _ => .fin false 1 1
    | .inf _ => .nan
    | .fin _ _ _ => withinOne (boundedSpecial .cos x)
  | .tanh =>
    match x with
    | .nan => .nan
    | .zero neg => .zero neg
    | .inf neg => .fin neg 1 1
    | .fin _ _ _ => withinOne (boundedSpecial .tanh x)

/-- A special function at the instruction's type: f16 and bf16 widen exactly, and the binary32 result
is rounded once with rne (R132). -/
def laneSpecial (f : SpecialFn) (o : LaneOp) (s : State) : Out State :=
  withRun s fun c => LaneCtx.giveTy c o s fun L =>
    roundEnc (fmtOf o.ty) .rne (specialF32 f (laneVal o.ty (LaneCtx.a c o L)))

/-- FRSQ (R132). -/
def execFrsq (o : LaneOp) (s : State) : Out State := laneSpecial .rsq o s
/-- FEXP2 (R132). -/
def execFexp2 (o : LaneOp) (s : State) : Out State := laneSpecial .exp2 o s
/-- FEXP (R132). -/
def execFexp (o : LaneOp) (s : State) : Out State := laneSpecial .exp o s
/-- FLOG2 (R132). -/
def execFlog2 (o : LaneOp) (s : State) : Out State := laneSpecial .log2 o s
/-- FSIN (R132). -/
def execFsin (o : LaneOp) (s : State) : Out State := laneSpecial .sin o s
/-- FCOS (R132). -/
def execFcos (o : LaneOp) (s : State) : Out State := laneSpecial .cos o s
/-- FTANH (R132). -/
def execFtanh (o : LaneOp) (s : State) : Out State := laneSpecial .tanh o s

/-- The class bit of a code of a format (R133). -/
def classBit (f : Fmt) (b : Nat) : Nat :=
  match decodeF f b with
  | .nan => 8
  | .inf neg => if neg then 0 else 7
  | .zero neg => if neg then 3 else 4
  | .fin neg _ _ =>
    let sub := b / 2 ^ f.M % 2 ^ f.E = 0
    if neg then (if sub then 2 else 1) else (if sub then 5 else 6)

/-- FCLASS (R133): an n32 mask with one bit set; a 64-bit type writes zero to the odd register. -/
def execFclass (o : LaneOp) (s : State) : Out State :=
  withRun s fun c => LaneCtx.give c o s (wideTy o.ty) fun L =>
    2 ^ classBit (fmtOf o.ty) (tyLow o.ty (LaneCtx.a c o L))

end Sys2Proof.Machine
end

