-- ==== Sys2Proof/Machine/LaneConv.lean ====
section
/-! DEFINITION. The lane conversions, packing and random numbers (R136 to R142). -/
namespace Sys2Proof.Machine

/-- The least value of an integer type. -/
def tyMin (t : LaneTy) : Int := if signedTy t then -(2 ^ (tyBits t - 1)) else 0
/-- The greatest value of an integer type. -/
def tyMax (t : LaneTy) : Int := if signedTy t then 2 ^ (tyBits t - 1) - 1 else 2 ^ tyBits t - 1

/-- The conversion of a source of type S to type D (R87, R136), as the result's bits. -/
def convert (D S : LaneTy) (sat : Bool) (raw : Nat) : Nat :=
  if floatTy D then
    let x := if floatTy S then laneVal S raw else Ext.ofInt (tyInt S raw)
    let f := fmtOf D
    roundEnc f .rne (if sat then satF f x else x)
  else if floatTy S then wrap (tyBits D) (toIntClamp (laneVal S raw) (tyMin D) (tyMax D))
  else
    let i := tyInt S raw
    wrap (tyBits D) (if sat then max (tyMin D) (min i (tyMax D)) else i)

/-- CVT (R136): the source type in w2[4:0], .sat in w2[8]. DEDUCED: log 32. -/
def execCvt (o : LaneOp) (s : State) : Out State :=
  withRun s fun c =>
    let S := (tyOfCode (o.w2.toNat % 32)).getD .b32
    let sat := o.w2.getLsbD 8
    LaneCtx.giveTy c o s fun L => convert o.ty S sat (LaneCtx.src c o S o.a L)

/-- CVTSR (R137): b's low 16 bits are the random number. -/
def execCvtsr (o : LaneOp) (s : State) : Out State :=
  withRun s fun c => LaneCtx.giveTy c o s fun L =>
    encodeF (fmtOf o.ty) (roundSR (fmtOf o.ty)
      (decodeF Fmt.f32 (LaneCtx.src c o .b32 o.a L)) (LaneCtx.src c o .b32 o.b L % 2 ^ 16))

/-- An extended value that is no NaN and finite, to the nearest integer, ties to even. -/
def nearestInt (x : Ext) : Int :=
  match x with
  | .fin neg n d => if neg then -((nearest n d : Nat) : Int) else (nearest n d : Nat)
  | .zero _ => 0
  | .nan => 0
  | .inf _ => 0

/-- QNT's code (R138). -/
def quantise (t : LaneTy) (sat : Bool) (a scale z : Nat) : Nat :=
  let top : Int := if t = .q8 then 255 else 15
  match Ext.div (decodeF Fmt.f32 a) (decodeF Fmt.f16 scale) with
  | .nan => z
  | .inf neg => if neg then 0 else top.toNat
  | y =>
    let q := nearestInt y + z
    (if sat then min (max q 0) top else q % (top + 1)).toNat

/-- QNT (R138). -/
def execQnt (o : LaneOp) (s : State) : Out State :=
  withRun s fun c => LaneCtx.giveTy c o s fun L =>
    quantise o.ty (o.fn % 2 = 1) (LaneCtx.src c o .b32 o.a L) (LaneCtx.src c o .b32 o.b L % 2 ^ 16)
      (tyLow o.ty (LaneCtx.src c o .b32 o.c L))

/-- The value of a q code under a scale and a zero point (R91). -/
def dequant (scale : Ext) (q z : Nat) : Ext := Ext.mul scale (Ext.ofInt ((q : Int) - z))

/-- DQN (R139): the value as binary32. -/
def execDqn (o : LaneOp) (s : State) : Out State :=
  withRun s fun c => LaneCtx.give c o s false fun L =>
    roundEnc Fmt.f32 .rne (dequant (decodeF Fmt.f16 (LaneCtx.src c o .b32 o.b L % 2 ^ 16))
      (tyLow o.ty (LaneCtx.src c o .b32 o.a L)) (tyLow o.ty (LaneCtx.src c o .b32 o.c L)))

/-- The number of elements of a type in a word (R140). -/
def perWord (t : LaneTy) : Nat := 32 / tyBits t

/-- PACK (R140): b is the element index, c the word. -/
def execPack (o : LaneOp) (s : State) : Out State :=
  withRun s fun c => LaneCtx.give c o s false fun L =>
    let w := tyBits o.ty
    let k := LaneCtx.src c o .b32 o.b L % perWord o.ty
    let a := LaneCtx.src c o .b32 o.a L
    let e := if floatTy o.ty then roundEnc (fmtOf o.ty) .rne (decodeF Fmt.f32 a) else a % 2 ^ w
    let d := LaneCtx.src c o .b32 o.c L
    d - (d / 2 ^ (k * w) % 2 ^ w) * 2 ^ (k * w) + e * 2 ^ (k * w)

/-- UNPK's value of an element (R140). -/
def unpack (t : LaneTy) (e : Nat) : Nat :=
  if t = .e2m1 && e = 8 then 0x80000000
  else if floatTy t then encodeF Fmt.f32 (decodeF (fmtOf t) e)
  else if signedTy t then wrap 32 (toSigned (tyBits t) e)
  else e

/-- UNPK (R140). -/
def execUnpk (o : LaneOp) (s : State) : Out State :=
  withRun s fun c => LaneCtx.give c o s false fun L =>
    let w := tyBits o.ty
    let k := LaneCtx.src c o .b32 o.b L % perWord o.ty
    unpack o.ty (LaneCtx.src c o .b32 o.a L / 2 ^ (k * w) % 2 ^ w)

/-- RNG4's four words in a lane (R141, R142). -/
def rngWords (c : LaneCtx) (o : LaneOp) (L : Nat) : List Nat :=
  let base := LaneCtx.src c o .b32 o.c L
  let x := philox 10 ((base + L) % 2 ^ 32, o.w2.toNat, 0, 0) (LaneCtx.src c o .b32 o.a L)
    (LaneCtx.src c o .b32 o.b L)
  [x.1, x.2.1, x.2.2.1, x.2.2.2]

/-- RNG4 (R141): x0 to x3 in v(d) to v(d + 3), x0 in the latch. -/
def execRng4 (o : LaneOp) (s : State) : Out State :=
  withRun s fun c =>
    let latch := lanes.map fun L =>
      if LaneCtx.part c o L then dword ((rngWords c o L).headD 0) else 0
    let wbs := if o.nw then [] else
      lanes.flatMap fun L =>
        if LaneCtx.part c o L then
          (rngWords c o L).zipIdx.map fun x => WriteBack.vreg L (o.d + x.2) (word x.1)
        else []
    .next (LaneCtx.push c s latch wbs [])

end Sys2Proof.Machine
end

