-- ==== Sys2Proof/Machine/MatrixUnit.lean ====
section
/-! DEFINITION. One unit of a matrix operation: the array's stores, its operand values and its writes
(R90 to R93, R192, R198, R200 to R204, R207 to R209). -/
namespace Sys2Proof.Machine

/-! ### The stores of an array (R192) -/

/-- An array that nobody has used. -/
def MArray.empty : MArray :=
  { hold := none, waiters := [], tiles := [], slots := [], cur := 0, inits := [], ops := [],
    nextOp := 0 }

/-- A core's array. -/
def State.array (s : State) (core : Nat) : MArray := (AMap.get? s.arrays core).getD MArray.empty

/-- A core's array replaced. -/
def State.setArray (s : State) (core : Nat) (a : MArray) : State :=
  { s with arrays := AMap.set s.arrays core a }

/-- A core's array changed. -/
def State.onArray (s : State) (core : Nat) (f : MArray → MArray) : State :=
  State.setArray s core (f (State.array s core))

/-- A tile register; what nothing has written since the grant is undefined (R193). -/
def MArray.tile (a : MArray) (t : Nat) : UMem := (AMap.get? a.tiles t).getD ⟨a.cur + t, [], []⟩

/-- A physical slot; what nothing has written since the grant is undefined (R193). -/
def MArray.slot (a : MArray) (p : Nat) : UMem := (AMap.get? a.slots p).getD ⟨a.cur + 16 + p, [], []⟩

/-- A tile register written. -/
def MArray.writeTile (a : MArray) (t off n v : Nat) : MArray :=
  { a with tiles := AMap.set a.tiles t (UMem.write (MArray.tile a t) off n v) }

/-- A physical slot written. -/
def MArray.writeSlot (a : MArray) (p off n v : Nat) : MArray :=
  { a with slots := AMap.set a.slots p (UMem.write (MArray.slot a p) off n v) }

/-- The array as the operations of a grant find it: the contents that a resumed owner brought, else
undefined values (R193, R211). `phys` maps logical slots. -/
def MArray.enter (a : MArray) (key : Nat) (phys : List Nat) : MArray :=
  if a.cur = key then a
  else
    let st := (AMap.get? a.inits key).getD ⟨[], []⟩
    { a with cur := key, tiles := st.tiles, slots := phys.zip st.slots,
             inits := AMap.erase a.inits key }

/-! ### What a unit reads -/

/-- Why a unit is not performed. -/
inductive MxErr where
  /-- Uncorrectable data: the failure's TVAL (R209), and its address in main memory, if it lies there. -/
  | unc (tval : Nat) (pa : Option Nat)
  /-- A handle fetch's translation fault (R209). -/
  | xlate (f : XlFault) (va : Nat)
  /-- An earlier copy of the warp has to be performed first (R204). -/
  | later
  deriving DecidableEq, Repr

/-- A granule that the fetcher read ahead since a warp's MOPF number `epoch` (R204). -/
def Warp.aheadOf (W : Warp) (epoch : Nat) (sp : Space) (g : Nat) : Option Nat :=
  W.ahead.findSome? fun e =>
    if epoch ≤ e.1 && e.2.1 = sp && e.2.2.1 = g then some e.2.2.2 else none

/-- The granules that `n` bytes at an offset touch. -/
def granulesOf (off n : Nat) : List Nat :=
  (List.range ((off + n - 1) / 32 + 1 - off / 32)).map (off / 32 + ·)

/-- The number of a list of bytes, the first lowest. -/
def bytesNum : List Nat → Nat
  | [] => 0
  | b :: bs => b % 256 + 256 * bytesNum bs

/-- `n` bytes of on-chip memory as the operand fetcher reads them: as it read them ahead, or as they
are now (R204). -/
def State.mxRead (s : State) (w : Nat) (W : Warp) (epoch : Nat) (sp : Space) (off n : Nat) :
    Except MxErr Nat :=
  let bad (g : Nat) : Bool :=
    (Warp.aheadOf W epoch sp g).isNone && State.badPlace s w (State.placeOf s W sp (32 * g)) 32
  match (granulesOf off n).find? bad with
  | some g => .error (.unc (32 * g) none)
  | none => .ok (bytesNum ((List.range n).map fun i =>
      match Warp.aheadOf W epoch sp ((off + i) / 32) with
      | some v => v / 256 ^ ((off + i) % 32)
      | none => State.readPlace s w (State.placeOf s W sp (off + i)) 1))

/-- `n` bytes of a store of the array; `code` names it in a failure (R209). -/
def storeRead (m : UMem) (code off n : Nat) : Except MxErr Nat :=
  if (granulesOf off n).any fun g => UMem.uncorrectable m (32 * g) 32 then .error (.unc code none)
  else .ok (UMem.read m off n)

/-- The elements of a tile that lie in a granule of its on-chip image: offset, address, inside. -/
def TileBind.granule (b : TileBind) (n g : Nat) : List (Nat × Nat × Bool) :=
  ((List.range (TileBind.elems b)).map (TileBind.element b n)).filter fun x => x.1 / 32 = g

/-- What a fetch of a granule reads. -/
def granuleReads (s : State) (W : Warp) (b : TileBind) (n g : Nat) : List (Where × Nat × Bool) :=
  (TileBind.granule b n g).flatMap fun x =>
    if x.2.2 then (State.peek s W (.main x.2.1)).toList.map fun p => (p, TileBind.es b, false) else []

/-- A granule of a handle's tile fetched from main memory (R164, R177). -/
def State.fetchGranule (w : Nat) (W : Warp) (es : Nat) :
    State → List (Nat × Nat × Bool) → Except MxErr (State × Nat)
  | s, [] => .ok (s, 0)
  | s, (o, m, inside) :: rest =>
    let here : Except MxErr (State × Nat) := if inside then
        match State.readEnd s w { W with mtouch := [] } 0 (.main m) es with
        | .ok r => .ok r
        | .error (.xlate f va) => .error (.xlate f va)
        | .error (.unc (.main pa) a) => .error (.unc a (some pa))
        | .error (.unc (.chip _) a) => .error (.unc a none)
      else .ok (s, 0)
    match here with
    | .error e => .error e
    | .ok (s, v) =>
      match State.fetchGranule w W es s rest with
      | .error e => .error e
      | .ok (s, x) => .ok (s, x + v * 256 ^ (o % 32))

/-- An operation's handle granule g fetched, unless it has been. -/
def State.fetchFor (s : State) (w : Nat) (W : Warp) (o : MOp) (g : Nat) : Except MxErr (State × MOp) :=
  match MWork.handle? o.work with
  | none => .ok (s, o)
  | some (b, n) =>
    if (AMap.get? o.img g).isSome then .ok (s, o)
    else if State.cpBlocked s w W o.cp (granuleReads s W b n g) then .error .later
    else match State.fetchGranule w W (TileBind.es b) s (TileBind.granule b n g) with
      | .error e => .error e
      | .ok (s, v) => .ok (s, { o with img := AMap.set o.img g v })

/-- All granules of an operation's handle tile fetched. -/
def State.fetchAll (w : Nat) (W : Warp) : State → MOp → List Nat → Except MxErr (State × MOp)
  | s, o, [] => .ok (s, o)
  | s, o, g :: gs =>
    match State.fetchFor s w W o g with
    | .error e => .error e
    | .ok (s, o) => State.fetchAll w W s o gs

/-- `n` bytes of an operation's fetched image. -/
def MOp.image (o : MOp) (off n : Nat) : Nat :=
  bytesNum ((List.range n).map fun i =>
    (AMap.get? o.img ((off + i) / 32)).getD 0 / 256 ^ ((off + i) % 32))

/-! ### Operand values (R90 to R92, R198) -/

/-- The width class of a format: element bits, or 0 (R197). -/
def fmtBits (f : Nat) : Nat :=
  if f = 9 ∨ f = 10 then 16 else if f = 13 ∨ f = 14 ∨ f = 17 then 8 else if f = 15 ∨ f = 16 then 4
  else 0

/-- The K-step of a width class (R93). -/
def kStep (f : Nat) : Nat := if fmtBits f = 16 then 48 else if fmtBits f = 8 then 96 else 192

/-- The float format of a format code. -/
def fmtOfCode (f : Nat) : Fmt :=
  if f = 9 then Fmt.f16 else if f = 10 then Fmt.bf16 else if f = 13 then Fmt.e4m3
  else if f = 14 then Fmt.e5m2 else if f = 15 then Fmt.e2m1 else Fmt.f32

/-- Whether a format code is a q format. -/
def isQ (f : Nat) : Bool := f = 16 || f = 17

/-- The group length of a code (R197). -/
def groupLen (gl : Nat) : Nat := if gl = 0 then 0 else 16 * 2 ^ gl

/-- Whether group parameters are read for an operand (R198). -/
def usesGroup (f gl : Nat) : Bool := gl != 0 && f != 15

/-- The groups that an operation touches (R198). -/
def groupCount (b : FmtBlock) : Nat := (b.ph + kStep b.af - 1) / groupLen b.gl + 1

/-- The value of an element code under its group's scale and zero point (R91). -/
def elemVal (f code : Nat) (scale : Option Ext) (z : Nat) : Ext :=
  if isQ f then dequant (scale.getD (Ext.ofInt 1)) code (if f = 16 then z % 16 else z)
  else match scale with
    | some x => Ext.mul (decodeF (fmtOfCode f) code) x
    | none => decodeF (fmtOfCode f) code

/-- The elements of an E2M1 block from index i, and whether an escape lacked an entry (R90). -/
def blockFrom (v : Nat) : (fuel i esc : Nat) → List Ext × Bool
  | 0, _, _ => ([], false)
  | n + 1, i, esc =>
    let c := v / 16 ^ i % 16
    let scale := decodeE8M0 (v / 256 ^ 16 % 256)
    let count := v / 256 ^ 17 % 8
    if scale = .nan then
      let r := blockFrom v n (i + 1) esc
      (.nan :: r.1, r.2)
    else if c ≠ 8 then
      let r := blockFrom v n (i + 1) esc
      (Ext.mul (decodeF Fmt.e2m1 c) scale :: r.1, r.2)
    else if esc < count then
      let r := blockFrom v n (i + 1) (esc + 1)
      (decodeF Fmt.bf16 (v / 256 ^ (18 + 2 * esc) % 2 ^ 16) :: r.1, r.2)
    else
      let r := blockFrom v n (i + 1) esc
      (.zero false :: r.1, true)

/-- The elements of the six blocks of a row or column (R89, R192). -/
def blockRow (v : Nat) : List Ext × Bool :=
  let bs := (List.range 6).map fun b => blockFrom (v / 256 ^ (32 * b) % 2 ^ 256) 32 0 0
  (bs.flatMap (·.1), bs.any (·.2))

/-- The codes of `k` elements of `b` bits in a number. -/
def codesOf (b k v : Nat) : List Nat := (List.range k).map fun i => v / 2 ^ (b * i) % 2 ^ b

/-- The parameters of line `line` of an operand, group by group: scale and zero point (R198). -/
def State.groupParams (s : State) (w : Nat) (W : Warp) (epoch f sc zp ng line : Nat) :
    Except MxErr (List (Ext × Nat)) :=
  (List.range ng).mapM fun g =>
    match State.mxRead s w W epoch .shared (8 * sc + 2 * (line * ng + g)) 2 with
    | .error e => .error e
    | .ok x =>
      let scale := decodeF Fmt.f16 x
      if isQ f then
        match State.mxRead s w W epoch .shared (8 * zp + line * ng + g) 1 with
        | .error e => .error e
        | .ok z => .ok (scale, z)
      else .ok (scale, 0)

/-- The values of a line's codes (R91, R198). -/
def State.lineVals (s : State) (w : Nat) (W : Warp) (epoch : Nat) (b : FmtBlock) (f sc zp line : Nat)
    (codes : List Nat) : Except MxErr (List Ext) :=
  if usesGroup f b.gl then
    match State.groupParams s w W epoch f sc zp (groupCount b) line with
    | .error e => .error e
    | .ok ps => .ok (codes.zipIdx.map fun x =>
        match ps[(b.ph + x.2) / groupLen b.gl]? with
        | some (scale, z) => elemVal f x.1 (some scale) z
        | none => .nan)
  else .ok (codes.map fun c => elemVal f c none 0)

/-- Row i of A as codes, from a reader of the tile's or the image's bytes (R192). -/
def rowCodes (b : FmtBlock) (get : Nat → Nat → Except MxErr Nat) (i : Nat) :
    Except MxErr (List Nat) :=
  let w := fmtBits b.af
  if b.at_ then
    (List.range (kStep b.af)).mapM fun k =>
      let e := 64 * k + i
      match get (e * w / 8) (if w = 16 then 2 else 1) with
      | .error x => .error x
      | .ok v => .ok (if w = 4 then v / 16 ^ (e % 2) % 16 else v)
  else match get (96 * i) 96 with
    | .error x => .error x
    | .ok v => .ok (codesOf w (kStep b.af) v)

/-- ValA of row i, and whether an escape lacked its entry (R202). -/
def State.rowA (s : State) (w : Nat) (W : Warp) (epoch : Nat) (b : FmtBlock)
    (get : Nat → Nat → Except MxErr Nat) (i : Nat) : Except MxErr (List Ext × Bool) :=
  if b.af = 15 then
    match get (192 * i) 192 with
    | .error x => .error x
    | .ok v => .ok (blockRow v)
  else match rowCodes b get i with
    | .error x => .error x
    | .ok codes =>
      match State.lineVals s w W epoch b b.af b.asc b.azp i codes with
      | .error x => .error x
      | .ok vs => .ok (vs, false)

/-- ValB of array column j, where `col` is its column in its own array (R202). -/
def State.colB (s : State) (w : Nat) (W : Warp) (epoch : Nat) (b : FmtBlock) (a : MArray)
    (phys : List Nat) (slot col j : Nat) : Except MxErr (List Ext × Bool) :=
  let rd (k off n : Nat) : Except MxErr Nat :=
    storeRead (MArray.slot a ((phys[k]?).getD 0)) (0x100 + k) off n
  if b.bf = 15 then
    match rd (slot + col / 64) (192 * (col % 64)) 192 with
    | .error x => .error x
    | .ok v => .ok (blockRow v)
  else match rd slot (96 * col) 96 with
    | .error x => .error x
    | .ok v =>
      match State.lineVals s w W epoch b b.bf b.bsc b.bzp j (codesOf (fmtBits b.bf) (kStep b.bf) v) with
      | .error x => .error x
      | .ok vs => .ok (vs, false)

/-- The exact sum of the products of two lists (R93). -/
def dot (xs ys : List Ext) : Ext :=
  Sum.value ((xs.zip ys).foldl (fun t p => Sum.push t (Ext.mul p.1 p.2)) Sum.empty)

/-! ### Units -/

/-- What a unit acts on: State, the leader's array, the follower's, the operation. -/
structure MxSt where
  s : State
  a : MArray
  f : MArray
  o : MOp

/-- One of the two arrays changed. -/
def MxSt.on (x : MxSt) (follower : Bool) (g : MArray → MArray) : MxSt :=
  if follower then { x with f := g x.f } else { x with a := g x.a }

/-- One of the two arrays. -/
def MxSt.arr (x : MxSt) (follower : Bool) : MArray := if follower then x.f else x.a

/-- The parts of an operation: one array, or a pair (R195). -/
def MOp.parts (o : MOp) : List Bool := if o.pair.isSome then [false, true] else [false]

/-- The physical slot of a logical one in a part. -/
def MOp.slotIn (o : MOp) (follower : Bool) (k : Nat) : Nat :=
  ((if follower then o.fphys else o.phys)[k]?).getD 0

/-- The number of units of an operation (R210). -/
def MOp.units (o : MOp) : Nat :=
  let two := if o.pair.isSome then 2 else 1
  match o.work with
  | .mld _ _ _ _ => 1024 * two
  | .mst _ _ _ => 1024 * two
  | .mzero _ => 1024 * two
  | .mbl _ _ => 384 * two
  | .mblTile _ _ _ => 384 * two
  | .mma _ _ _ _ => 64
  | .mmaTile _ _ _ _ _ => 64
  | .drain _ _ _ => 64
  | .drainTile _ _ _ => 64

/-- A granule of an image written into a tile by columns: word 64j + i goes to element (i, j)
(R200). -/
def writeColumns (a : MArray) (t g v : Nat) : MArray :=
  (List.range 8).foldl (fun a q =>
    let n := 8 * g + q
    MArray.writeTile a t (512 * (n % 64) + 4 * (n / 64)) 4 (v / 2 ^ (32 * q) % 2 ^ 32)) a

/-- One row of a part of C after an MMA (R202). -/
def MxSt.mmaPart (x : MxSt) (w : Nat) (W : Warp) (b : FmtBlock) (acc slot i : Nat) (ra : List Ext)
    (follower : Bool) : Except MxErr (MxSt × Bool) :=
  let a := MxSt.arr x follower
  let phys := if follower then x.o.fphys else x.o.phys
  match storeRead (MArray.tile a acc) (0x200 + acc) (512 * i) 512 with
  | .error e => .error e
  | .ok c =>
    let cols := (List.range 128).mapM fun col =>
      State.colB x.s w W x.o.epoch b a phys slot col (col + if follower then 128 else 0)
    match cols with
    | .error e => .error e
    | .ok cols =>
      let row := cols.zipIdx.map fun y =>
        roundEnc Fmt.f32 .rne (Ext.add .rne (decodeF Fmt.f32 (c / 2 ^ (32 * y.2) % 2 ^ 32)) (dot ra y.1.1))
      let v := row.zipIdx.foldl (fun n y => n + y.1 * 2 ^ (32 * y.2)) 0
      .ok (MxSt.on x follower fun a => MArray.writeTile a acc (512 * i) 512 v, cols.any (·.2))

/-- One row of an MMA (R202). -/
def MxSt.mmaRow (x : MxSt) (w : Nat) (W : Warp) (b : FmtBlock) (acc slot i : Nat)
    (get : Nat → Nat → Except MxErr Nat) : Except MxErr MxSt :=
  match State.rowA x.s w W x.o.epoch b get i with
  | .error e => .error e
  | .ok (ra, under) =>
    (MOp.parts x.o).foldlM (fun x follower =>
      match MxSt.mmaPart x w W b acc slot i ra follower with
      | .error e => .error e
      | .ok (x, u) =>
        .ok { x with o := { x.o with flags := x.o.flags ||| underFlag (under || u) } })
      x

/-- The element that a drain writes, and the bits that it sets in MSTAT (R207, R208). -/
def drainElem (df c : Nat) : Nat × Nat :=
  let f := fmtOfCode df
  let v := decodeF Fmt.f32 c
  let y := encodeF f (roundF f .rtz (satF f v))
  (y, drainFlags f v)

/-- The size of an element of a drain's image in bits (R207). -/
def drainBits (df : Nat) : Nat := if df = 11 then 32 else fmtBits df

/-- The bytes of a row of a drain's image. -/
def drainRowBytes (df : Nat) : Nat := if df = 15 then 128 else 128 * drainBits df / 8

/-- A drained row as a number. The side-list bytes of an E2M1 block, which count 0 leaves without
meaning, are undefined values (DESIGN CHOICE, log 25). -/
def drainRow (df seed : Nat) (es : List Nat) : Nat :=
  if df = 15 then
    (List.range 4).foldl (fun n b =>
      let codes := ((es.drop (32 * b)).take 32).zipIdx.foldl (fun m y => m + y.1 * 16 ^ y.2) 0
      let side := bytesNum ((List.range 14).map fun i => (Config.undefByte seed (32 * b + i)).toNat)
      n + (codes + 0x7F * 256 ^ 16 + side * 256 ^ 18) * 256 ^ (32 * b)) 0
  else es.zipIdx.foldl (fun n y => n + y.1 * 2 ^ (drainBits df * y.2)) 0

/-- One row of a drain in one part (R207): where it goes is given by `put`. -/
def MxSt.drainPart (x : MxSt) (acc df i : Nat) (put : MxSt → Bool → Nat → MxSt) (follower : Bool) :
    Except MxErr MxSt :=
  match storeRead (MArray.tile (MxSt.arr x follower) acc) (0x200 + acc) (512 * i) 512 with
  | .error e => .error e
  | .ok c =>
    let es := (codesOf 32 128 c).map (drainElem df)
    let flags := es.foldl (fun m y => m ||| y.2) 0
    let v := drainRow df x.s.freeCount (es.map (·.1))
    let x := { x with s := if df = 15 then { x.s with freeCount := x.s.freeCount + 1 } else x.s,
                      o := { x.o with flags := x.o.flags ||| flags } }
    .ok (put x follower v)

/-- Bytes of on-chip memory written by an operation. -/
def MxSt.store (x : MxSt) (w : Nat) (W : Warp) (sp : Space) (off n v : Nat) : MxSt :=
  { x with s := State.writePlace x.s w (State.placeOf x.s W sp off) n v }

/-- Unit u of an operation (R200 to R202, R207). -/
def MxSt.unit (x : MxSt) (w : Nat) (W : Warp) (u : Nat) : Except MxErr MxSt :=
  match x.o.work with
  | .mld t col sp off =>
    match State.mxRead x.s w W x.o.epoch sp (off + 32 * u) 32 with
    | .error e => .error e
    | .ok v => .ok (MxSt.on x (1024 ≤ u) fun a =>
        if col then writeColumns a t (u % 1024) v else MArray.writeTile a t (32 * (u % 1024)) 32 v)
  | .mst t sp off =>
    match storeRead (MArray.tile (MxSt.arr x (1024 ≤ u)) t) (0x200 + t) (32 * (u % 1024)) 32 with
    | .error e => .error e
    | .ok v => .ok (MxSt.store x w W sp (off + 32 * u) 32 v)
  | .mzero t => .ok (MxSt.on x (1024 ≤ u) fun a => MArray.writeTile a t (32 * (u % 1024)) 32 0)
  | .mbl slot off =>
    match State.mxRead x.s w W x.o.epoch .shared (off + 32 * u) 32 with
    | .error e => .error e
    | .ok v => .ok (MxSt.on x (384 ≤ u) fun a =>
        MArray.writeSlot a (MOp.slotIn x.o (384 ≤ u) slot) (32 * (u % 384)) 32 v)
  | .mblTile slot _ _ =>
    match State.fetchFor x.s w W x.o u with
    | .error e => .error e
    | .ok (s, o) => .ok (MxSt.on { x with s := s, o := o } (384 ≤ u) fun a =>
        MArray.writeSlot a (MOp.slotIn o (384 ≤ u) slot) (32 * (u % 384)) 32 ((AMap.get? o.img u).getD 0))
  | .mma acc t slot b =>
    MxSt.mmaRow x w W b acc slot u fun off n => storeRead (MArray.tile x.a t) (0x200 + t) off n
  | .mmaTile acc _ _ slot b =>
    match State.fetchAll w W x.s x.o (List.range (if b.af = 15 then 384 else 192)) with
    | .error e => .error e
    | .ok (s, o) =>
      MxSt.mmaRow { x with s := s, o := o } w W b acc slot u fun off n => .ok (MOp.image o off n)
  | .drain acc off df =>
    let n := drainRowBytes df
    (MOp.parts x.o).foldlM (fun x p =>
      MxSt.drainPart x acc df u (fun x follower v =>
        MxSt.store x w W .shared (off + n * (u + if follower then 64 else 0)) n v) p) x
  | .drainTile acc t df =>
    let n := drainRowBytes df
    (MOp.parts x.o).foldlM (fun x p =>
      MxSt.drainPart x acc df u (fun x follower v =>
        MxSt.on x follower fun a => MArray.writeTile a t (n * u) n v) p) x

end Sys2Proof.Machine
end

