-- ==== Sys2Proof/Machine/Matrix.lean ====
section
/-! DEFINITION. The matrix instructions, the grant of an array and the array's steps (R193 to R211). -/
namespace Sys2Proof.Machine

/-! ### Ownership -/

/-- The neighbour of a core (R11). -/
def neighbour (core : Nat) : Option Nat := if core % 80 = 79 then none else some (core + 1)

/-- The logical slots that an operation reads or writes. -/
def MWork.slots : MWork → List Nat
  | .mld _ _ _ _ => []
  | .mst _ _ _ => []
  | .mzero _ => []
  | .mbl slot _ => [slot]
  | .mblTile slot _ _ => [slot]
  | .mma _ _ slot b => if b.bf = 15 then [slot, slot + 1] else [slot]
  | .mmaTile _ _ _ slot b => if b.bf = 15 then [slot, slot + 1] else [slot]
  | .drain _ _ _ => []
  | .drainTile _ _ _ => []

/-- The physical slots that an operation reads or writes on its array, or on a pair's follower. -/
def MOp.uses (o : MOp) (follower : Bool) : List Nat := (MWork.slots o.work).map (MOp.slotIn o follower)

/-- The physical slots of an array that no owner maps and no unretired operation reads or writes (R193,
R194). -/
def MArray.free (a : MArray) : List Nat :=
  let used := (match a.hold with
    | some h => h.phys
    | none => []) ++ a.ops.flatMap fun o => MOp.uses o false
  (List.range 256).filter fun p => !used.contains p

/-- The free physical slots of a core's array: a pair's operations use a follower's from the leader's list. -/
def State.freeSlots (s : State) (core : Nat) : List Nat :=
  let pairOps := s.arrays.flatMap fun e => e.2.ops.filter fun o => o.pair = some core
  (MArray.free (State.array s core)).filter fun p => !(pairOps.any fun o => (MOp.uses o true).contains p)

/-- The complete ownership that a warp holds of its core's array. DESIGN CHOICE: log 113, between the two
grants of a pair. -/
def State.owned (s : State) (w : Nat) (W : Warp) : Option MHold :=
  match (State.array s (State.coreOf s W)).hold with
  | some h => if h.w = w && h.ready && !h.released && h.leader.isNone then some h else none
  | none => none

/-- Whether a fragment of the warp waits in MACQ. -/
def Warp.inMacq (W : Warp) : Bool := (Warp.live W).any fun e => match e.2.wait with
  | .macq _ => true
  | _ => false

/-- MACQ.SINGLE and MACQ.PAIR (R193): the warp joins the tail of the owner queue and waits. -/
def macq (pair : Bool) (d n : Nat) (s : State) : Out State :=
  withFrag s fun c =>
    let core := State.coreOf s c.warp
    if (State.owned s c.w c.warp).isSome || Warp.inMacq c.warp then Ctx.trap0 c s 5 1
    else if pair && (neighbour core).isNone then Ctx.result c d 2 s
    else
      let m : MWaiter := { w := c.w, slot := c.slot, n := n, d := d, pair := pair, leader := none,
                           resume := false }
      Ctx.wait c (.macq d) (State.onArray s core fun a => { a with waiters := a.waiters ++ [m] })

/-- MACQ.SINGLE (R193). -/
def execMacqSingle (d n : Nat) (s : State) : Out State := macq false d n s
/-- MACQ.PAIR (R193). -/
def execMacqPair (d n : Nat) (s : State) : Out State := macq true d n s

/-- A grant's number, from the counter of undefined contents (log 2): 1,024 seeds for the tiles and
slots of the two cores. -/
def State.newSession (s : State) : State × Nat :=
  ({ s with freeCount := s.freeCount + 1024 }, s.freeCount + 1)

/-- MACQ.TRY (R193): the grant at once, or status 1. -/
def execMacqTry (d n : Nat) (s : State) : Out State :=
  withFrag s fun c =>
    let core := State.coreOf s c.warp
    let a := State.array s core
    if (State.owned s c.w c.warp).isSome || Warp.inMacq c.warp then Ctx.trap0 c s 5 1
    else if a.hold.isSome || !a.waiters.isEmpty || (State.freeSlots s core).length < n then
      Ctx.result c d 1 s
    else
      let (s, session) := State.newSession s
      let h : MHold := { w := c.w, session := session, phys := (State.freeSlots s core).take n,
                         follower := none, leader := none, ready := true, released := false }
      Ctx.result c d 0 (State.onArray s core fun a => { a with hold := some h })

/-- A waiter's fragment completes its MACQ with status 0. -/
def State.wakeOwner (s : State) (m : MWaiter) : State :=
  if m.resume then s
  else State.onWarp s m.w fun W => Warp.onFrag W m.slot fun f => { f with wait := .woken m.d 0 }

/-- A resumed owner's saved contents and operations enter the array of its new grant (R211). -/
def State.restoreImage (s : State) (core : Nat) (m : MWaiter) (h : MHold) (fphys : List Nat) : State :=
  match (State.warp? s m.w).bind (·.mimage) with
  | none => s
  | some img =>
    let s := State.onArray s core fun a =>
      { a with inits := AMap.set a.inits h.session img.leader,
               nextOp := a.nextOp + img.ops.length,
               ops := a.ops ++ img.ops.zipIdx.map fun x =>
                 { x.1 with id := a.nextOp + x.2, session := h.session, phys := h.phys,
                            pair := h.follower, fphys := fphys } }
    let s := match h.follower, img.follower with
      | some f, some st =>
        State.onArray s f fun a => { a with inits := AMap.set a.inits (h.session + 512) st }
      | _, _ => s
    State.onWarp s m.w fun W => { W with mimage := none }

/-- The grant of an array to the head of its owner queue (R193, R195): a pair's first grant is held
while the warp queues on the neighbour. -/
def State.grant (s : State) (core : Nat) (m : MWaiter) (rest : List MWaiter) : State :=
  let phys := (State.freeSlots s core).take m.n
  let s := State.onArray s core fun a => { a with waiters := rest }
  match m.leader, m.pair, neighbour core with
  | some lead, _, _ =>
    match (State.array s lead).hold with
    | none => s
    | some h =>
      let s := State.onArray s core fun a =>
        { a with hold := some { w := m.w, session := h.session, phys := phys, follower := none,
                                leader := some lead, ready := true, released := false } }
      let h := { h with follower := some core, ready := true }
      let s := State.onArray s lead fun a => { a with hold := some h }
      State.wakeOwner (if m.resume then State.restoreImage s lead m h phys else s) m
  | none, true, some f =>
    let (s, session) := State.newSession s
    let s := State.onArray s core fun a =>
      { a with hold := some { w := m.w, session := session, phys := phys, follower := some f,
                              leader := none, ready := false, released := false } }
    let m := { m with leader := some core }
    State.onArray s f fun a =>
      { a with waiters := if m.resume then m :: a.waiters else a.waiters ++ [m] }
  | none, _, _ =>
    let (s, session) := State.newSession s
    let h : MHold := { w := m.w, session := session, phys := phys, follower := none, leader := none,
                       ready := true, released := false }
    let s := State.onArray s core fun a => { a with hold := some h }
    State.wakeOwner (if m.resume then State.restoreImage s core m h [] else s) m

/-- Whether the operations that a resumed owner brings find room in the array (R196): it waits for it. -/
def State.resumeRoom (s : State) (core : Nat) (m : MWaiter) : Bool :=
  match m.resume, (State.warp? s m.w).bind (·.mimage) with
  | true, some img => (State.array s (m.leader.getD core)).ops.length + img.ops.length ≤ 64
  | _, _ => true

/-- MACQ_GRANT: the head of a core's owner queue receives the array once it has no owner and enough
physical slots are free (R193). -/
def execMacqGrant (core : Nat) (s : State) : Out State :=
  let a := State.array s core
  match a.waiters with
  | [] => .next s
  | m :: rest =>
    if a.hold.isNone && m.n ≤ (State.freeSlots s core).length && State.resumeRoom s core m then
      .next (State.grant s core m rest)
    else .next s

/-- A follower is free again once the last operation of the leader's grant has retired (R194,
R195). -/
def State.freeFollowers (s : State) : State :=
  { s with arrays := s.arrays.map fun e =>
      match e.2.hold with
      | some h =>
        match h.leader with
        | some lead =>
          if h.released && !((State.array s lead).ops.any fun o => o.session = h.session) then
            (e.1, { e.2 with hold := none })
          else e
        | none => e
      | none => e }

/-- Ownership ends (R194): the array has no owner; a pair's follower waits for the last operation. -/
def State.releaseArray (s : State) (core : Nat) (h : MHold) : State :=
  let s := State.onArray s core fun a => { a with hold := none }
  let s := match h.follower with
    | some f => State.onArray s f fun a =>
        { a with hold := a.hold.map fun x => { x with released := true } }
    | none => s
  State.freeFollowers s

/-- A matrix instruction of the array's owner; any other traps with MXOWN (R191). -/
def withArray (s : State) (k : Ctx → MHold → Out State) : Out State :=
  withFrag s fun c =>
    match State.owned s c.w c.warp with
    | some h => k c h
    | none => Ctx.trap0 c s 5 0

/-- MREL (R194). -/
def execMrel (s : State) : Out State :=
  withArray s fun c h => .next (Ctx.advance c 1 (State.releaseArray s (State.coreOf s c.warp) h))

/-! ### Issue (R196, R204) -/

/-- An operation issues behind the array's others, once there is room for it (R196). -/
def Ctx.issueOp (c : Ctx) (s : State) (h : MHold) (work : MWork) (touch : List (End × Nat)) :
    Out State :=
  let core := State.coreOf s c.warp
  let a := State.array s core
  if 64 ≤ a.ops.length then Ctx.wait c .matrixRoom s
  else
    let fphys := match h.follower.bind fun f => (State.array s f).hold with
      | some x => x.phys
      | none => []
    let o : MOp := { id := a.nextOp, w := c.w, session := h.session, phys := h.phys,
                     pair := h.follower, fphys := fphys, work := work, unit := 0, batch := none,
                     img := [], epoch := c.warp.epoch, cp := c.warp.nextReq, lev := c.warp.tlev,
                     flags := 0, fault := none, declined := none, dead := false }
    let s := State.setArray s core { a with ops := a.ops ++ [o], nextOp := a.nextOp + 1 }
    .next (Ctx.advance c 1 (Ctx.on c s fun W =>
      { W with mtouch := W.mtouch ++ touch.map fun t =>
                 { batch := none, below := none, at_ := t.1, len := t.2 } }))

/-- The factor of an image in pair mode (R195). -/
def MHold.parts (h : MHold) : Nat := if h.follower.isSome then 2 else 1

/-- MLD and MST (R200). TVAL names the address word whose check failed (DEDUCED, log 24). -/
def tileMove (a : Nat) (store : Bool) (work : Space → Nat → MWork) (s : State) : Out State :=
  withArray s fun c h =>
    let x := (Warp.s c.warp a).toNat
    let off := bits x 27 0
    let n := 32768 * MHold.parts h
    let sp := if bits x 31 28 = 0 then Space.shared else .scratch
    if 2 ≤ bits x 31 28 then Ctx.trap c s (causeCode 4 0) (dword x)
    else if off % 32 ≠ 0 then Ctx.trap c s (causeCode 3 5) (dword x)
    else match State.chipRange s c.warp sp off n with
      | some cause => Ctx.trap c s cause (dword x)
      | none =>
        if store && State.constRange s c.warp sp off n then Ctx.trap c s (causeCode 3 2) (dword x)
        else Ctx.issueOp c s h (work sp off) [(.chip sp off, n)]

/-- MLD.ROW (R200). -/
def execMldRow (t a : Nat) (s : State) : Out State := tileMove a false (.mld t false) s
/-- MLD.COL (R200). -/
def execMldCol (t a : Nat) (s : State) : Out State := tileMove a false (.mld t true) s
/-- MST (R200). -/
def execMst (t a : Nat) (s : State) : Out State := tileMove a true (.mst t) s
/-- MZERO (R200). -/
def execMzero (t : Nat) (s : State) : Out State :=
  withArray s fun c h => Ctx.issueOp c s h (.mzero t) []

/-- MBL from shared memory (R201). -/
def execMblShared (slot a : Nat) (off : Int) (s : State) : Out State :=
  withArray s fun c h =>
    let x := (Warp.s c.warp a + BitVec.ofInt 32 (32 * off)).toNat
    let n := 12288 * MHold.parts h
    if h.phys.length ≤ slot then Ctx.trap c s (causeCode 5 3) (dword slot)
    else if x % 32 ≠ 0 then Ctx.trap c s (causeCode 3 5) (dword x)
    else match State.chipRange s c.warp .shared x n with
      | some cause => Ctx.trap c s cause (dword x)
      | none => Ctx.issueOp c s h (.mbl slot x) [(.chip .shared x, n)]

/-- The checks of a handle operand (R201, R202): its binding, or cause and TVAL. -/
def State.checkFetch (s : State) (W : Warp) (h n size tval : Nat) : Except (Nat × Nat) TileBind :=
  match State.handle? s W h with
  | none => .error (causeCode 4 1, tval)
  | some b =>
    if TileBind.count b ≤ n then .error (causeCode 4 2, tval)
    else if TileBind.elems b * TileBind.es b ≠ size ∨ b.swz ≠ 0 then .error (causeCode 5 4, tval)
    else .ok b

/-- The rows of tile n in main memory: where each starts and its bytes inside the tensor (R164). -/
def TileBind.rows (b : TileBind) (n : Nat) : List (End × Nat) :=
  (List.range (b.ty * b.tz)).filterMap fun r =>
    let (_, va, inside) := TileBind.element b n (b.tx * r)
    let x := n % TileBind.ntx b * b.tx
    if inside then some (.main va, TileBind.es b * Min.min b.tx (b.ex - x)) else none

/-- MBL through a handle (R201). -/
def execMblHandle (slot a : Nat) (s : State) : Out State :=
  withArray s fun c h =>
    let x := (Warp.s c.warp a).toNat
    if h.phys.length ≤ slot then Ctx.trap c s (causeCode 5 3) (dword slot)
    else match State.checkFetch s c.warp (bits x 31 26) (bits x 25 0) (12288 * MHold.parts h) x with
      | .error (cause, tval) => Ctx.trap c s cause (dword tval)
      | .ok b => Ctx.issueOp c s h (.mblTile slot b (bits x 25 0)) (TileBind.rows b (bits x 25 0))

/-- The format block in s(4f) to s(4f + 3) (R197). -/
def FmtBlock.read (W : Warp) (f : Nat) : FmtBlock × Nat :=
  let w (i : Nat) : Nat := (Warp.s W (4 * f + i)).toNat
  ({ af := bits (w 0) 4 0, bf := bits (w 0) 9 5, gl := bits (w 0) 11 10, ph := bits (w 0) 18 12,
     at_ := bits (w 0) 19 19 = 1, df := bits (w 0) 25 21, asc := bits (w 1) 15 0,
     azp := bits (w 1) 31 16, bsc := bits (w 2) 15 0, bzp := bits (w 2) 31 16, tix := w 3 }, w 0)

/-- Whether the reserved bits of a block's first word are zero (R197). -/
def fmtReserved (w0 : Nat) : Bool := bits w0 31 26 = 0 && bits w0 20 20 = 0

/-- MMA's checks of a block (R197). -/
def FmtBlock.ok (b : FmtBlock) (w0 : Nat) : Bool :=
  fmtReserved w0 && fmtBits b.af ≠ 0 && fmtBits b.af = fmtBits b.bf &&
    (if b.gl = 0 then b.ph = 0 else b.ph < groupLen b.gl) && !(b.at_ && b.af = 15)

/-- The group arrays that an MMA reads (R198): offsets and lengths. -/
def FmtBlock.arrays (b : FmtBlock) (parts : Nat) : List (Nat × Nat) :=
  let ng := groupCount b
  let side (f sc zp lines : Nat) : List (Nat × Nat) :=
    if usesGroup f b.gl then
      (8 * sc, 2 * lines * ng) :: (if isQ f then [(8 * zp, lines * ng)] else [])
    else []
  side b.af b.asc b.azp 64 ++ side b.bf b.bsc b.bzp (128 * parts)

/-- MMA (R202): the checks in order, the A operand's given by `checkA`. TVAL of a group array that does not fit is the
array's offset. DEDUCED: log 24. -/
def mma (slot fmt : Nat) (s : State)
    (checkA : Ctx → FmtBlock → Except (Nat × Nat) ((FmtBlock → MWork) × List (End × Nat))) : Out State :=
  withArray s fun c h =>
    let (b, w0) := FmtBlock.read c.warp fmt
    let n := h.phys.length
    if !FmtBlock.ok b w0 then Ctx.trap c s (causeCode 5 2) (dword w0)
    else if n ≤ slot || (b.bf = 15 && (slot % 2 = 1 || n ≤ slot + 1)) then
      Ctx.trap c s (causeCode 5 3) (dword slot)
    else match checkA c b with
      | .error (cause, tval) => Ctx.trap c s cause (dword tval)
      | .ok (work, rows) =>
        let arrays := FmtBlock.arrays b (MHold.parts h)
        let len := match State.teamOf? s c.warp with
          | some T => T.shLen
          | none => 0
        match arrays.find? fun r => len < r.1 + r.2 with
        | some r => Ctx.trap c s (causeCode 3 0) (dword r.1)
        | none => Ctx.issueOp c s h (work b) (rows ++ arrays.map fun r => (.chip .shared r.1, r.2))

/-- MMA with a tile register as A (R202). -/
def execMmaTile (acc t slot fmt : Nat) (s : State) : Out State :=
  mma slot fmt s fun _ _ => if t = acc then .error (causeCode 5 4, t) else .ok (.mma acc t slot, [])

/-- MMA with a handle as A (R202). DESIGN CHOICE: log 114, for TVAL of MXTILE. -/
def execMmaHandle (acc h slot fmt : Nat) (s : State) : Out State :=
  mma slot fmt s fun c b =>
    match State.checkFetch s c.warp h b.tix (if b.af = 15 then 12288 else 6144) b.tix with
    | .error e => .error e
    | .ok bind => .ok (.mmaTile acc bind b.tix slot, TileBind.rows bind b.tix)

/-- Whether a drain format is one of R197's. -/
def drainOk (df : Nat) : Bool := df = 11 || df = 10 || df = 9 || df = 13 || df = 14 || df = 15

/-- MDRAIN's checks of a block (R197). -/
def drainBlockOk (b : FmtBlock) (w0 : Nat) : Bool := fmtReserved w0 && drainOk b.df

/-- MDRAIN to shared memory (R207). -/
def execMdrainShared (acc a fmt : Nat) (s : State) : Out State :=
  withArray s fun c h =>
    let (b, w0) := FmtBlock.read c.warp fmt
    let x := (Warp.s c.warp a).toNat
    let n := 64 * drainRowBytes b.df * MHold.parts h
    if !drainBlockOk b w0 then Ctx.trap c s (causeCode 5 2) (dword w0)
    else if x % 32 ≠ 0 then Ctx.trap c s (causeCode 3 5) (dword x)
    else match State.chipRange s c.warp .shared x n with
      | some cause => Ctx.trap c s cause (dword x)
      | none => Ctx.issueOp c s h (.drain acc x b.df) [(.chip .shared x, n)]

/-- MDRAIN to a tile (R207). -/
def execMdrainTile (acc t fmt : Nat) (s : State) : Out State :=
  withArray s fun c h =>
    let (b, w0) := FmtBlock.read c.warp fmt
    if !drainBlockOk b w0 then Ctx.trap c s (causeCode 5 2) (dword w0)
    else Ctx.issueOp c s h (.drainTile acc t b.df) []

/-! ### Batches (R205, R206, R210) -/

/-- MOPF's effect: a new point m of R204 (R205). -/
def Warp.mopf (W : Warp) : Warp := { W with epoch := W.epoch + 1 }

/-- MOPF (R205). -/
def execMopf (s : State) : Out State := withFrag s fun c => .next (Ctx.advance c 1 (Ctx.on c s Warp.mopf))

/-- A batch closed under a number. -/
def closeBatch (n : Nat) (b : Option Nat) : Option Nat := some (b.getD n)

/-- The operations of a warp that were open join a batch. -/
def MArray.closeOps (w n : Nat) (a : MArray) : MArray :=
  { a with ops := a.ops.map fun o => if o.w = w then { o with batch := closeBatch n o.batch } else o }

/-- MFENCE (R206). -/
def execMfence (d : Nat) (s : State) : Out State :=
  withFrag s fun c =>
    let n := c.warp.batch % (2 ^ 32 - 1) + 1
    let s := { s with arrays := s.arrays.map fun e => (e.1, MArray.closeOps c.w n e.2) }
    Ctx.result c d (word n) (Ctx.on c s fun W =>
      { W with batch := n,
               mfail := W.mfail.map fun f => { f with batch := closeBatch n f.batch },
               mtouch := W.mtouch.map fun t => { t with batch := closeBatch n t.batch } })

/-- Whether batch number x lies beyond b: their distance modulo 2^32 is in 1 to 2^31 (R206). -/
def beyond (x b : Nat) : Bool :=
  let k := (x + 2 ^ 32 - b) % 2 ^ 32
  1 ≤ k && k ≤ 2 ^ 31

/-- Whether a closed batch is covered by an MWAIT for b. -/
def covered (b : Nat) (x : Option Nat) : Bool :=
  match x with
  | some n => !beyond n b
  | none => false

/-- Whether an unretired operation of the warp lies in a batch up to b. -/
def State.batchDue (s : State) (w b : Nat) : Bool :=
  s.arrays.any fun e => e.2.ops.any fun o => o.w = w && covered b o.batch

/-- The bytes of matrix operations that a warp's requests may not touch, after an MWAIT for batch b (R204): those of an
operation that it covers stay so for the requests issued before it, while one of these is not performed. -/
def Warp.lifted (W : Warp) (b : Nat) : List MTouch :=
  (W.mtouch.map fun t =>
    if t.below.isNone && covered b t.batch then { t with below := some W.nextReq } else t).filter fun t =>
    t.below.all fun k => W.reqs.any fun r => !r.done && decide (r.id < k)

/-- MWAIT for batch b, now (R206, R209): it waits, reports the first failure, or returns. -/
def Ctx.mwait (c : Ctx) (s : State) (b : Nat) : Out State :=
  if State.batchDue s c.w b then Ctx.wait c (.mwait b) s
  else
    let done := Ctx.advance c 1 (Ctx.on c s fun W => { W with mtouch := Warp.lifted W b })
    match c.warp.mfail with
    | some f => if covered b f.batch then Ctx.trap c s f.cause (dword f.tval) else .next done
    | none => .next done

/-- MWAIT (R206). -/
def execMwait (a : Nat) (s : State) : Out State :=
  withFrag s fun c =>
    let b := (Warp.s c.warp a).toNat
    if b = 0 then .next (Ctx.advance c 1 s)
    else if beyond b c.warp.batch then Ctx.trap c s (causeCode 5 7) (dword b)
    else Ctx.mwait c s b

/-- The kind of an operation (R210). -/
def MWork.kind : MWork → Nat
  | .mld _ _ _ _ => 1
  | .mst _ _ _ => 2
  | .mbl _ _ => 3
  | .mblTile _ _ _ => 3
  | .mma _ _ _ _ => 4
  | .mmaTile _ _ _ _ _ => 4
  | .mzero _ => 5
  | .drain _ _ _ => 6
  | .drainTile _ _ _ => 6

/-- MPROG (R210). -/
def execMprog (d : Nat) (s : State) : Out State :=
  withFrag s fun c =>
    let v := match (State.array s (State.coreOf s c.warp)).ops.find? fun o => o.w = c.w with
      | some o => MWork.kind o.work * 2 ^ 28 + o.unit
      | none => 0xFFFFFFFF
    Ctx.result c d (word v) s

/-! ### The array's steps (R203, R208, R209) -/

/-- An operation replaced in its array. -/
def MArray.putOp (a : MArray) (o : MOp) : MArray :=
  { a with ops := a.ops.map fun x => if x.id = o.id then o else x }

/-- The array of an owner that has ended is released once its last operation has retired (R107). -/
def State.releaseEnded (s : State) (core : Nat) : State :=
  match (State.array s core).hold with
  | none => s
  | some h =>
    let gone := match State.warp? s h.w with
      | some W => W.ended
      | none => false
    if gone && h.leader.isNone && !((State.array s core).ops.any fun o => o.session = h.session) then
      State.releaseArray s core h
    else s

/-- An operation retires, one that fails or is discarded among them (R203, R208, R209): MSTAT receives its bits, and an
MMA counts (R365); the array of an ended owner, and a released pair's follower, may be free. -/
def State.retireOp (s : State) (core : Nat) (o : MOp) : State :=
  let s := if MWork.kind o.work = 4 then State.tick s core 5 else s
  let s := State.onArray s core fun a => { a with ops := a.ops.filter fun x => x.id != o.id }
  State.freeFollowers (State.releaseEnded (State.onWarp s o.w fun W => Warp.raise W o.flags) core)

/-- An operation fails and retires (R209); after its warp's end the warp's later operations retire without
effect, the supervisor is told and the queue halts (R354). Its MSTAT bits are dropped. DESIGN CHOICE: log 109. -/
def State.failOp (s : State) (core : Nat) (o : MOp) (cause tval : Nat) : State :=
  let s := State.retireOp s core { o with flags := 0 }
  match State.warp? s o.w with
  | none => s
  | some W =>
    if W.ended then
      State.haltWarp (State.report (State.killOps s o.w) .matrixFail [o.w, cause, tval]) W 0x0B
    else if W.mfail.isSome then s
    else State.setWarp s o.w { W with mfail := some ⟨o.batch, cause, tval⟩ }

/-- A unit that cannot be performed (R209): a failure, a translation fault that goes to the supervisor
or aborts an idempotent team (R332), or an earlier copy to wait for. -/
def State.stopOp (s : State) (core : Nat) (W : Warp) (o : MOp) (e : MxErr) : State :=
  match e with
  | .unc tval pa =>
    let s := match pa with
      | some pa => State.countMain s pa
      | none => State.countBad s (dieOf core) none
    State.failOp s core o (causeCode 5 5) tval
  | .later => s
  | .xlate f va =>
    let s := State.walked s f
    let cause := XlFault.code f
    if W.idem && o.lev = 0 then idemAbort s W.team cause va
    else State.report (State.onArray s core fun a => MArray.putOp a { o with fault := some (cause, va) })
      .fetchFault [core, o.id, cause, va]

/-- The next unit of an array's oldest operation performed (R203): the operation retires after its
last. A pair's operation waits until no earlier one of the follower's array is left. -/
def State.mxUnit (s : State) (core : Nat) : State :=
  let a := State.array s core
  match a.ops with
  | [] => s
  | o :: _ =>
    match State.warp? s o.w with
    | none => s
    | some W =>
      let f := match o.pair with
        | some f => State.array s f
        | none => MArray.empty
      if o.dead || W.mfail.isSome then State.retireOp s core { o with flags := 0 }
      else if o.fault.isSome || !f.ops.isEmpty then s
      else match o.declined with
      | some va => State.failOp s core o (causeCode 5 6) va
      | none =>
        let x : MxSt := { s := s, a := MArray.enter a o.session o.phys,
                          f := MArray.enter f (o.session + 512) o.fphys, o := o }
        match MxSt.unit x o.w W o.unit with
        | .error e => State.stopOp s core W o e
        | .ok x =>
          let o := { x.o with unit := o.unit + 1 }
          let s := State.setArray x.s core (MArray.putOp x.a o)
          let s := match o.pair with
            | some f => State.setArray s f x.f
            | none => s
          if o.unit = MOp.units o then State.retireOp s core o else s

/-- A granule of on-chip memory read ahead for a warp (R204). -/
def State.readAhead (s : State) (w : Nat) (sp : Space) (g : Nat) : State :=
  match State.warp? s w with
  | none => s
  | some W =>
    let p := State.placeOf s W sp (32 * g)
    if (State.chipRange s W sp (32 * g) 32).isSome || State.badPlace s w p 32 then s
    else State.setWarp s w { W with ahead := (W.epoch, sp, g, State.readPlace s w p 32) :: W.ahead }

/-- A granule of an operation's handle tile fetched before its turn (R177, R202). -/
def State.fetchAhead (s : State) (core op g : Nat) : State :=
  let a := State.array s core
  match a.ops.find? fun o => o.id = op with
  | none => s
  | some o =>
    match State.warp? s o.w with
    | none => s
    | some W =>
      if o.dead || W.mfail.isSome || o.fault.isSome || o.declined.isSome then s
      else match State.fetchFor s o.w W o g with
        | .ok (s, o) => State.onArray s core fun a => MArray.putOp a o
        | .error (.xlate f va) => State.stopOp s core W o (.xlate f va)
        | .error _ => s

/-- MATRIX_OP_UNIT: the array performs one unit of its oldest operation, or its fetcher reads a
granule ahead (R203, R204). -/
def execMatrixOpUnit (core : Nat) (turn : MxTurn) (s : State) : Out State :=
  match turn with
  | .unit => .next (State.mxUnit s core)
  | .ahead w scratch g => .next (State.readAhead s w (if scratch then .scratch else .shared) g)
  | .fetch op g => .next (State.fetchAhead s core op g)

/-- The supervisor's answer to a reported fault of a handle fetch (R179, R209): an operation whose fault is
declined fails when its turn comes, after the operations before it (R203). -/
def State.fetchReply (s : State) (core op : Nat) (resume : Bool) : State :=
  match (State.array s core).ops.find? fun o => o.id = op with
  | none => s
  | some o =>
    match o.fault with
    | none => s
    | some (_, va) =>
      State.onArray s core fun a =>
        MArray.putOp a { o with fault := none, declined := if resume then none else some va }

end Sys2Proof.Machine
end

