-- ==== Sys2Proof/Machine/Sync.lean ====
section
/-! DEFINITION. FENCE, the barrier instructions, WAITV and SCOPESET (R212 to R228). -/
namespace Sys2Proof.Machine

/-! ### Scopes -/

/-- A scope table entry of a context: a bitmap of cores, all 640 until it is set (R213). -/
def State.scope (s : State) (asid k : Nat) : Nat :=
  (AMap.get? s.scopes (32 * asid + k)).getD (2 ^ 640 - 1)

/-- An agent that a scope may name (R212). -/
inductive Party where
  | warp (w : Nat)
  | copyUnit (core : Nat)
  | array (core : Nat)
  | engine (die : Nat)
  | contextUnit (die : Nat)
  | generalCores
  | fabricPort (port : Nat)
  | peer (device : Nat)
  deriving DecidableEq, Repr

/-- Whether a core belongs to the scope of index k of a warp, whose table entry holds `set` (R212). -/
def State.coreInScope (s : State) (W : Warp) (k set core : Nat) : Bool :=
  match k with
  | 0 => false
  | 1 => core = State.coreOf s W
  | 2 => core = State.coreOf s W || match State.gridOf? s W with
    | some g => g.nbhd && g.teams.any fun t => match s.teams[t]? with
      | some T => T.core = core
      | none => false
    | none => false
  | 3 => dieOf core = dieOf (State.coreOf s W)
  | 4 => true
  | 5 => true
  | _ => set.testBit core

/-- Whether another warp belongs to the scope of index k of a warp: at the team and neighbourhood scopes by
its team, else by its core. -/
def State.warpInScope (s : State) (W : Warp) (k set : Nat) (V : Warp) : Bool :=
  match k with
  | 0 => false
  | 1 => V.team = W.team
  | 2 => V.team = W.team || match State.gridOf? s W with
    | some g => g.nbhd && g.teams.contains V.team
    | none => false
  | _ => State.coreInScope s W k set (State.coreOf s V)

/-- Whether the engine and the context unit of a die belong to the scope of index k of a warp. -/
def State.dieInScope (s : State) (W : Warp) (k set die : Nat) : Bool :=
  3 ≤ k && (List.range 80).any fun c => State.coreInScope s W k set (80 * die + c)

/-- Whether a request on FB reaches a peer (R212): it goes there, or it is a line for a group that the peer may be a
member of. -/
def Warp.reaches (W : Warp) (r : Req) (d : Nat) : Bool :=
  match r.op with
  | .fax peer _ _ _ _ => peer = d
  | .toksend _ peer _ _ _ => peer = d
  | .fmc rec => match AMap.get? W.mrecs rec with
    | some m => m.chip.isNone || m.left.contains d
    | none => true
  | _ => false

/-- Whether an agent belongs to the scope of index k of warp w, whose table entry holds `set` (R212). -/
def State.inScope (s : State) (w : Nat) (W : Warp) (k set : Nat) : Party → Bool
  | .warp v => v = w || match State.warp? s v with
    | some V => State.warpInScope s W k set V
    | none => false
  | .copyUnit core => State.coreInScope s W k set core
  | .array core => State.coreInScope s W k set core
  | .engine die => State.dieInScope s W k set die
  | .contextUnit die => State.dieInScope s W k set die
  | .generalCores => k = 4 || k = 5
  | .fabricPort _ => k = 4 || k = 5
  | .peer d => k = 5 && W.reqs.any fun r => r.path = .fb && Warp.reaches W r d

/-- SCOPESET from bitmap offset x, its read after the requests before `limit` (R214). -/
def Ctx.scopeset (c : Ctx) (s : State) (d k x limit : Nat) : Out State :=
  Ctx.withRead c s .scratch x 80 (.scopeset d k x limit) (limit := limit) fun s m =>
    if m = 0 then Ctx.answer c d 1 s
    else Ctx.answer c d 0
      { s with scopes := AMap.set s.scopes (32 * State.asidOf s c.warp + k) m }

/-- SCOPESET (R214). -/
def execScopeset (d k b : Nat) (s : State) : Out State :=
  withFrag s fun c =>
    let x := (Warp.s c.warp b).toNat
    if x % 16 ≠ 0 then Ctx.trap c s (causeCode 3 5) (dword x)
    else match State.chipRange s c.warp .scratch x 80 with
      | some cause => Ctx.trap c s cause (dword x)
      | none => Ctx.scopeset c s d k x c.warp.nextReq

/-! ### FENCE (R218, R219) -/

/-- The bit of a path in a FENCE's mask (R218). -/
def Path.code : Path → Nat
  | .sh => 0 | .sc => 1 | .sp => 2 | .cp => 3 | .fb => 4 | .eq => 5

/-- Whether a request on FB goes to this device alone (R219, R287). -/
def State.toSelf (s : State) (r : Req) : Bool :=
  match r.op with
  | .fax peer _ _ _ _ => State.isSelf s peer
  | .toksend _ peer _ _ _ => State.isSelf s peer
  | _ => false

/-- Whether a FENCE waits for a request: it is on a path of the mask and not yet performed, or on FB one that failed and
has not retired, so that its trap is still to come (R297); on FB, one to this
device, or to peers that the scope names, which only the fabric scope does (R212, R219). -/
def State.fenced (s : State) (w : Nat) (W : Warp) (r : Req) (scope set mask limit : Nat) : Bool :=
  r.id < limit && mask.testBit (Path.code r.path) &&
    (!r.done || (r.path = .fb && (Req.failure r).isSome)) &&
    (r.path != .fb || State.toSelf s r ||
      (List.range 511).any fun d => Warp.reaches W r d && State.inScope s w W scope set (.peer d))

/-- Whether FENCE's second part is done: the requests before `limit` on its paths are performed, and
no trap of a fabric request has still to be taken (R218, R297, R316). A request that has been
performed has been for every scope (log 17). -/
def State.fenceOk (s : State) (w : Nat) (W : Warp) (scope set mask limit : Nat) : Bool :=
  !(W.reqs.any fun r => State.fenced s w W r scope set mask limit) &&
    !(mask.testBit 4 && Warp.fabricTrap W)

/-- FENCE for the runs below `runs` and, once these have committed, the requests below `reqs`; it captured
`set` when it issued (R213). -/
def Ctx.fence (c : Ctx) (s : State) (scope set mask runs : Nat) (reqs : Option Nat) : Out State :=
  if Warp.uncommitted c.warp runs (fun _ => true) then Ctx.wait c (.fence scope set mask runs none) s
  else
    let limit := reqs.getD c.warp.nextReq
    if State.fenceOk s c.w c.warp scope set mask limit then
      .next (Ctx.advance c 1 (Ctx.on c s fun W => if mask.testBit 6 then Warp.mopf W else W))
    else Ctx.wait c (.fence scope set mask runs (some limit)) s

/-- FENCE (R218). -/
def execFence (scope mask : Nat) (s : State) : Out State :=
  withFrag s fun c =>
    Ctx.fence c s scope (State.scope s (State.asidOf s c.warp) scope) mask c.warp.nextRun none

/-! ### Barriers (R222 to R227) -/

/-- A BAR instruction on the object that S[a] names, once its address passes (R224). -/
def withBar (a : Nat) (s : State) (k : State → Ctx → Nat → Nat → Out State) : Out State :=
  withFrag s fun c =>
    let x := (Warp.s c.warp a).toNat
    if x % 8 ≠ 0 then Ctx.trap c s (causeCode 3 5) (dword x)
    else match State.sharedAt s c.warp x with
      | none => Ctx.trap c s (causeCode 3 0) (dword x)
      | some (t, off, len) =>
        if len < off + 8 then Ctx.trap c s (causeCode 3 0) (dword x)
        else k (State.openBar s c.w c.warp c.warp.nextReq t off) c t off

/-- BAR.INIT (R224). -/
def execBarInit (d a b : Nat) (s : State) : Out State :=
  withBar a s fun s c t off =>
    let o := State.bar s t off
    let n := (Warp.s c.warp b).toNat
    if o.waiters ≠ 0 ∨ o.pend ≠ 0 ∨ o.arrived ≠ 0 then Ctx.result c d (barStatus 1 o.phase) s
    else if n = 0 ∨ 16383 < n then Ctx.result c d (barStatus 7 o.phase) s
    else Ctx.result c d (barStatus 0 o.phase) (State.setBar s t off { o with count := n, inv := false })

/-- BAR.ARR (R223, R224). -/
def execBarArr (d a : Nat) (s : State) : Out State :=
  withBar a s fun s c t off =>
    let o := State.bar s t off
    if o.count = 0 then Ctx.result c d (barStatus 6 o.phase) s
    else if o.inv then Ctx.result c d (barStatus 2 o.phase) s
    else if (Warp.arrival? c.warp t off).isNone && 8 ≤ c.warp.arrivals.length then
      Ctx.result c d (barStatus 5 o.phase) s
    else
      let s := Ctx.on c s fun W =>
        let W := Warp.freeArrival W t off
        { W with arrivals := W.arrivals ++ [⟨t, off, o.phase⟩] }
      Ctx.result c d (barStatus 0 o.phase) (State.arriveBar s t off)

/-- A fragment goes to sleep on an object, its warp counted once (R224). -/
def Ctx.sleep (c : Ctx) (s : State) (d t off p : Nat) (arr : Bool) : Out State :=
  let o := State.bar s t off
  let s := if Warp.sleepsOn c.warp t off then s
    else State.setBar s t off { o with waiters := o.waiters + 1 }
  Ctx.wait c (.barrier d t off p arr) s

/-- BAR.WAIT on an arrival in phase p; `free` removes what remembers it (R224). -/
def Ctx.barWait (c : Ctx) (s : State) (d t off p : Nat) (arr : Bool) (free : Warp → Warp) :
    Out State :=
  let o := State.bar s t off
  if o.inv then Ctx.result c d (barStatus 2 p) (Ctx.on c s free)
  else if o.phase ≠ p then Ctx.result c d (barStatus 0 p) (Ctx.on c s free)
  else Ctx.sleep c s d t off p arr

/-- BAR.WAIT (R224). -/
def execBarWait (d a : Nat) (s : State) : Out State :=
  withBar a s fun s c t off =>
    match Warp.arrival? c.warp t off with
    | none => Ctx.result c d (barStatus 4 (State.bar s t off).phase) s
    | some r => Ctx.barWait c s d t off r.phase false fun W => Warp.freeArrival W t off

/-- Whether a mark is one of the fragment's BAR.ARRWAIT on an object (R227). -/
def Frag.marked (f : Frag) (t off : Nat) (m : Mark) : Bool :=
  m.pc = f.pc && m.lev = f.hlev && m.arr.team = t && m.arr.off = off

/-- A mark removed from the fragment that carries it (R227). -/
def Warp.clearMark (slot : Nat) (m : Mark) (W : Warp) : Warp :=
  Warp.onFrag W slot fun f => { f with marks := f.marks.erase m }

/-- BAR.ARRWAIT (R224); a fragment that was taken from this instruction after its arrival only waits
(R227). -/
def execBarArrwait (d a : Nat) (s : State) : Out State :=
  withBar a s fun s c t off =>
    let o := State.bar s t off
    match c.frag.marks.find? (Frag.marked c.frag t off) with
    | some m => Ctx.barWait c (Ctx.on c s (Warp.clearMark c.slot m)) d t off m.arr.phase true id
    | none =>
      if o.count = 0 then Ctx.result c d (barStatus 6 o.phase) s
      else if o.inv then Ctx.result c d (barStatus 2 o.phase) s
      else Ctx.barWait c (State.arriveBar s t off) d t off o.phase true id

/-- BAR.TEST (R224). -/
def execBarTest (d a : Nat) (s : State) : Out State :=
  withBar a s fun s c t off =>
    let o := State.bar s t off
    match Warp.arrival? c.warp t off with
    | none => Ctx.result c d (barStatus 4 o.phase) s
    | some r =>
      let free := Ctx.on c s fun W => Warp.freeArrival W t off
      if o.inv then Ctx.result c d (barStatus 2 r.phase) free
      else if o.phase ≠ r.phase then Ctx.result c d (barStatus 0 r.phase) free
      else Ctx.result c d (barStatus 3 r.phase) s

/-- BAR.INV (R224). -/
def execBarInv (d a : Nat) (s : State) : Out State :=
  withBar a s fun s c t off =>
    let o := State.bar s t off
    if o.count = 0 then Ctx.result c d (barStatus 6 o.phase) s
    else
      let s := State.setBar s t off { o with inv := true, arrived := 0, waiters := 0 }
      Ctx.result c d (barStatus 0 o.phase) (State.wakeBar s t off 2)

/-! ### WAITV (R228) -/

/-- WAITV's test of the word at x, now. DEDUCED: log 26. DESIGN CHOICE: log 115, the word compared is that
of the issue. -/
def Ctx.waitv (c : Ctx) (s : State) (d : Nat) (sp : Space) (x : Nat) (v : Word) (eq : Bool) :
    Out State :=
  let (s, y) := State.load s c.w c.warp c.warp.nextReq (.chip (State.placeOf s c.warp sp x)) 4
  if (word y == v) == eq then Ctx.answer c d (word y) s else Ctx.wait c (.waitv d sp x v eq) s

/-- WAITV of a level and a condition. DESIGN CHOICE: log 115, S[b] is read once, at issue. -/
def waitv (sp : Space) (eq : Bool) (d a b : Nat) (s : State) : Out State :=
  withFrag s fun c =>
    let x := (Warp.s c.warp a).toNat
    if x % 4 ≠ 0 then Ctx.trap c s (causeCode 3 5) (dword x)
    else match State.chipRange s c.warp sp x 4 with
      | some cause => Ctx.trap c s cause (dword x)
      | none => Ctx.waitv c s d sp x (Warp.s c.warp b) eq

/-- WAITV.EQ.SH (R228). -/
def execWaitvEqSh (d a b : Nat) (s : State) : Out State := waitv .shared true d a b s
/-- WAITV.NE.SH (R228). -/
def execWaitvNeSh (d a b : Nat) (s : State) : Out State := waitv .shared false d a b s
/-- WAITV.EQ.SC (R228). -/
def execWaitvEqSc (d a b : Nat) (s : State) : Out State := waitv .scratch true d a b s
/-- WAITV.NE.SC (R228). -/
def execWaitvNeSc (d a b : Nat) (s : State) : Out State := waitv .scratch false d a b s

end Sys2Proof.Machine
end

