-- ==== Sys2Proof/Machine/Contexts.lean ====
section
/-! DEFINITION. Attention contexts: the CTX instructions, the home unit's service of them, and the
supervisor's commands (R253 to R269). -/
namespace Sys2Proof.Machine

/-! ### Positions and frontiers (R254, R257) -/

/-- The least frontier of a context. -/
def AttnCtx.fmin (c : AttnCtx) : Nat :=
  match c.frontier with
  | [] => 0
  | f :: fs => fs.foldl Min.min f

/-- The key of a position at a layer. -/
def posKey (p l : Nat) : Nat := 256 * p + l

/-- Whether a position lies below the window. -/
def AttnCtx.below (c : AttnCtx) (p : Nat) : Bool := p + 64 < AttnCtx.fmin c

/-- Whether a position of the window is ABN at a layer. -/
def AttnCtx.isAbn (c : AttnCtx) (l p : Nat) : Bool := !AttnCtx.below c p && c.abn.contains (posKey p l)

/-- Whether a position is done at a layer (R257). -/
def AttnCtx.isDone (c : AttnCtx) (l p : Nat) : Bool :=
  AttnCtx.below c p ||
    (p < c.next && (c.pub.contains (posKey p l) || c.abn.contains (posKey p l)))

/-- The largest frontier from f, with fuel: every position below it is done at the layer. -/
def AttnCtx.advance (c : AttnCtx) (l : Nat) : Nat → Nat → Nat
  | 0, f => f
  | n + 1, f => if f < c.next && AttnCtx.isDone c l f then AttnCtx.advance c l n (f + 1) else f

/-- Every frontier set to its value, and the window slid up with FMIN (R257). -/
def AttnCtx.update (c : AttnCtx) : AttnCtx :=
  let c := { c with frontier := c.frontier.zipIdx.map fun x =>
      AttnCtx.advance c x.2 (c.next - x.1) x.1 }
  let lo := AttnCtx.fmin c
  { c with pub := c.pub.filter fun k => lo ≤ k / 256 + 64,
           abn := c.abn.filter fun k => lo ≤ k / 256 + 64,
           owners := c.owners.filter fun e => lo ≤ e.1 + 64 }

/-- The layers of a context. -/
def AttnCtx.layerList (c : AttnCtx) : List Nat := List.range c.layers

/-- Positions s to s + k − 1. -/
def positions (s k : Nat) : List Nat := (List.range k).map (s + ·)

/-- Positions published at a layer where they are OPEN (R262). -/
def AttnCtx.publish (c : AttnCtx) (l : Nat) (ps : List Nat) : AttnCtx :=
  AttnCtx.update { c with pub := c.pub ++
    (ps.filter fun p => !AttnCtx.below c p && !AttnCtx.isDone c l p).map fun p => posKey p l }

/-- The layers at which a position is OPEN. -/
def AttnCtx.openLayers (c : AttnCtx) (p : Nat) : List Nat :=
  (AttnCtx.layerList c).filter fun l => !AttnCtx.isDone c l p

/-- Positions at or above FMIN abandoned at every layer where they are OPEN, with their number
(R264). -/
def AttnCtx.abandon (c : AttnCtx) (ps : List Nat) : AttnCtx × Nat :=
  let ps := ps.filter fun p => AttnCtx.fmin c ≤ p && !(AttnCtx.openLayers c p).isEmpty
  let c := { c with abn := c.abn ++ ps.flatMap fun p => (AttnCtx.openLayers c p).map (posKey p),
                    abandoned := Min.min (c.abandoned + ps.length) 0xFFFFFFFF }
  (AttnCtx.update c, ps.length)

/-- n positions reserved for a queue (R261). -/
def AttnCtx.reserve (c : AttnCtx) (n : Nat) (q : Option Nat) : AttnCtx :=
  { c with next := c.next + n, owners := c.owners ++ (positions c.next n).map fun p => (p, q) }

/-- The hole bitmap below a frontier (R263). -/
def AttnCtx.holes (c : AttnCtx) (l f : Nat) : Nat :=
  ((List.range 64).map fun i =>
    if 64 ≤ f + i && AttnCtx.isAbn c l (f + i - 64) then 2 ^ i else 0).sum

/-! ### Service (R258, R260) -/

/-- The context word of an operation. -/
def CtxOp.word : CtxOp → Nat
  | .res _ c _ => c
  | .pub c _ _ _ => c
  | .acq _ c _ => c
  | .abn _ c _ _ => c
  | .stat _ c _ => c

/-- Whether one of a list of words of a context is uncorrectable (R269). -/
def AttnCtx.lost (c : AttnCtx) (ws : List CtxWord) : Bool := ws.any c.bad.contains

/-- The words that hold FMIN (R257). -/
def AttnCtx.fminWords (c : AttnCtx) : List CtxWord := (AttnCtx.layerList c).map .frontier

/-- The words that hold the states of positions at a layer (R254, R358). The specification does not place them: a word
of eight bytes holds 32 positions, and the window's 4,160 positions follow one another round it. DESIGN CHOICE: log
102. -/
def AttnCtx.stateWords (c : AttnCtx) (l : Nat) (ps : List Nat) : List CtxWord :=
  (ps.filter fun p => !AttnCtx.below c p).map fun p => .window l (p % 4160 / 32)

/-- The words that hold the queues that reserved positions (R254, R358), eight to a word. DESIGN CHOICE: log 102. -/
def queueWords (ps : List Nat) : List CtxWord := ps.map fun p => .queues (p % 4160 / 8)

/-- The frontier of a layer. -/
def AttnCtx.front (c : AttnCtx) (l : Nat) : Nat := (c.frontier[l]?).getD 0

/-- The words that are read as the frontier of a layer moves up from where it stands in c to where it stands in d: of the
positions that it passes, and of the one that stops it below NEXT (R257). -/
def AttnCtx.scanWords (c d : AttnCtx) (l : Nat) : List CtxWord :=
  AttnCtx.stateWords c l (positions (AttnCtx.front c l)
    (Min.min (AttnCtx.front d l + 1) d.next - AttnCtx.front c l))

/-- The words that publishing positions at a layer needs besides their states (R262): SCOPE, and those that are read as
the frontier moves up. -/
def AttnCtx.pubWords (c : AttnCtx) (l : Nat) (ps : List Nat) : List CtxWord :=
  .scope :: AttnCtx.scanWords c (AttnCtx.publish c l ps) l

/-- The words that acquiring a layer needs (R263): its frontier, and the states of the 64 positions below it. -/
def AttnCtx.acqWords (c : AttnCtx) (l : Nat) : List CtxWord :=
  .frontier l :: AttnCtx.stateWords c l
    (positions (AttnCtx.front c l - 64) (AttnCtx.front c l - (AttnCtx.front c l - 64)))

/-- The words that abandoning positions needs (R264). -/
def AttnCtx.abnWords (c : AttnCtx) (ps : List Nat) : List CtxWord :=
  [.next, .abandoned] ++ AttnCtx.fminWords c ++ (AttnCtx.layerList c).flatMap fun l =>
    AttnCtx.stateWords c l (ps.filter fun p => AttnCtx.fmin c ≤ p) ++
      AttnCtx.scanWords c (AttnCtx.abandon c ps).1 l

/-- The words that an item of CTX.STAT needs (R265). -/
def AttnCtx.itemWords (c : AttnCtx) (i : Nat) : List CtxWord :=
  match i % 256 with
  | 0 => [.next]
  | 1 => [.layers]
  | 2 => [.cap]
  | 3 => AttnCtx.fminWords c
  | 4 => [.frontier (bits i 15 8)]
  | 5 => []
  | 6 => [.abandoned]
  | 7 => [.user]
  | 8 => [.user]
  | _ => [.scope]

/-- The states of positions as a publish at a layer reads them, from the lowest up (R262): the first that is ABN, or
uncorrectable. -/
def AttnCtx.pubLate (c : AttnCtx) (word l : Nat) (ps : List Nat) : Option (Nat × Nat) :=
  ps.findSome? fun p =>
    if AttnCtx.lost c (AttnCtx.stateWords c l [p]) then some (causeCode 7 7, word)
    else if AttnCtx.isAbn c l p then some (causeCode 7 4, p)
    else none

/-- What is checked, from 7:0 to 7:7 in the table's order (R260): the cause and TVAL1. CTXUNC is decided
where a word that the check or the operation needs is read (R269). DEDUCED: log 27. -/
def AttnCtx.check (c : AttnCtx) (op : CtxOp) : Option (Nat × Nat) :=
  let need (ws : List CtxWord) : Option (Nat × Nat) :=
    if AttnCtx.lost c ws then some (causeCode 7 7, CtxOp.word op) else none
  let layer (l : Nat) : Option (Nat × Nat) :=
    need [.layers] <|> if c.layers ≤ l then some (causeCode 7 1, l) else none
  let range (s k : Nat) : Option (Nat × Nat) :=
    need [.cap] <|> if k = 0 ∨ c.cap < s + k then some (causeCode 7 2, k) else none
  let unres (s k : Nat) : Option (Nat × Nat) :=
    need [.next] <|> if c.next < s + k then some (causeCode 7 3, Max.max s c.next) else none
  match op with
  | .res _ _ n => if n = 0 ∨ 4096 < n then some (causeCode 7 2, n) else none
  | .pub _ y s k => layer y <|> range s k <|> unres s k <|>
      need (AttnCtx.fminWords c) <|> AttnCtx.pubLate c (CtxOp.word op) y (positions s k) <|>
      need (AttnCtx.pubWords c y (positions s k))
  | .acq _ _ y => layer y <|> need (AttnCtx.acqWords c y)
  | .abn _ _ s k => range s k <|> unres s k <|> need (.layers :: AttnCtx.abnWords c (positions s k))
  | .stat _ _ i =>
    (if i % 256 = 4 then layer (bits i 15 8) else none) <|>
    (if 9 < i % 256 ∨ 2 ^ 16 ≤ i then some (causeCode 7 6, i) else none) <|>
    need (AttnCtx.itemWords c i)

/-- The value of an item (R265). -/
def AttnCtx.item (c : AttnCtx) (i : Nat) : Nat :=
  match i % 256 with
  | 0 => c.next
  | 1 => c.layers
  | 2 => c.cap
  | 3 => AttnCtx.fmin c
  | 4 => (c.frontier[bits i 15 8]?).getD 0
  | 5 => c.waiting.length
  | 6 => c.abandoned
  | 7 => bits c.user 31 0
  | 8 => bits c.user 63 32
  | _ => c.scope

/-- The live context that a context word names for an owner (R260). -/
def State.context? (s : State) (asid word : Nat) : Option AttnCtx :=
  if 2 ^ 11 ≤ word then none
  else match AMap.get? s.contexts word with
    | some c => if c.asid = asid then some c else none
    | none => none

/-- Whether the word that says whose a live context is, which every CTX instruction needs, is uncorrectable (R269). -/
def State.lostOwner (s : State) (word : Nat) : Bool :=
  word < 2 ^ 11 && (AMap.get? s.contexts word).any fun c => AttnCtx.lost c [.asid]

/-- The queue whose work a warp is. -/
def State.queueOf (s : State) (W : Warp) : Option Nat := (State.gridOf? s W).bind fun g => g.queue

/-- The context of a fragment by number. -/
def State.fragCtx? (s : State) (w slot : Nat) : Option Ctx :=
  (State.warp? s w).bind fun W => (Warp.frag? W slot).map fun f => ⟨w, slot, W, f⟩

/-- A context unit meets uncorrectable state of a context: it reports it (R269), and its die counts it (R358). -/
def State.ctxMet (s : State) (n : Nat) : State := State.report (State.countBad s (n / 256) none) .ctxUncorr [n]

/-- The trap of a CTX instruction at its home (R260): uncorrectable state is reported (R269). -/
def Ctx.ctxTrap (c : Ctx) (s : State) (cause tval : Nat) : Out State :=
  Ctx.lateTrap c (if cause = causeCode 7 7 then State.ctxMet s tval else s) cause (dword tval)

/-- The home unit serves an operation that is not a reservation (R262 to R265). -/
def Ctx.serveCtx (c : Ctx) (s : State) (n : Nat) (A : AttnCtx) (op : CtxOp) : Out State :=
  let put (A : AttnCtx) : State := { s with contexts := AMap.set s.contexts n A }
  match op with
  | .res _ _ _ => .next s
  | .pub _ l p k => .next (Ctx.advance c 1 (put (AttnCtx.publish A l (positions p k))))
  | .acq d _ l =>
    let f := AttnCtx.front A l
    let h := AttnCtx.holes A l f
    .next (Ctx.advance c 1 (Ctx.on c s
      (Ctx.writes c d [word f, word (h % 2 ^ 32), word (h / 2 ^ 32)])))
  | .abn d _ p k =>
    let (A, cnt) := AttnCtx.abandon A (positions p k)
    Ctx.answer c d (word cnt) (put A)
  | .stat d _ i => Ctx.answer c d (word (AttnCtx.item A i)) s

/-- A reservation at the head of its context's order, without it in A (R261): FULL, granted, or, with none, still
waiting. Each needs its own words (R269). -/
def Ctx.serveRes (c : Ctx) (s : State) (n : Nat) (A : AttnCtx) (d k : Nat) (q : Option Nat) : Option (Out State) :=
  let put (A : AttnCtx) : State := { s with contexts := AMap.set s.contexts n A }
  if AttnCtx.lost A [.cap, .next] then some (Ctx.ctxTrap c (put A) (causeCode 7 7) n)
  else if A.cap < A.next + k then some (Ctx.answer c d 0xFFFFFFFF (put A))
  else if AttnCtx.lost A (AttnCtx.fminWords A) then some (Ctx.ctxTrap c (put A) (causeCode 7 7) n)
  else if A.next + k ≤ AttnCtx.fmin A + 4096 then
    some (Ctx.answer c d (word A.next) (put (AttnCtx.reserve A k q)))
  else none

/-- Whether the first waiting reservation of a context no longer has to wait: it is served before what arrives later
(R258). -/
def AttnCtx.mayGrant (c : AttnCtx) : Bool :=
  match c.waiting with
  | [] => false
  | x :: _ => AttnCtx.lost c (.cap :: .next :: AttnCtx.fminWords c) || decide (c.cap < c.next + x.n) ||
      decide (c.next + x.n ≤ AttnCtx.fmin c + 4096)

/-- Whether an earlier CTX instruction of the warp has still to be served (R258). -/
def Warp.ctxWaits (W : Warp) (seq : Nat) : Bool :=
  W.frags.any fun f => match f with
    | some f => match f.wait with
      | .ctx _ k => k < seq
      | .ctxRuns _ _ k => k < seq && Warp.finishes W f
      | _ => false
    | none => false

/-- CTX_SERVE: the CTX instruction of a fragment reaches its home unit and is served; a reservation is checked, and
joins the reservations of its context if it has to wait (R258 to R261). -/
def execCtxServe (w slot : Nat) (s : State) : Out State :=
  match State.fragCtx? s w slot with
  | none => .next s
  | some c =>
    match c.frag.wait with
    | .ctx op seq =>
      if Warp.ctxWaits c.warp seq then .next s
      else
        let n := CtxOp.word op
        if State.lostOwner s n then Ctx.ctxTrap c s (causeCode 7 7) n
        else match State.context? s (State.asidOf s c.warp) n with
        | none => Ctx.ctxTrap c s (causeCode 7 0) n
        | some A =>
          if AttnCtx.mayGrant A then .next s
          else match AttnCtx.check A op with
          | some (cause, tval) => Ctx.ctxTrap c s cause tval
          | none =>
            match op with
            | .res d _ k =>
              match (if A.waiting.isEmpty then Ctx.serveRes c s n A d k (State.queueOf s c.warp) else none) with
              | some o => o
              | none =>
                let A := { A with waiting := A.waiting ++ [⟨w, slot, d, k, State.queueOf s c.warp⟩] }
                Ctx.wait c (.ctxRes d) { s with contexts := AMap.set s.contexts n A }
            | _ => Ctx.serveCtx c s n A op
    | _ => .next s

/-- CTX_RESERVATION_GRANT: the context's first waiting reservation proceeds, when it can (R261). -/
def execCtxReservationGrant (ctx : Nat) (s : State) : Out State :=
  match AMap.get? s.contexts ctx with
  | none => .next s
  | some A =>
    match A.waiting with
    | [] => .next s
    | x :: rest =>
      let A := { A with waiting := rest }
      match State.fragCtx? s x.w x.slot with
      | none => .next { s with contexts := AMap.set s.contexts ctx A }
      | some c => (Ctx.serveRes c s ctx A x.d x.n x.queue).getD (.next s)

/-! ### The instructions (R259 to R265) -/

/-- The number of a CTX instruction that issues is used up (R258). -/
def Ctx.number (c : Ctx) (s : State) : State := Ctx.on c s fun W => { W with nextCtx := W.nextCtx + 1 }

/-- A CTX instruction leaves its core (R258, R259). -/
def Ctx.sendCtx (c : Ctx) (s : State) (op : CtxOp) : Out State :=
  Ctx.wait c (.ctx op c.warp.nextCtx) (Ctx.number c s)

/-- The number in a scalar register. -/
def Ctx.num (c : Ctx) (r : Nat) : Nat := (Warp.s c.warp r).toNat

/-- CTX.RES (R261): CTXIDEM is decided at issue (R260). -/
def execCtxRes (d a b : Nat) (s : State) : Out State :=
  withFrag s fun c =>
    if c.warp.idem then Ctx.trap c s (causeCode 7 5) (dword (Ctx.num c a))
    else Ctx.sendCtx c s (.res d (Ctx.num c a) (Ctx.num c b))

/-- CTX.PUB, issued with number `seq`, once the runs below `limit` have committed (R258, R262). A write that
has been performed has been for every scope (log 17), so the release waits for nothing more. -/
def Ctx.pub (c : Ctx) (s : State) (op : CtxOp) (limit seq : Nat) : Out State :=
  if Warp.uncommitted c.warp limit (fun _ => true) then Ctx.wait c (.ctxRuns op limit seq) s
  else Ctx.wait c (.ctx op seq) s

/-- CTX.PUB (R262): d names the context. DEDUCED: log 27. -/
def execCtxPub (d a b : Nat) (s : State) : Out State :=
  withFrag s fun c =>
    Ctx.pub c (Ctx.number c s)
      (.pub (Ctx.num c d) (Ctx.num c a) (Ctx.num c b) (Ctx.num c (b + 1))) c.warp.nextRun c.warp.nextCtx

/-- CTX.ACQ (R263). -/
def execCtxAcq (d a b : Nat) (s : State) : Out State :=
  withFrag s fun c => Ctx.sendCtx c s (.acq d (Ctx.num c a) (Ctx.num c b))

/-- CTX.ABN (R264). -/
def execCtxAbn (d a b : Nat) (s : State) : Out State :=
  withFrag s fun c =>
    Ctx.sendCtx c s (.abn d (Ctx.num c a) (Ctx.num c b) (Ctx.num c (b + 1)))

/-- CTX.STAT (R265). -/
def execCtxStat (d a b : Nat) (s : State) : Out State :=
  withFrag s fun c => Ctx.sendCtx c s (.stat d (Ctx.num c a) (Ctx.num c b))

/-! ### The supervisor's commands (R255, R256) -/

/-- The bytes of context state that a context of L layers occupies (R254). -/
def contextBytes (layers : Nat) : Nat := (5120 + 1040 * layers + 255) / 256 * 256

/-- Whether a context record keeps R255's ranges, so that CREATE does not answer BADREC. No rule lists the
faults of a record: these are CAP out of range and a SCOPE that is not named; the reserved bits [66:64] are
ignored (R6). DEDUCED: log 79. -/
def contextRecordOk (x : Nat) : Bool :=
  let cap := bits x 127 96
  let scope := bits x 71 67
  1 ≤ cap && cap ≤ 2 ^ 24 && (scope = 3 || scope = 4 || 6 ≤ scope)

/-- The command registers of a die's context unit. -/
def State.ctxRegs (s : State) (die : Nat) : CmdRegs := (AMap.get? s.ctxUnits die).getD CmdRegs.zero

/-- A command of a context unit ends with a status and a context number in RES. DESIGN CHOICE: log 116, the
number is 0 where nothing was allocated. -/
def State.ctxDone (s : State) (die status ctx : Nat) : State :=
  let g := { State.ctxRegs s die with pending := none, res := ctx * 2 ^ 16 + status * 2 ^ 8 }
  { s with ctxUnits := AMap.set s.ctxUnits die g }

/-- A command under way at a context unit, with its word, if its code is `code`. -/
def State.ctxCommand (s : State) (die code : Nat) : Option Nat :=
  (State.ctxRegs s die).pending.bind fun x => if x % 256 = code then some x else none

/-- CREATE (R256): the conditions in their order, then the lowest free index. -/
def execCreate (die : Nat) (s : State) : Out State :=
  match State.ctxCommand s die 1 with
  | none => .next s
  | some _ =>
    let g := State.ctxRegs s die
    let x := g.arg1 * 2 ^ 64 + g.arg0
    let mine := s.contexts.filter fun e => e.1 / 256 = die
    let layers := bits x 79 72 + 1
    if !contextRecordOk x then .next (State.ctxDone s die 3 0)
    else match (List.range 256).find? fun i => (AMap.get? s.contexts (256 * die + i)).isNone with
      | none => .next (State.ctxDone s die 2 0)
      | some i =>
        if 2 ^ 21 < (mine.map fun e => contextBytes e.2.layers).sum + contextBytes layers then
          .next (State.ctxDone s die 1 0)
        else
          let n := 256 * die + i
          let A : AttnCtx :=
            { asid := bits x 95 80, cap := bits x 127 96, layers := layers, scope := bits x 71 67,
              user := bits x 63 0, next := 0, frontier := List.replicate layers 0, pub := [],
              abn := [], owners := [], abandoned := 0, waiting := [], bad := [] }
          .next (State.ctxDone { s with contexts := AMap.set s.contexts n A } die 0 n)

/-- The fragment of a withdrawn reservation: its context is gone, and it traps (R260). -/
def State.goneRes (s : State) (n : Nat) (x : CtxWaiter) : State :=
  State.onWarp s x.w fun W => Warp.onFrag (Warp.disown W (.frag x.slot)) x.slot fun f =>
    { f with wait := .trapping (causeCode 7 0) n false }

/-- A context deleted: its waiting reservations are withdrawn, and its state is free (R256). -/
def State.dropContext (s : State) (n : Nat) (A : AttnCtx) : State :=
  let s := A.waiting.foldl (fun s x => State.goneRes s n x) s
  { s with contexts := AMap.erase s.contexts n }

/-- DELETE (R256). -/
def execDelete (die : Nat) (s : State) : Out State :=
  match State.ctxCommand s die 2 with
  | none => .next s
  | some x =>
    let n := bits x 18 8
    match (if n / 256 = die then AMap.get? s.contexts n else none) with
    | none => .next (State.ctxDone s die 4 0)
    | some A =>
      if AttnCtx.mayGrant A then .next s
      else
      .next (State.ctxDone (State.dropContext s n A) die 0 0)

/-- ABANDONQ (R256): as CTX.ABN on every position in [FMIN, NEXT) of the queue. On uncorrectable state
nothing is abandoned, and the status has no stated value (R269). -/
def execAbandonq (die : Nat) (s : State) : Out State :=
  match State.ctxCommand s die 3 with
  | none => .next s
  | some x =>
    let n := bits x 18 8
    match (if n / 256 = die then AMap.get? s.contexts n else none) with
    | none => .next (State.ctxDone s die 4 0)
    | some A =>
      if AttnCtx.mayGrant A then .next s
      else
      let all := positions (AttnCtx.fmin A) (A.next - AttnCtx.fmin A)
      let ps := all.filter fun p => AMap.get? A.owners p = some (some (bits x 31 24))
      if AttnCtx.lost A (.layers :: queueWords all ++ AttnCtx.abnWords A ps) then
        let (s, v) := State.free s
        .next (State.ctxDone (State.ctxMet s n) die (v.toNat % 256) 0)
      else
        .next (State.ctxDone
          { s with contexts := AMap.set s.contexts n (AttnCtx.abandon A ps).1 } die 0 0)

/-- CTX_REPORT_READ: a read of REPORT takes the next entry (R256). The context and the queue both claim
bits [26:24] of the register: what these bits read as has no stated value (DESIGN CHOICE, log 28). -/
def execCtxReportRead (die : Nat) (s : State) : Out State :=
  match (AMap.get? s.ctxReports die).getD [] with
  | [] => .next { s with supRead := 0 }
  | x :: rest =>
    let (s, v) := State.free s
    let n := x / 256
    let q := x % 256
    .next { s with
      supRead := 2 ^ 63 + q / 8 * 2 ^ 27 + v.toNat % 8 * 2 ^ 24 + n % 256 * 2 ^ 16,
      ctxReports := AMap.set s.ctxReports die rest }

/-- The reset reports of a queue (R268), 256 × context + queue: one for each context in which it still holds an OPEN
position. -/
def State.reportOpen (s : State) (q : Nat) : State :=
  s.contexts.foldl (fun s e =>
    let held := e.2.owners.any fun o =>
      o.2 = some q && o.1 < e.2.next && !(AttnCtx.openLayers e.2 o.1).isEmpty
    if held then
      let die := e.1 / 256
      let rs := (AMap.get? s.ctxReports die).getD [] ++ [256 * e.1 + q]
      { s with ctxReports := AMap.set s.ctxReports die rs }
    else s) s

end Sys2Proof.Machine
end

