-- ==== Sys2Proof/Machine/Control.lean ====
section
/-! DEFINITION. Control transfers, splits and the end of fragments (R106 to R110). -/
namespace Sys2Proof.Machine

/-- The target of an SB form: the address of its first word plus 4 × off18 (R56). DEDUCED: log 12. -/
def branchTarget (c : Ctx) (off : Int) : Word := c.frag.pc + BitVec.ofInt 32 (4 * off)

/-- A branch that is taken on a condition (R106). -/
def condBranch (a : Nat) (off : Int) (t : Word → Bool) (s : State) : Out State :=
  withFrag s fun c =>
    if t (Warp.s c.warp a) then Ctx.jump c s (branchTarget c off) id else .next (Ctx.advance c 1 s)

/-- BR (R106). -/
def execBr (off : Int) (s : State) : Out State :=
  withFrag s fun c => Ctx.jump c s (branchTarget c off) id
/-- BEQZ (R106). -/
def execBeqz (a : Nat) (off : Int) (s : State) : Out State := condBranch a off (fun x => x = 0) s
/-- BNEZ (R106). -/
def execBnez (a : Nat) (off : Int) (s : State) : Out State := condBranch a off (fun x => x ≠ 0) s
/-- BLTZ (R106). -/
def execBltz (a : Nat) (off : Int) (s : State) : Out State := condBranch a off (fun x => x.msb) s
/-- BGEZ (R106). -/
def execBgez (a : Nat) (off : Int) (s : State) : Out State := condBranch a off (fun x => !x.msb) s
/-- CALL (R106): the link is the byte offset of the next word. -/
def execCall (a : Nat) (off : Int) (s : State) : Out State :=
  withFrag s fun c =>
    Ctx.jump c s (branchTarget c off) fun W => Warp.setS W a (c.frag.pc + 4)
/-- JR (R106). -/
def execJr (a : Nat) (s : State) : Out State :=
  withFrag s fun c => Ctx.jump c s (Warp.s c.warp a) id
/-- LOOP (R106): the counter falls by 1 modulo 2^32 and the branch is taken while it is not 0. With
a = s0 the counter reads 0 and stays 0; the new value of the rule, 0xFFFF_FFFF, is not 0. DEDUCED: log 11. -/
def execLoop (a : Nat) (off : Int) (s : State) : Out State :=
  withFrag s fun c =>
    let n := Warp.s c.warp a - 1
    if n ≠ 0 then Ctx.jump c s (branchTarget c off) fun W => Warp.setS W a n
    else .next (Ctx.advance c 1 (Ctx.on c s fun W => Warp.setS W a n))

/-- The warp after a split of the fragment: the taken lanes in the lowest free entry, the others at
the word after the BRV, both with the split pushed on their join lists (R109). -/
def Warp.split (W : Warp) (slot g : Nat) (f : Frag) (taken : Word) (target next join : Word) :
    Warp :=
  let joins := ⟨join, f.mask⟩ :: f.joins
  let W := Warp.setFrag W slot (some { f with mask := f.mask &&& ~~~taken, joins := joins })
  let W := Warp.setFrag W g (some { f with mask := taken, joins := joins })
  Warp.arrive (Warp.arrive W g target) slot next

/-- BRV (R109): no split when all or none of the fragment's lanes take the branch. A target is a
control transfer of the whole instruction, so a bad one traps before anything changes (R73). No rule places
a new fragment in the round-robin order: it comes last. DESIGN CHOICE: log 90. -/
def execBrv (neg : Bool) (p : Nat) (off join : Int) (s : State) : Out State :=
  withFrag s fun c =>
    let m := c.frag.mask
    let v := Warp.p c.warp p
    let taken := m &&& (if neg then ~~~v else v)
    let target := branchTarget c off
    let next := c.frag.pc + 8
    if taken = m then Ctx.jump c s target id
    else if taken = 0 then .next (Ctx.advance c 2 s)
    else
      match Warp.freeSlot c.warp with
      | none => .next s
      | some g =>
        let va := State.scalarVA s c.warp target
        match State.checkStart s (.core (State.coreOf s c.warp)) (State.asidOf s c.warp) va false with
        | .error f => Ctx.fetchFault c s (causeCode 2 0) f va
        | .ok (s, _) =>
          let J := c.frag.pc + BitVec.ofInt 32 (4 * join)
          let s := Ctx.on c s fun W => Warp.split W c.slot g c.frag taken target next J
          .next { s with rr := s.rr ++ [(c.w, g)] }

/-- EXIT (R107): the lanes are inactive for good and the entry is free; splits that waited for these
lanes fuse. A team of which only waiting fragments are left may be stalled (R176). -/
def execExit (s : State) : Out State :=
  withFrag s fun c =>
    let s := Ctx.on c s fun W =>
      Warp.fuseAll (Warp.setFrag { W with exited := W.exited ||| c.frag.mask } c.slot none)
    .next (State.reportStall { s with rr := s.rr.filter fun e => !(e.1 = c.w && e.2 = c.slot) } c.warp.team)

/-- YIELD (R108): last in the round-robin order, and nothing else. -/
def execYield (s : State) : Out State :=
  withFrag s fun c => .next (State.rotate (Ctx.advance c 1 s) c.w c.slot)

end Sys2Proof.Machine
end

