-- ==== Sys2Proof/Machine/Equiv.lean ====
section
/-! DEFINITION. The equivalence instructions and the engines' steps (R230 to R250). -/
namespace Sys2Proof.Machine

/-! ### Entries (R231, R232) -/

/-- Where a virtual address of a forest's array or log lies. -/
def Forest.pa (F : Forest) (va : Nat) : Nat :=
  match F.segs.find? fun g => g.1 ≤ va && va < g.1 + g.2.2 with
  | some g => g.2.1 + (va - g.1)
  | none => 0

/-- The address of an entry. -/
def Forest.entryVA (F : Forest) (e : Nat) : Nat := F.base + 8 * e

/-- PARENT and SIZE of an entry (R231); free values in an undefined state (R232). -/
def State.entry (s : State) (F : Forest) (e : Nat) : Nat × Nat :=
  match AMap.get? F.entries e with
  | some x => x
  | none =>
    match F.wild with
    | some k => ((Config.freeWord (k + 2 * e)).toNat, (Config.freeWord (k + 2 * e + 1)).toNat)
    | none =>
      if F.init then (e, 1)
      else
        let v := Memory.read s.main (Forest.pa F (Forest.entryVA F e)) 8
        (v % 2 ^ 32, v / 2 ^ 32)

/-- An entry replaced. -/
def Forest.put (F : Forest) (e parent size : Nat) : Forest :=
  { F with entries := AMap.set F.entries e (parent, size) }

/-- Whether the eight bytes at a forest's address are uncorrectable. -/
def State.forestBad (s : State) (F : Forest) (va : Nat) : Bool :=
  Memory.uncorrectable s.main (Forest.pa F va) 8

/-- Whether an entry is uncorrectable. -/
def State.entryBad (s : State) (F : Forest) (e : Nat) : Bool := State.forestBad s F (Forest.entryVA F e)

/-- An engine meets an uncorrectable granule at an address of a forest: it reports it, and the error is counted and logged
(R241, R358). -/
def State.forestMet (s : State) (f : Nat) (F : Forest) (va : Nat) : State :=
  State.report (State.countMain s (Forest.pa F va)) .eqUncorr [f, va / 32 * 32]

/-- ROOT and CHILD of a log entry (R231); free values in an undefined state (R232). -/
def State.logEntry (s : State) (F : Forest) (i : Nat) : Nat × Nat :=
  match AMap.get? F.logs i with
  | some x => x
  | none =>
    match F.wild with
    | some k =>
      ((Config.freeWord (k + 2 * F.n + 2 * i)).toNat, (Config.freeWord (k + 2 * F.n + 2 * i + 1)).toNat)
    | none =>
      let v := Memory.read s.main (Forest.pa F (F.log + 8 * i)) 8
      (v / 2 ^ 32, v % 2 ^ 32)

/-! ### FIND and UNITE (R241, R242) -/

/-- The root of a failed operation (R231). -/
def noRoot : Nat := 0xFFFFFFFF

/-- What an operation on a forest answers: root, status (R242's codes; 0 is OK for FIND), and the
address of an uncorrectable entry it met. -/
structure EqAns where
  root   : Nat
  status : Nat
  bad    : Option Nat
  deriving DecidableEq, Repr

/-- A failed answer. -/
def EqAns.fail (status : Nat) (bad : Option Nat) : EqAns := ⟨noRoot, status, bad⟩

/-- The walk of FIND from x after `steps` steps, with fuel (R241); `halve` as SNAP = 0. -/
def State.findFrom (s : State) (halve : Bool) : Nat → Forest → (x steps : Nat) → Forest × EqAns
  | 0, F, _, _ => (F, EqAns.fail 5 none)
  | n + 1, F, x, steps =>
    if State.entryBad s F x then (F, EqAns.fail 6 (some (Forest.entryVA F x)))
    else
      let p := (State.entry s F x).1
      if p = x then (F, ⟨x, 0, none⟩)
      else if F.n ≤ p ∨ F.n < steps + 1 then (F, EqAns.fail 5 none)
      else if State.entryBad s F p then (F, EqAns.fail 6 (some (Forest.entryVA F p)))
      else
        let g := (State.entry s F p).1
        if F.n ≤ g then (F, EqAns.fail 5 none)
        else if halve then
          State.findFrom s halve n (Forest.put F x g (State.entry s F x).2) g (steps + 1)
        else State.findFrom s halve n F p (steps + 1)

/-- FIND of an element of an open forest (R241). -/
def State.findIn (s : State) (F : Forest) (e : Nat) : Forest × EqAns :=
  if F.n ≤ e then (F, EqAns.fail 3 none) else State.findFrom s (!F.snap) (F.n + 2) F e 0

/-- The class registers after a union formed a class of a size under a root (R233). -/
def Forest.largest (F : Forest) (size root : Nat) : Forest :=
  if F.lsize < size then { F with lsize := size, lroot := root }
  else if size = F.lsize then { F with lroot := Min.min F.lroot root }
  else F

/-- The union of two different roots (R242). -/
def State.union (s : State) (F : Forest) (rx ry : Nat) : Forest × EqAns :=
  if F.snap && F.fill = F.cap then (F, ⟨rx, 2, none⟩)
  else
    let sx := (State.entry s F rx).2
    let sy := (State.entry s F ry).2
    let r := if !F.bySize || sx = sy then Min.min rx ry else if sy < sx then rx else ry
    let c := if r = rx then ry else rx
    let size := ((State.entry s F r).2 + (State.entry s F c).2) % 2 ^ 32
    let F := Forest.put F c r (State.entry s F c).2
    let F := Forest.put F r r size
    let F := if F.snap then { F with logs := AMap.set F.logs F.fill (r, c), fill := F.fill + 1 } else F
    let F := { F with classes := (F.classes + 2 ^ 32 - 1) % 2 ^ 32, unions := (F.unions + 1) % 2 ^ 64 }
    (Forest.largest F size r, ⟨r, 0, none⟩)

/-- A failure counted (R233, R242). -/
def Forest.failed (F : Forest) (status el : Nat) : Forest :=
  { F with fails := Min.min (F.fails + 1) 0xFFFFFFFF, lastst := status, lastel := el }

/-- UNITE in an open forest (R242), its failure counted. -/
def State.uniteIn (s : State) (F : Forest) (x y : Nat) : Forest × EqAns :=
  let (F, a) := State.findIn s F x
  if a.status ≠ 0 then (Forest.failed F a.status x, a)
  else
    let (F, b) := State.findIn s F y
    if b.status ≠ 0 then (Forest.failed F b.status y, b)
    else if a.root = b.root then (F, ⟨a.root, 1, none⟩)
    else
      let (F, r) := State.union s F a.root b.root
      if r.status = 2 then (Forest.failed F 2 x, r) else (F, r)

/-- An operation on forest f for a context: on a forest that is not open in it, NOTOPEN; an
uncorrectable granule is reported (R230, R241). -/
def State.forestOp (s : State) (f ctx : Nat) (op : State → Forest → Forest × EqAns) : State × EqAns :=
  match AMap.get? s.forests f with
  | none => (s, EqAns.fail 4 none)
  | some F =>
    if F.ctx ≠ ctx then (s, EqAns.fail 4 none)
    else
      let (F, a) := op s F
      let s := { s with forests := AMap.set s.forests f F }
      match a.bad with
      | some va => (State.forestMet s f F va, a)
      | none => (s, a)

/-- FIND for a context, its failure counted. -/
def State.serveFind (s : State) (f ctx e : Nat) : State × EqAns :=
  State.forestOp s f ctx fun s F =>
    let (F, a) := State.findIn s F e
    if a.status = 0 then (F, a) else (Forest.failed F a.status e, a)

/-- UNITE for a context. -/
def State.serveUnite (s : State) (f ctx x y : Nat) : State × EqAns :=
  State.forestOp s f ctx fun s F => State.uniteIn s F x y

/-! ### Order of service (R239, R247) -/

/-- The forest of a request on EQ. -/
def Req.forest? (r : Req) : Option Nat :=
  match r.op with
  | .eq f _ _ => some f
  | .unite f _ => some f
  | .find f _ => some f
  | .copy c => match c.work with
    | .eqrel e => some e.forest
    | _ => none
  | _ => none

/-- Whether a request still has its place in its forest's linear order before it. -/
def Req.unserved (r : Req) : Bool :=
  !r.done && match r.op with
    | .eq _ _ _ => true
    | .unite _ _ => !r.todo.isEmpty
    | .find _ _ => !r.todo.isEmpty
    | .copy c => match c.work with
      | .eqrel e => e.roots.isNone && c.stop = .running
      | _ => false
    | _ => false

/-- Whether a request waits for an earlier one of its warp to the same forest (R239). -/
def Warp.forestWaits (W : Warp) (r : Req) : Bool :=
  W.reqs.any fun q => q.id < r.id && Req.unserved q && Req.forest? q = Req.forest? r

/-- Whether an EQ.OPEN other than request (w, id) is being served on a forest (R235, R239). -/
def State.opening (s : State) (w id f : Nat) : Bool :=
  s.warps.zipIdx.any fun x => x.1.reqs.any fun r =>
    !(x.2 = w && r.id = id) && !r.done && match r.op with
      | .eq g _ (.open_ _ asked _) => asked && g = f
      | _ => false

/-- Whether an EQREL holds a forest while the supervisor resolves its fault (R247, R248). -/
def State.forestHeld (s : State) (f : Nat) : Bool :=
  s.warps.any fun W => W.reqs.any fun r => !r.done && match r.op with
    | .copy c => match c.work, c.stop with
      | .eqrel e, .faulted _ _ => e.forest = f && e.roots.isSome
      | _, _ => false
    | _ => false

/-- A window entry as reset leaves it (R290). -/
def Window.zero : Window :=
  { base := 0, lenm1 := 0, asid := 0, job := 0, forest := 0, kind := 0, ro := false, valid := false,
    past := [], revoking := false }

/-- A window's entry. -/
def State.window (s : State) (n : Nat) : Window := (AMap.get? s.windows n).getD Window.zero

/-- The lanes of a warp's own requests that come before a lane in the order of R239 and R298, by request and lane: the
lower lanes of its pass, and the lanes of earlier requests to the same peer and window, that name the same
offset and are not yet performed; of a forest operation, every lower lane. -/
def Warp.before (W : Warp) (id lane off : Nat) (forest : Bool) : List (Nat × Nat) :=
  let key (r : Req) : Option (Nat × Nat) :=
    match r.op with
    | .fax p win _ _ _ => some (p, win)
    | _ => none
  match Warp.req? W id with
  | none => []
  | some r => (W.reqs.filter fun q => q.id ≤ id && key q = key r).flatMap fun q =>
      (q.todo.filter fun it => (it.addr.toNat = off && q.id < id) ||
        (q.id = id && it.lane < lane && (forest || it.addr.toNat = off))).map fun it => (q.id, it.lane)

/-- Whether a lane of a warp's own request comes after another that is not yet performed. -/
def State.homeWaits (s : State) (w id lane off : Nat) (forest : Bool) : Bool :=
  match State.warp? s w with
  | none => false
  | some W => !(Warp.before W id lane off forest).isEmpty

/-- Whether two packets come from one source: a warp of this device, or a peer. -/
def HomeSrc.same (a b : HomeSrc) : Bool :=
  match a, b with
  | .own w _, .own v _ => w = v
  | .ownLine w _, .ownLine v _ => w = v
  | .peer p _ _, .peer q _ _ => p = q
  | .peerLine p _ _ _, .peerLine q _ _ _ => p = q
  | _, _ => false

/-- Whether an earlier packet or line of the same peer must be performed first: a packet's lane for the
same window and offset (R298), which its packets reach this home in the order of (R288), a line for the same
group, window and offset (R300). -/
def State.peerWaits (s : State) (h : Home) (off : Nat) : Bool :=
  s.homes.any fun g => g.id < h.id && g.win = h.win && match g.src, h.src with
    | .peer p _ _, .peer q _ _ => p = q && g.todo.any fun u => u.2.1 = off
    | .peerLine p _ _ m, .peerLine q _ _ n => p = q && m = n && g.off = h.off
    | _, _ => false

/-- The forest that a packet's operations act on. -/
def State.homeForest (s : State) (h : Home) : Option Nat :=
  if FaxOp.onForest h.op then some (State.window s h.win).forest else none

/-- Whether a lane of an accepted packet comes after nothing that it is ordered behind, and its forest can
serve it. -/
def State.homeFree (s : State) (h : Home) (t : Nat × Nat × Nat × Nat) : Bool :=
  let forest := FaxOp.onForest h.op
  let free := match h.src with
    | .own w id => !State.homeWaits s w id t.1 t.2.1 forest
    | .peer _ _ _ => !(h.todo.any fun u => u.1 < t.1 && (forest || u.2.1 = t.2.1)) &&
        !State.peerWaits s h t.2.1
    | _ => !State.peerWaits s h t.2.1
  free && match State.homeForest s h with
    | none => true
    | some f => !State.opening s s.warps.length 0 f && (match h.op with
      | .find _ => true
      | _ => !State.forestHeld s f)

/-- Whether an engine may serve an operation on a forest that it has been sent after the packets that `past` names: none of
these that it could serve has been passed over by 4,095 later operations (R239). DESIGN CHOICE: log 96. -/
def State.forestTurn (s : State) (f : Nat) (past : Home → Bool) : Bool :=
  !(s.homes.any fun g => past g && State.homeForest s g = some f && 4095 ≤ g.passed &&
    g.todo.any (State.homeFree s g))

/-- An operation on a forest is served: the earlier packets for the forest have been passed over once more (R239), and its
engine counts it (R365). -/
def State.passForest (s : State) (f : Nat) (past : Home → Bool) : State :=
  let homes := s.homes.map fun g =>
    if past g && State.homeForest s g = some f then { g with passed := g.passed + 1 } else g
  let s := { s with homes := homes }
  if f < 32 then State.tickDie s (f / 4) engineEvents else s

/-- An operation of this device's own warps, which reaches the engine as it is served. -/
def State.passOwn (s : State) (f : Nat) : State := State.passForest s f fun _ => true

/-- Whether the engine serves request r of warp w next on its forest. -/
def State.servable (s : State) (w : Nat) (W : Warp) (r : Req) (holds : Bool) : Bool :=
  match Req.forest? r with
  | none => false
  | some f => Req.unserved r && !Warp.forestWaits W r && !State.opening s w r.id f &&
      !(holds && State.forestHeld s f) && State.forestTurn s f fun _ => true

/-! ### The lane instructions (R240) -/

/-- UNITE and FIND: one request on EQ; c above 31 names no forest. -/
def laneForest (o : LaneOp) (s : State) (op : Nat → ReqOp) (y : LaneCtx → Nat → Nat) : Out State :=
  withRun s fun c =>
    let f := LaneCtx.src c o .n32 o.c 0
    LaneCtx.ask c o s [LaneCtx.request c .eq (op f)
      ((LaneCtx.partLanes c o).map fun L => ⟨L, dword (LaneCtx.src c o .n32 o.a L), dword (y c L), 0, []⟩)
      []]

/-- UNITE (R240). -/
def execUnite (o : LaneOp) (s : State) : Out State :=
  laneForest o s (fun f => .unite f o.d) fun c L => LaneCtx.src c o .n32 o.b L

/-- FIND (R240). -/
def execFind (o : LaneOp) (s : State) : Out State := laneForest o s (fun f => .find f o.d) fun _ _ => 0

/-- The next lane of a UNITE or FIND served, in ascending lane order (R239). -/
def serveLane (unite : Bool) (w id : Nat) (s : State) : Out State :=
  match State.warp? s w with
  | none => .next s
  | some W =>
    match Warp.req? W id with
    | none => .next s
    | some r =>
      match r.todo, r.op with
      | it :: rest, .unite f d =>
        if !unite || !State.servable s w W r true then .next s
        else
          let (s, a) := State.serveUnite (State.passOwn s f) f (State.asidOf s W) it.addr.toNat it.x.toNat
          .next (State.onWarp s w fun W => Warp.putReq W
            { r with todo := rest, land := r.land ++
                [.vreg it.lane d (word a.root), .vreg it.lane (d + 1) (word a.status)] })
      | it :: rest, .find f d =>
        if unite || !State.servable s w W r false then .next s
        else
          let (s, a) := State.serveFind (State.passOwn s f) f (State.asidOf s W) it.addr.toNat
          .next (State.onWarp s w fun W => Warp.putReq W
            { r with todo := rest, land := r.land ++ [.vreg it.lane d (word a.root)] })
      | _, _ => .next s

/-- UNITE_SERVE: the home engine serves a UNITE's next lane (R239, R242). -/
def execUniteServe (w id : Nat) (s : State) : Out State := serveLane true w id s
/-- FIND_SERVE: the home engine serves a FIND's next lane (R239, R241). -/
def execFindServe (w id : Nat) (s : State) : Out State := serveLane false w id s

/-! ### The scalar instructions (R234 to R238) -/

/-- A scalar EQ instruction issues and its fragment waits until it has been served (R234). -/
def Ctx.issueEq (c : Ctx) (s : State) (f d : Nat) (op : EqOp) : Out State :=
  if !Warp.room c.warp .eq 1 then Ctx.wait c (.room .eq) s
  else
    let s := Ctx.on c s fun W => Warp.ask W
      { id := 0, path := .eq, op := .eq f d op, todo := [], land := [], done := false, run := none,
        token := 0, lev := c.warp.tlev }
    Ctx.wait c (.mem c.warp.nextReq) s

/-- EQ.OPEN (R235): the descriptor is read at the issue. An uncorrectable one is not delivered, and gives
status 6 where the descriptor would be checked (R234). -/
def execEqOpen (d n b : Nat) (s : State) : Out State :=
  withFrag s fun c =>
    let x := (Warp.s c.warp b).toNat
    if x % 32 ≠ 0 then Ctx.trap c s (causeCode 3 5) (dword x)
    else match State.chipRange s c.warp .scratch x 32 with
      | some cause => Ctx.trap c s cause (dword x)
      | none =>
        let p := State.placeOf s c.warp .scratch x
        if !Warp.room c.warp .eq 1 then Ctx.wait c (.room .eq) s
        else if State.badPlace s c.w p 32 then Ctx.issueEq c (State.metPlace s c.w p) n d (.open_ none false none)
        else
          let (s, v) := State.load s c.w c.warp c.warp.nextReq (.chip p) 32
          Ctx.issueEq c s n d (.open_ (some v) false none)

/-- EQ.CLOSE (R236). -/
def execEqClose (d n : Nat) (s : State) : Out State := withFrag s fun c => Ctx.issueEq c s n d .close
/-- EQ.SNAP (R237). -/
def execEqSnap (d n : Nat) (s : State) : Out State := withFrag s fun c => Ctx.issueEq c s n d .snap
/-- EQ.UNDO (R237). -/
def execEqUndo (d n : Nat) (s : State) : Out State := withFrag s fun c => Ctx.issueEq c s n d .undo
/-- EQ.KEEP (R237). -/
def execEqKeep (d n : Nat) (s : State) : Out State := withFrag s fun c => Ctx.issueEq c s n d .keep
/-- EQ.STAT (R238). -/
def execEqStat (d n page : Nat) (s : State) : Out State :=
  withFrag s fun c => Ctx.issueEq c s n d (.stat page)

/-- Whether an open descriptor keeps R235; its reserved bits are ignored (R6). DEDUCED: log 79. -/
def openDescOk (x : Nat) : Bool :=
  let log := bits x 255 192
  let base := bits x 191 128
  let cap := bits x 95 64
  base % 8 = 0 && base < 2 ^ 57 && bits x 127 96 ≠ 0 && cap ≤ 2 ^ 28 &&
    (cap = 0 || (log % 8 = 0 && log < 2 ^ 57))

/-- The physical address of a context's virtual address by its tables, without a TLB. -/
def State.physOf (s : State) (asid va : Nat) : Option Nat :=
  match AMap.get? s.roots asid with
  | none => none
  | some root =>
    if 2 ^ 57 ≤ va then none
    else match walk s.main va 5 root with
      | .error _ => none
      | .ok (level, leaf, _) => some (bits leaf 51 8 * 2 ^ 8 + va % pageSize level)

/-- Where `n` bytes at an address lie, page by page of 64 KiB; none if a page is not resident. -/
def State.pin (s : State) (asid va n : Nat) : Option (List (Nat × Nat × Nat)) :=
  (List.range (if n = 0 then 0 else (va + n + 65535) / 65536 - va / 65536)).mapM fun k =>
    let lo := Max.max va ((va / 65536 + k) * 65536)
    let hi := Min.min (va + n) ((va / 65536 + k + 1) * 65536)
    (State.physOf s asid lo).map fun pa => (lo, pa, hi - lo)

/-- The registers of a forest at its OPEN, from its roots (R235): CLASSES, LSIZE, LROOT. Without a
root, LSIZE and LROOT have no stated value. -/
def State.scanRoots (s : State) (F : Forest) : State × Forest :=
  let roots := (List.range F.n).filter fun e => (State.entry s F e).1 = e
  match roots with
  | [] =>
    ({ s with freeCount := s.freeCount + 2 },
      { F with classes := 0, lsize := (Config.freeWord s.freeCount).toNat,
               lroot := (Config.freeWord (s.freeCount + 1)).toNat })
  | r :: rest =>
    let F := { F with classes := roots.length, lsize := (State.entry s F r).2, lroot := r }
    (s, rest.foldl (fun F e => Forest.largest F (State.entry s F e).2 e) F)

/-- OPEN's last part, with the pages resident (R235): the status, and the slot opened on 0. The scan ends at the first entry
that is at fault. DESIGN CHOICE: log 107. -/
def State.openForest (s : State) (f ctx x : Nat) (segs : List (Nat × Nat × Nat)) : State × Nat :=
  let n := bits x 127 96
  let init := bits x 1 1 = 1
  let F : Forest :=
    { serial := s.freeCount, ctx := ctx, base := bits x 191 128, log := bits x 255 192, n := n,
      cap := bits x 95 64, bySize := bits x 0 0 = 1, init := init, snap := false, classes := n,
      lsize := 1, lroot := 0, unions := 0, fill := 0, fails := 0, lastst := 0, lastel := 0, ls0 := 0,
      lr0 := 0, segs := segs, entries := [], logs := [] }
  let wrong (e : Nat) : Bool := State.entryBad s F e || n ≤ (State.entry s F e).1
  match (List.range n).find? wrong with
  | some e =>
    if State.entryBad s F e then
      (State.forestMet s f F (Forest.entryVA F e), 6)
    else (s, 5)
  | none =>
    let s := { s with freeCount := s.freeCount + 1 }
    let (s, F) := if init then (s, F) else State.scanRoots s F
    ({ s with forests := AMap.set s.forests f F }, 0)

/-- UNDO's log entries from index i − 1 down (R237): the forest, and whether it stopped at an
uncorrectable one. -/
def State.undoFrom (s : State) : Nat → Forest → Forest × Option Nat
  | 0, F => (F, none)
  | i + 1, F =>
    let lva := F.log + 8 * i
    if State.forestBad s F lva then ({ F with fill := i + 1 }, some lva)
    else
      let (r, c) := State.logEntry s F i
      if State.entryBad s F c then ({ F with fill := i + 1 }, some (Forest.entryVA F c))
      else if State.entryBad s F r then ({ F with fill := i + 1 }, some (Forest.entryVA F r))
      else
        let (_, sc) := State.entry s F c
        let F := Forest.put F c c sc
        let (pr, sr) := State.entry s F r
        let F := Forest.put F r pr ((sr + 2 ^ 32 - sc) % 2 ^ 32)
        State.undoFrom s i { F with classes := (F.classes + 1) % 2 ^ 32,
                                    unions := (F.unions + 2 ^ 64 - 1) % 2 ^ 64 }

/-- Main memory after CLOSE (R236): the engine's entries and log entries are written back, but over no uncorrectable word.
DESIGN CHOICE: log 107. -/
def State.writeBackForest (s : State) (F : Forest) : State :=
  let put (m : Memory) (va v : Nat) : Memory :=
    let pa := Forest.pa F va
    if Memory.uncorrectable m pa 8 then m else Memory.write m pa 8 v
  let es := if F.init || F.wild.isSome then (List.range F.n).map fun e => (e, State.entry s F e) else F.entries
  let m := es.foldl (fun m e => put m (Forest.entryVA F e.1) (e.2.1 + e.2.2 * 2 ^ 32)) s.main
  let logs := if F.wild.isSome then (List.range F.fill).map fun i => (i, State.logEntry s F i) else F.logs
  { s with main := logs.foldl (fun m e => put m (F.log + 8 * e.1) (e.2.2 + e.2.1 * 2 ^ 32)) m }

/-- A page of the class registers (R238). -/
def Forest.page (F : Forest) (page : Nat) : List Word :=
  if page = 0 then [word F.classes, word F.n, word F.lsize, word F.lroot]
  else if page = 1 then
    [word F.unions, word (F.unions / 2 ^ 32), word F.fill,
     word ((if F.snap then 2 ^ 31 else 0) + (if F.bySize then 2 ^ 30 else 0) + F.cap)]
  else [word F.fails, word F.lastst, word F.lastel, 0]

/-- A scalar EQ request served: its registers written, and performed. -/
def State.eqDone (s : State) (w : Nat) (r : Req) (d : Nat) (vs : List Word) : State :=
  State.onWarp s w fun W => Warp.setReq (Warp.landGroup W (.req r.id) d vs) { r with done := true }

/-- The operations on a forest that is open in the context, but for OPEN and STAT: status (R236,
R237). -/
def State.forestStatus (s : State) (f : Nat) (F : Forest) (op : EqOp) : State × Nat :=
  let put (F : Forest) : State := { s with forests := AMap.set s.forests f F }
  match op with
  | .close =>
    if F.snap then (s, 8)
    else
      let s := State.writeBackForest s F
      ({ s with forests := AMap.erase s.forests f }, 0)
  | .snap =>
    if F.snap then (s, 8)
    else (put { F with snap := true, fill := 0, ls0 := F.lsize, lr0 := F.lroot }, 0)
  | .undo =>
    if !F.snap then (s, 9)
    else match State.undoFrom s F.fill F with
      | (F, some va) => (State.forestMet (put F) f F va, 6)
      | (F, none) =>
        (put { F with fill := 0, snap := false, lsize := F.ls0, lroot := F.lr0 }, 0)
  | .keep => if F.snap then (put { F with fill := 0, snap := false }, 0) else (s, 9)
  | .open_ _ _ _ => (s, 2)
  | .stat _ => (s, 0)

/-- EQ.OPEN served (R235): it asks for the pages, and ends when the supervisor has answered. -/
def State.serveOpen (s : State) (w : Nat) (W : Warp) (r : Req) (f d : Nat) (desc : Option Nat)
    (asked : Bool) (pinned : Option Bool) : State :=
  let ctx := State.asidOf s W
  let stop (st : Nat) : State := State.eqDone s w r d [word st]
  match AMap.get? s.forests f with
  | some F => if F.ctx = ctx then stop 2 else stop 1
  | none =>
    match desc with
    | none => stop 6
    | some x =>
    if !openDescOk x then stop 3
    else match asked, pinned with
      | false, _ =>
        let s := State.report s .eqPin
          [w, r.id, f, ctx, bits x 191 128, bits x 127 96, bits x 255 192, bits x 95 64]
        State.onWarp s w fun W => Warp.setReq W { r with op := .eq f d (.open_ (some x) true none) }
      | true, none => s
      | true, some false => stop 4
      | true, some true =>
        match State.pin s ctx (bits x 191 128) (8 * bits x 127 96),
          State.pin s ctx (bits x 255 192) (8 * bits x 95 64) with
        | some a, some b =>
          let (s, st) := State.openForest s f ctx x (a ++ (if bits x 95 64 = 0 then [] else b))
          State.eqDone s w r d [word st]
        | _, _ => stop 4

/-- Whether an operation has to wait while an EQREL holds its forest (R247). -/
def EqOp.held : EqOp → Bool
  | .undo => true
  | .keep => true
  | .close => true
  | .open_ _ _ _ => false
  | .snap => false
  | .stat _ => false

/-- EQ_SERVE: the home engine serves a scalar EQ request in the forest's linear order (R234 to R239). -/
def execEqServe (w id : Nat) (s : State) : Out State :=
  match State.warp? s w with
  | none => .next s
  | some W =>
    match Warp.req? W id with
    | none => .next s
    | some r =>
      match r.op with
      | .eq f d op =>
        if !State.servable s w W r (EqOp.held op) then .next s
        else
          let s := match op with
            | .open_ _ true _ => s
            | _ => State.passOwn s f
          match op with
          | .open_ x asked pinned => .next (State.serveOpen s w W r f d x asked pinned)
          | .stat page =>
            let vs := match AMap.get? s.forests f with
              | some F => if F.ctx = State.asidOf s W then Forest.page F page
                else List.replicate 4 0xFFFFFFFF
              | none => List.replicate 4 0xFFFFFFFF
            .next (State.eqDone s w r d vs)
          | op =>
            match AMap.get? s.forests f with
            | some F =>
              if F.ctx = State.asidOf s W then
                let (s, st) := State.forestStatus s f F op
                .next (State.eqDone s w r d [word st])
              else .next (State.eqDone s w r d [7])
            | none => .next (State.eqDone s w r d [7])
      | _ => .next s

/-- The supervisor's answer to a pin request of EQ.OPEN (R235). -/
def State.pinReply (s : State) (w id : Nat) (granted : Bool) : State :=
  match (State.warp? s w).bind fun W => Warp.req? W id with
  | none => s
  | some r =>
    match r.op with
    | .eq f d (.open_ x true none) =>
      if r.done then s
      else State.onWarp s w fun W => Warp.setReq W { r with op := .eq f d (.open_ x true (some granted)) }
    | _ => s

/-! ### EQREL (R244 to R248) -/

/-- The element type of a code (R244). -/
def etType : Nat → LaneTy
  | 0 => .f32 | 1 => .i32 | 2 => .n32 | 3 => .f64 | 4 => .i64 | _ => .n64

/-- The element size of a code (R244). -/
def etSize (et : Nat) : Nat := if et < 3 then 4 else 8

/-- EQREL of a fn (R244, R246). -/
def eqrel (fn a : Nat) (s : State) : Out State :=
  withFrag s fun c =>
    let r (i : Nat) : Nat := (Warp.s c.warp (a + i)).toNat
    let dw := r 0
    let sw := r 1
    let xw := r 2
    let f := bits xw 31 27
    let et := bits xw 26 24
    let h := State.handle? s c.warp (bits xw 23 18)
    let base := match h with
      | some b => b.base
      | none => 0
    let es := if fn < 2 then 4 else etSize et
    let F := AMap.get? s.forests f
    let isOpen := match F with
      | some F => F.ctx = State.asidOf s c.warp
      | none => false
    let n := match F with
      | some F => F.n
      | none => 0
    let d := endOf base dw
    let e := if fn < 2 then End.main 0 else endOf base sw
    match firstFailed
      [(!spaceOk dw, causeCode 4 0, dw),
       (if fn < 2 then bits sw 31 28 ≠ 15 ∨ bits sw 27 0 ≠ 0 else !spaceOk sw, causeCode 4 0, sw),
       (bits xw 17 0 ≠ 0, causeCode 4 0, xw),
       (if fn < 2 then et ≠ 0 else 5 < et, causeCode 6 1, xw),
       (inMain dw && h.isNone, causeCode 4 1, dw),
       (2 ≤ fn && inMain sw && h.isNone, causeCode 4 1, sw),
       (bits dw 27 0 % es ≠ 0, causeCode 4 3, dw),
       (2 ≤ fn && bits sw 27 0 % es ≠ 0, causeCode 4 3, sw),
       (!isOpen, causeCode 6 0, xw),
       rangeCheck s c.warp d (n * es) dw, rangeCheck s c.warp e (n * es) sw,
       (State.endConst s c.warp d (n * es), causeCode 3 2, dw)] with
    | some (cause, tval) => Ctx.trap c s cause (dword tval)
    | none =>
      Ctx.issueCopy c s
        (.eqrel { fn := fn, et := et, forest := f, serial := (match F with
                    | some F => F.serial
                    | none => 0),
                  dst := d, src := e, roots := none, classes := [], pos := 0, acc := [], done := [],
                  bytes := 0 })
        (11 + fn) (r 3)

/-- EQREL.ROOT (R244). -/
def execEqrelRoot (a : Nat) (s : State) : Out State := eqrel 0 a s
/-- EQREL.DENSE (R244). -/
def execEqrelDense (a : Nat) (s : State) : Out State := eqrel 1 a s
/-- EQREL.SUM (R244). -/
def execEqrelSum (a : Nat) (s : State) : Out State := eqrel 2 a s
/-- EQREL.MIN (R244). -/
def execEqrelMin (a : Nat) (s : State) : Out State := eqrel 3 a s
/-- EQREL.MAX (R244). -/
def execEqrelMax (a : Nat) (s : State) : Out State := eqrel 4 a s

/-- The root of every element from e on (R245), or the address of an uncorrectable entry. The root of
an element whose path is corrupt has no stated value. DEDUCED: log 77. -/
def State.rootsFrom (F : Forest) : State → List Nat → Except Nat (State × List Nat)
  | s, [] => .ok (s, [])
  | s, e :: es =>
    let (_, a) := State.findFrom s false (F.n + 2) F e 0
    match a.bad with
    | some va => .error va
    | none =>
      let (s, r) := if a.status = 0 then (s, a.root)
        else ({ s with freeCount := s.freeCount + 1 }, (Config.freeWord s.freeCount).toNat)
      match State.rootsFrom F s es with
      | .error va => .error va
      | .ok (s, rs) => .ok (s, r :: rs)

/-- The class number of a root. -/
def EqRel.classOf (e : EqRel) (root : Nat) : Option Nat := e.classes.findIdx? (· = root)

/-- The number of destination elements. -/
def EqRel.count (e : EqRel) : Nat :=
  if e.fn < 2 then (e.roots.getD []).length else e.classes.length

/-- The bits of destination element i (R245); a class number without a class has no stated value. -/
def EqRel.value (e : EqRel) (free i : Nat) : Nat :=
  if e.fn = 0 then ((e.roots.getD [])[i]?).getD 0
  else if e.fn = 1 then
    (EqRel.classOf e (((e.roots.getD [])[i]?).getD 0)).getD (Config.freeWord free).toNat
  else
    let t := etType e.et
    let v := (AMap.get? e.acc i).getD 0
    if floatTy t then encodeF (fmtOf t) (decodeF (fmtOf t) v) else v

/-- The destination elements in a granule that are still to be written. -/
def EqRel.inGranule (e : EqRel) (g : Nat) : List Nat :=
  if e.done.contains g then []
  else (List.range (EqRel.count e)).filter fun i => (End.addr e.dst + i * EqRel.es e) / 32 = g

/-- Whether every destination element is written. -/
def EqRel.written (e : EqRel) : Bool :=
  (List.range (EqRel.count e)).all fun i => e.done.contains ((End.addr e.dst + i * EqRel.es e) / 32)

/-- EQREL takes its place in the linear order (R245, R247): it reads the root of every element. A forest closed before
gives STATUS EQCLOSED, with the cause EQNOTOPEN in FAULT (DEDUCED, log 91). -/
def State.startEqrel (s : State) (w : Nat) (W : Warp) (r : Req) (c : CopyCmd) (e : EqRel) : State :=
  let closed := State.setCommand s w r { c with stop := .failed 0x13 (causeCode 6 0) 0 }
  match AMap.get? s.forests e.forest with
  | none => closed
  | some F =>
    if F.ctx ≠ State.asidOf s W ∨ F.serial ≠ e.serial then closed
    else match State.rootsFrom F s (List.range F.n) with
      | .error va =>
        State.forestMet (State.failCommand s w r c (va / 32 * 32)) e.forest F va
      | .ok (s, roots) =>
        let classes := (List.range F.n).filter fun i => roots[i]? = some i
        State.setCommand s w r { c with work := .eqrel { e with roots := some roots, classes := classes } }

/-- EQREL reads its next source element and combines it into its class (R245). -/
def State.readEqrel (s : State) (w : Nat) (W : Warp) (r : Req) (c : CopyCmd) (e : EqRel) : State :=
  match State.readEnd s w W r.id (End.add e.src (e.pos * EqRel.es e)) (EqRel.es e) with
  | .error f => State.stopCommand s w W r c f
  | .ok (s, v) =>
    let acc := match EqRel.classOf e (((e.roots.getD [])[e.pos]?).getD 0) with
      | none => e.acc
      | some k => AMap.set e.acc k (match AMap.get? e.acc k with
        | none => v
        | some x => combine (etType e.et) (e.fn - 2) x v)
    State.setCommand s w r { c with work := .eqrel { e with pos := e.pos + 1, acc := acc } }

/-- Destination element i written where it lies (R245): undefined where a reduction's ranges overlap, and
where a class number has no stated value. -/
def State.putEqrel (s : State) (w : Nat) (W : Warp) (id : Nat) (e : EqRel) (p : Where) (i : Nat) : State :=
  let es := EqRel.es e
  let t := { s with freeCount := s.freeCount + 1 }
  if 2 ≤ e.fn && State.rangeMeets s W e.src ((e.roots.getD []).length * es) p es then
    let (s, u) := State.freeBytes s es
    State.writeWhere s w p es u
  else State.store t w W id p es (EqRel.value e s.freeCount i)

/-- EQREL writes the destination elements of a granule (R174, R247). -/
def State.writeEqrel (s : State) (w : Nat) (W : Warp) (r : Req) (c : CopyCmd) (e : EqRel) (g : Nat) :
    State :=
  let is := EqRel.inGranule e g
  let es := EqRel.es e
  match is.mapM fun i => State.target s W (End.add e.dst (i * es)) with
  | .error f => State.stopCommand s w W r c f
  | .ok ps =>
    let s := match ps with
      | p :: _ => p.1
      | [] => s
    let s := (ps.zip is).foldl (fun s x => State.putEqrel s w W r.id e x.1.2 x.2) s
    State.setCommand s w r
      { c with work := .eqrel { e with done := e.done ++ [g], bytes := e.bytes + is.length * es } }

/-- The source element that an EQREL reads next. -/
def EqRel.reads (s : State) (W : Warp) (e : EqRel) : List (Where × Nat × Bool) :=
  (State.peek s W (End.add e.src (e.pos * EqRel.es e))).toList.map fun p => (p, EqRel.es e, false)

/-- The destination elements that an EQREL writes in a granule. -/
def EqRel.writes (s : State) (W : Warp) (e : EqRel) (g : Nat) : List (Where × Nat × Bool) :=
  (EqRel.inGranule e g).flatMap fun i =>
    (State.peek s W (End.add e.dst (i * EqRel.es e))).toList.map fun p => (p, EqRel.es e, true)

/-- EQREL_RUN: the home engine takes an EQREL's place in the linear order, reads its next source
element, writes its elements in destination granule `g`, or completes it (R245 to R247). -/
def execEqrelRun (w id g : Nat) (s : State) : Out State :=
  match State.warp? s w with
  | none => .next s
  | some W =>
    match Warp.req? W id with
    | none => .next s
    | some r =>
      match if State.resident s W then Req.command? r else none with
      | none => .next s
      | some c =>
        match c.stop, c.work with
        | .failed status cause faddr, .eqrel _ =>
          .next (State.completeCommand s w W r c status cause faddr)
        | .running, .eqrel e =>
          match e.roots with
          | none => .next (if State.servable s w W r false then
              State.startEqrel (State.passOwn s e.forest) w W r c e else s)
          | some roots =>
            if 2 ≤ e.fn ∧ e.pos < roots.length then
              .next (if State.cpBlocked s w W id (EqRel.reads s W e) then s
                else State.readEqrel s w W r c e)
            else if EqRel.written e then .next (State.completeCommand s w W r c 1 0 0)
            else if (EqRel.inGranule e g).isEmpty || State.cpBlocked s w W id (EqRel.writes s W e g) then
              .next s
            else .next (State.writeEqrel s w W r c e g)
        | _, _ => .next s

end Sys2Proof.Machine
end

