-- ==== Sys2Proof/Machine/Sampling.lean ====
section
/-! DEFINITION. TEMPC, MASKWAIT, TOKSEND and the token inbox (R270 to R277). -/
namespace Sys2Proof.Machine

/-- Mode and factor of a temperature (R270). -/
def tempClass (b : Nat) : Nat × Nat :=
  match decodeF Fmt.f32 b with
  | .nan => (3, 0x7FC00000)
  | .zero _ => (1, 0x7F800000)
  | .inf true => (3, 0x7FC00000)
  | .inf false => (2, 0)
  | .fin true _ _ => (3, 0x7FC00000)
  | .fin false n d =>
    if n * 2 ^ 14 < d then (1, 0x7F800000) else (0, roundEnc Fmt.f32 .rne (.fin false d n))

/-- TEMPC (R270). -/
def execTempc (d a : Nat) (s : State) : Out State :=
  withFrag s fun c =>
    let (mode, f) := tempClass (Ctx.num c a)
    .next (Ctx.advance c 1 (Ctx.on c s fun W => Warp.setGroup W d [word mode, word f]))

/-! ### MASKWAIT (R275) -/

/-- MASKWAIT's test of the TAG at x, now; `last` when its cycles have reached the timeout. -/
def Ctx.maskwait (c : Ctx) (s : State) (d x : Nat) (want : Word) (last : Bool) : Out State :=
  let (s, v) := State.load s c.w c.warp c.warp.nextReq (.chip (State.placeOf s c.warp .scratch x)) 4
  if word v = want then Ctx.answer c d 0 s
  else if last then Ctx.answer c d 1 s
  else Ctx.wait c (.maskwait d x want) s

/-- MASKWAIT (R275): a timeout of 0 tests once. -/
def execMaskwait (d a b : Nat) (s : State) : Out State :=
  withFrag s fun c =>
    let x := Ctx.num c a
    if x % 64 ≠ 0 then Ctx.trap c s (causeCode 3 5) (dword x)
    else match State.chipRange s c.warp .scratch x 64 with
      | some cause => Ctx.trap c s cause (dword x)
      | none => Ctx.maskwait c s d x (Warp.s c.warp d) (Ctx.num c b = 0)

/-- MASKWAIT_TIMEOUT: a waiting MASKWAIT's cycles reach its timeout, and it tests once more (R275), where its
wait may end. -/
def execMaskwaitTimeout (w slot : Nat) (s : State) : Out State :=
  match State.fragCtx? s w slot with
  | none => .next s
  | some c =>
    match c.frag.wait with
    | .maskwait d x want =>
      if State.active s c.warp && Ctx.mayGoOn c then Ctx.maskwait c s d x want true else .next s
    | _ => .next s

/-! ### TOKSEND and the inbox (R276, R277) -/

/-- TOKSEND (R277): one request on FB; the fragment waits for the reply. DESIGN CHOICE: log 119, for the
fields of the packet. -/
def execToksend (d a b : Nat) (s : State) : Out State :=
  withFrag s fun c =>
    if c.warp.idem then Ctx.trap0 c s 8 0
    else
      let w := Ctx.num c b
      let peer := bits w 24 16
      if bits w 31 25 ≠ 0 ∨ bits w 15 8 ≠ 0 then Ctx.trap c s (causeCode 8 1) (dword w)
      else if !Warp.room c.warp .fb 1 then Ctx.wait c (.room .fb) s
      else
        let s := Ctx.on c s fun W => Warp.ask W
          { id := 0, path := .fb, op := .toksend d peer (bits w 7 0) (Warp.s c.warp a) none,
            todo := [], land := [], done := false, run := none, token := 0, lev := c.warp.tlev }
        let s := if State.isSelf s peer then s
          else State.post s (State.stamp s c.warp
            { kind := 5, dst := peer, win := bits w 7 0, bytes := 4, data := [bits w 7 0, Ctx.num c a],
              owner := some (c.w, c.warp.nextReq) })
        Ctx.wait c (.mem c.warp.nextReq) s

/-- A scratchpad region replaced in part: the low `n` bytes of a number at an offset. -/
def State.writeScratch (s : State) (grid die off n v : Nat) : State :=
  State.writePlace s 0 (.scratch grid die off) n v

/-- The inbox serves a message for a stream from a device (R276, R277): the status, and the record
written; WSEQ is then still due, and after it the reply to a peer. -/
def State.serveToken (s : State) (stream src : Nat) (token : Word) (reply : Option PktHdr) (warp : Option Nat) :
    State × Nat :=
  match AMap.get? s.streams stream with
  | none => (s, 2)
  | some t =>
    if !t.peers.testBit src then (s, 2)
    else
      let (s, rseq) := State.deliver s 0 (.chip (.scratch t.grid 0 t.off)) 4
      if 64 < (t.wseq + 1 + 2 ^ 32 - rseq) % 2 ^ 32 then (s, 1)
      else
        let q := (t.wseq + 1) % 2 ^ 32
        let s := State.writeScratch s t.grid 0 (t.off + 64 + 8 * (q % 64)) 8 (token.toNat * 2 ^ 32 + q)
        ({ s with streams := AMap.set s.streams stream { t with wseq := q, due := true, reply := reply,
                                                                   warp := warp } }, 0)

/-- Whether a record is written whose WSEQ is not: the inbox serves one message at a time (R277). -/
def State.inboxBusy (s : State) : Bool := s.streams.any fun e => e.2.due

/-- Whether an earlier TOKSEND of a warp to the same stream of the same device has still to be served
(R277). -/
def State.tokenWaits (s : State) (W : Warp) (id peer stream : Nat) : Bool :=
  W.reqs.any fun q => q.id < id && match q.op with
    | .toksend _ p t _ none => (p = peer || (State.isSelf s p && State.isSelf s peer)) && t = stream && !q.done
    | _ => false

/-- A request of the warp with its TOKSEND served. -/
def Req.served (r : Req) (st : Nat) : Req :=
  match r.op with
  | .toksend d p t v _ => { r with op := .toksend d p t v (some st) }
  | _ => r

/-- A token reply sent to a peer, with JOB, QUEUE and RCNT of the message. DESIGN CHOICE: logs 96 and
119, for the fields of the packet. -/
def State.tokenAnswer (s : State) (h : PktHdr) (stream st : Nat) : State :=
  State.post s { kind := 6, reply := true, dst := h.src, win := stream, data := [stream, st], job := h.job, queue := h.queue,
                 rcnt := h.rcnt }

/-- TOKEN_INBOX_WRITE: the inbox serves a message, or writes the WSEQ that is due and replies (R276, R277).
A peer's packet from before a reset notice never reaches it (R306). DESIGN CHOICE: log 118, for a stream
bound again or unbound before its WSEQ. -/
def execTokenInboxWrite (msg : TokenMsg) (s : State) : Out State :=
  match msg with
  | .own w id =>
    match (State.warp? s w).bind fun W => (Warp.req? W id).map fun r => (W, r) with
    | none => .next s
    | some (W, r) =>
      match r.op with
      | .toksend _ peer stream token none =>
        if !State.isSelf s peer || State.tokenWaits s W id peer stream || State.inboxBusy s then .next s
        else
          let (s, st) := State.serveToken s stream s.fabid token none (some w)
          .next (State.onWarp s w fun W => Warp.setReq W (Req.served r st))
      | _ => .next s
  | .peer h stream token =>
    if State.inboxBusy s then .next s
    else .next (State.receive s h 5 fun s =>
      let (s, st) := State.serveToken s stream h.src token (some h) none
      if st = 0 then s else State.tokenAnswer s h stream st)
  | .wseq stream =>
    match AMap.get? s.streams stream with
    | none => .next s
    | some t =>
      if t.due then
        let s := State.writeScratch s t.grid 0 (t.off + 4) 4 t.wseq
        let s := { s with streams := AMap.set s.streams stream { t with due := false, reply := none, warp := none } }
        .next (match t.reply with
          | some h => State.tokenAnswer s h stream 0
          | none => s)
      else .next s

/-- TOKEN_REPLY: the inbox's reply reaches the sender (R277), once the message's WSEQ has been written; from
another device it brings the status. 7 is the negative response
UNREACH, given exactly where no live path to the peer remains (R288): its value in the register is not stated.
DESIGN CHOICE: log 96. -/
def execTokenReply (w id : Nat) (status : Nat) (s : State) : Out State :=
  match (State.warp? s w).bind fun W => (Warp.req? W id).map fun r => (W, r) with
  | none => .next s
  | some (W, r) =>
    match r.op with
    | .toksend d peer stream _ st =>
      let due := ((AMap.get? s.streams stream).elim false (·.due))
      let (s, answer) :=
        if r.done then (s, none)
        else if State.isSelf s peer then (s, if due then none else st)
        else if State.tokenWaits s W id peer stream then (s, none)
        else if !State.reachable s peer then
          if status = 7 then
            let (s, v) := State.free s
            (s, some v.toNat)
          else (s, none)
        else (s, if status < 3 then some status else none)
      match answer with
      | none => .next s
      | some v =>
        .next (State.release (State.onWarp s w fun W =>
          Warp.setReq (Warp.landS W (.req r.id) d (word v)) { Req.served r v with done := true }))
    | _ => .next s

end Sys2Proof.Machine
end

