-- ==== Sys2Proof/Machine/Fabric.lean ====
section
/-! DEFINITION. The fabric: FAX and the home's service, windows, multicast, and the fabric's own
events (R287 to R307). -/
namespace Sys2Proof.Machine

/-! ### FAX at the warp (R294, R295) -/

/-- Whether an idempotent team may not issue it (R295). -/
def FaxOp.once : FaxOp → Bool
  | .unite _ => true
  | .atomic _ _ _ => true
  | _ => false

/-- A list cut into parts of at most n, with fuel. -/
def chunks (n : Nat) : Nat → List Nat → List (List Nat)
  | 0, _ => []
  | f + 1, l => if l.isEmpty then [] else l.take n :: chunks n f (l.drop n)

/-- A number put into a strictly rising list; one that is there stays once. -/
def insertRising (p : Nat) : List Nat → List Nat
  | [] => [p]
  | q :: qs => if p < q then p :: q :: qs else if p = q then q :: qs else q :: insertRising p qs

/-- The packets of a pass (R289): lanes by 256-byte block, split where their data exceeds four flits. -/
def faxPackets (op : FaxOp) (items : List LaneItem) : List (List Nat) :=
  let block (it : LaneItem) : Nat := if FaxOp.onForest op then 0 else it.addr.toNat / 256
  let blocks := (items.map block).eraseDups
  blocks.flatMap fun b =>
    chunks (256 / FaxOp.payload op) 32 ((items.filter fun it => block it = b).map (·.lane))

/-- Whether a peer word has a reserved bit set (R287). -/
def peerBad (p : Nat) : Bool := bits p 15 9 ≠ 0 || bits p 31 24 ≠ 0

/-- A FAX instruction (R294, R295): the checks, each over every lane that takes part; then one pass for
each distinct peer word, in ascending order. -/
def laneFax (o : LaneOp) (s : State) (op : FaxOp) (x y : LaneCtx → Nat → Nat) : Out State :=
  withRun s fun c =>
    let ls := LaneCtx.partLanes c o
    let peer (L : Nat) : Nat := LaneCtx.src c o .b32 o.a L
    let off (L : Nat) : Nat := LaneCtx.src c o .b32 o.b L
    let badPeer := ls.filter fun L => peerBad (peer L)
    let badOff := ls.filter fun L => !FaxOp.onForest op && off L % FaxOp.size op ≠ 0
    if !badPeer.isEmpty then
      LaneCtx.trap c s (causeCode 9 1) (maskOfList badPeer) (dword (LaneCtx.index c))
    else if !badOff.isEmpty then
      LaneCtx.trap c s (causeCode 3 5) (maskOfList badOff) (dword (off (badOff.headD 0)))
    else if FaxOp.once op && c.warp.idem && !ls.isEmpty then
      LaneCtx.trap c s (causeCode 9 5) (maskOfList ls) (dword (LaneCtx.index c))
    else
      let peers := (ls.map peer).foldr insertRising []
      LaneCtx.ask c o s (peers.map fun p =>
        let items := (ls.filter fun L => peer L = p).map fun L =>
          (⟨L, dword (off L), dword (x c L), dword (y c L), []⟩ : LaneItem)
        LaneCtx.request c .fb (.fax (bits p 8 0) (bits p 23 16) op (faxPackets op items) []) items [])

/-- FAX .ld (R294). -/
def execFaxLd (o : LaneOp) (s : State) : Out State :=
  laneFax o s (.ld o.ty o.d) (fun _ _ => 0) (fun _ _ => 0)
/-- FAX .ldg (R294). -/
def execFaxLdg (o : LaneOp) (s : State) : Out State :=
  laneFax o s (.ldg o.d) (fun _ _ => 0) (fun _ _ => 0)
/-- FAX .st (R294). -/
def execFaxSt (o : LaneOp) (s : State) : Out State :=
  laneFax o s (.st (tyBytes o.ty)) (fun c L => LaneCtx.c c o L) (fun _ _ => 0)
/-- FAX .unite (R294). -/
def execFaxUnite (o : LaneOp) (s : State) : Out State :=
  laneFax o s (.unite o.d) (fun c L => LaneCtx.c c o L) (fun _ _ => 0)
/-- FAX .find (R294). -/
def execFaxFind (o : LaneOp) (s : State) : Out State :=
  laneFax o s (.find o.d) (fun _ _ => 0) (fun _ _ => 0)
/-- The FAX atomics (R294): fn 8 to 15 are the operations of R157 in their order. -/
def execFaxAtomic (o : LaneOp) (s : State) : Out State :=
  laneFax o s (.atomic (atomOfFn (o.fn - 8)) o.ty (if o.nw then none else some o.d))
    (fun c L => LaneCtx.c c o L) (fun c L => casNew c o L)

/-! ### Answers (R297) -/

/-- A lane of a FAX answered: its result lands later, or its reason is noted (R297). -/
def Req.answer (r : Req) (lane reason : Nat) (ws : List Word) : Req :=
  match r.op with
  | .fax peer win op pkts neg =>
    if r.todo.any fun it => it.lane = lane then
      let r := { r with todo := r.todo.filter fun it => it.lane ≠ lane }
      if reason = 0 then
        { r with land := r.land ++ ((FaxOp.dests op).zip ws).map fun x => .vreg lane x.1 x.2 }
      else { r with op := .fax peer win op pkts (neg ++ [(lane, reason)]) }
    else r
  | _ => r

/-- A device number inserted in a list of negatives by ascending device. -/
def insertNeg (x : Nat × Nat) : List (Nat × Nat) → List (Nat × Nat)
  | [] => [x]
  | y :: ys => if x.1 < y.1 then x :: y :: ys else y :: insertNeg x ys

/-- A member of a multicast answered (R301); the last answer completes the record and its request. -/
def State.answerMember (s : State) (w rec dev reason : Nat) : State :=
  State.onWarp s w fun W =>
    match AMap.get? W.mrecs rec with
    | none => W
    | some m =>
      if m.done || !m.left.contains dev then W
      else
        let m := { m with left := m.left.filter (· ≠ dev) }
        let m := if reason = 0 then { m with pos := m.pos + 1 }
          else { m with neg := insertNeg (dev, reason) m.neg }
        let m := { m with done := m.left.isEmpty }
        let W := { W with mrecs := AMap.set W.mrecs rec m }
        match m.done, Warp.req? W m.req with
        | true, some r => Warp.setReq W { r with done := true }
        | _, _ => W

/-- What a home answers to a packet that is finished: a warp's own request at once; a peer by a response
packet for each outcome of its lanes, a line's sender by one that names the group (R289, R301), with JOB, QUEUE and RCNT
of what they answer. DESIGN CHOICE: log 96. -/
def State.respond (s : State) (h : Home) : State :=
  match h.src with
  | .own _ _ => s
  | .ownLine w rec =>
    State.answerMember s w rec s.fabid ((h.answers.find? fun a => a.2.1 ≠ 0).elim 0 (·.2.1))
  | .peer src queue rcnt =>
    ((h.answers.map (·.2.1)).eraseDups).foldl (fun s reason =>
      let lanes := h.answers.filter fun a => a.2.1 = reason
      State.post s
        { kind := 2, reply := true, dst := src, win := h.win, lanes := lanes.map (·.1), job := h.job, queue := queue, rcnt := rcnt,
          bytes := (lanes.map fun a => 4 * a.2.2.length).sum,
          data := h.win :: reason :: lanes.flatMap fun a => a.1 :: a.2.2.map BitVec.toNat }) s
  | .peerLine src queue rcnt group =>
    State.post s
      { kind := 4, reply := true, dst := src, win := group, job := h.job, queue := queue, rcnt := rcnt,
        data := [group, (h.answers.find? fun a => a.2.1 ≠ 0).elim 0 (·.2.1)] }

/-- A home's packet after a lane has been answered: kept while lanes remain, else answered whole. -/
def State.putHome (s : State) (h : Home) (lane reason : Nat) (ws : List Word) : State :=
  let h := { h with todo := h.todo.filter fun t => t.1 ≠ lane, answers := h.answers ++ [(lane, reason, ws)] }
  let s := match h.src with
    | .own w id => State.onWarp s w fun W =>
        match Warp.req? W id with
        | some r => Warp.setReq W (let r := Req.answer r lane reason ws
            { r with done := r.todo.isEmpty && r.land.isEmpty })
        | none => W
    | _ => s
  if h.todo.isEmpty then State.respond { s with homes := s.homes.filter fun g => g.id ≠ h.id } h
  else { s with homes := s.homes.map fun g => if g.id = h.id then h else g }

/-! ### The home (R290, R296, R298) -/

/-- The check of an access of `n` bytes through a window (R291, R296): the reason, but for UNCORR. -/
def Window.check (e : Window) (job : Nat) (op : FaxOp) (off n : Nat) (refuse : Bool) : Nat :=
  if !e.valid then (if e.past.contains job then 1 else 2)
  else if e.job ≠ job then 2
  else if e.revoking && refuse then 1
  else if e.kind ≠ (if FaxOp.onForest op then 1 else 0) then 6
  else if !FaxOp.onForest op && (e.lenm1 + 1) * 2 ^ 16 < off + n then 3
  else if e.ro && !FaxOp.loads op then 4
  else 0

/-- The agent that translates at a home: a fabric port (R328). DEDUCED: log 43. -/
def homeAgent : Agent := .port 0

/-- Where a lane's bytes lie; none while the page is not mapped, though the window pins it (R290). -/
def State.homePlace (s : State) (e : Window) (op : FaxOp) (off : Nat) : Option (State × Nat) :=
  match State.translate s homeAgent e.asid (e.base + off) (if FaxOp.loads op then .read else .write) with
  | .ok r => some r
  | .error _ => none

/-- A lane's access meets an uncorrectable granule at the home, which counts and logs it (R358). -/
def State.homeMet (s : State) (win : Nat) (op : FaxOp) (off : Nat) : State :=
  match State.homePlace s (State.window s win) op off with
  | some p => State.countMain s p.2
  | none => s

/-- Every lane of a packet checked, before any is performed (R296): its reason. -/
def State.checkLanes (s : State) (win job : Nat) (op : FaxOp) (refuse : Bool) :
    List (Nat × Nat × Nat × Nat) → Option (List ((Nat × Nat × Nat × Nat) × Nat))
  | [] => some []
  | t :: ts =>
    let e := State.window s win
    let off := t.2.1
    let first := Window.check e job op off (FaxOp.size op) refuse
    let reason := if first ≠ 0 || FaxOp.onForest op then some first
      else (State.homePlace s e op off).map fun p =>
        if Memory.uncorrectable p.1.main p.2 (FaxOp.size op) then 5 else 0
    match reason, State.checkLanes s win job op refuse ts with
    | some r, some rs => some ((t, r) :: rs)
    | _, _ => none

/-- Whether a home takes another packet from a source (R298): not while more than 512 atomics of other sources wait, or
this one could not be performed in time. DESIGN CHOICE: log 96. -/
def State.mayAccept (s : State) (src : HomeSrc) (op : FaxOp) : Bool :=
  !FaxOp.isAtomic op || ((s.homes.filter fun g => FaxOp.isAtomic g.op && !HomeSrc.same g.src src).map
    fun g => g.todo.length).sum ≤ 512

/-- A packet accepted by the home: every lane is checked; the lanes that fail are answered, the others
wait to be performed. -/
def State.acceptPacket (s : State) (src : HomeSrc) (win job : Nat) (op : FaxOp) (refuse : Bool)
    (lanes : List (Nat × Nat × Nat × Nat)) : State :=
  match State.checkLanes s win job op refuse lanes with
  | none => s
  | some rs =>
    let h : Home :=
      { id := s.freeCount, src := src, job := job, win := win, op := op, todo := lanes, answers := [], off := 0,
        passed := 0 }
    let s := { s with freeCount := s.freeCount + 1, homes := s.homes ++ [h] }
    rs.foldl (fun s r =>
      let s := if r.2 = 5 then State.homeMet s win op r.1.2.1 else s
      if r.2 = 0 then s
      else match s.homes.find? fun g => g.id = h.id with
        | some h => State.putHome s h r.1.1 r.2 []
        | none => s) s

/-- The warp and the request of this device that a packet or a line belongs to. -/
def State.homeOwner (s : State) (src : HomeSrc) : Option (Nat × Warp × Nat) :=
  match src with
  | .own w id => (State.warp? s w).map fun W => (w, W, id)
  | .ownLine w rec => (State.warp? s w).bind fun W => (AMap.get? W.mrecs rec).map fun m => (w, W, m.req)
  | .peer _ _ _ => none
  | .peerLine _ _ _ _ => none

/-- `n` bytes that a packet reads at a home: an owner's request does not see the bytes of its uncovered matrix operations
(R33, R204). -/
def State.homeRead (s : State) (src : HomeSrc) (pa n : Nat) : State × Nat :=
  match State.homeOwner s src with
  | some (w, W, id) => State.load s w W id (.main pa) n
  | none => State.readMain s pa n

/-- `n` bytes that a packet writes at a home. -/
def State.homeWrite (s : State) (src : HomeSrc) (pa n v : Nat) : State :=
  match State.homeOwner s src with
  | some (w, W, id) => State.store s w W id (.main pa) n v
  | none => State.putMain s pa n v

/-- What performing a lane's access of an accepted packet gives: the state and the words of the result (R294, R298).
DEDUCED: log 39. -/
def State.performHome (s : State) (h : Home) (t : Nat × Nat × Nat × Nat) : Option (State × List Word) :=
  let (_, off, x, y) := t
  let e := State.window s h.win
  let op := h.op
  let ws (n v : Nat) : List Word := (List.range (n / 4)).map fun k => word (v / 2 ^ (32 * k))
  match op with
  | .unite _ =>
    let (s, a) := State.serveUnite s e.forest e.asid off x
    some (s, [word a.root, word a.status])
  | .find _ =>
    let (s, a) := State.serveFind s e.forest e.asid off
    some (s, [word a.root])
  | .ld t _ => (State.homePlace s e op off).map fun (s, pa) =>
      let (s, v) := State.homeRead s h.src pa (tyBytes t)
      (s, ws (tyBytes t) v)
  | .ldg _ => (State.homePlace s e op off).map fun (s, pa) =>
      let (s, v) := State.homeRead s h.src pa 32
      (s, ws 32 v)
  | .st n => (State.homePlace s e op off).map fun (s, pa) =>
      (State.homeWrite s h.src pa n x, [])
  | .atomic a t _ => (State.homePlace s e op off).map fun (s, pa) =>
      let (s, old) := State.homeRead s h.src pa (tyBytes t)
      (State.homeWrite s h.src pa (tyBytes t) (atomNew a t old x y), ws (tyBytes t) old)

/-- The atomics of other sources that have been accepted before a packet and not performed. -/
def State.atomicsBefore (s : State) (h : Home) : Nat :=
  ((s.homes.filter fun g => FaxOp.isAtomic g.op && g.id < h.id && !HomeSrc.same g.src h.src).map
    fun g => g.todo.length).sum

/-- Whether a lane of an accepted packet may be performed now: it is free, and it passes over no packet that has been
passed over as often as R239 or R298 allows. An atomic of a packet may have 512 further ones of other sources served before
it, those that it was accepted behind among them. DESIGN CHOICE: log 96. -/
def State.homeReady (s : State) (h : Home) (t : Nat × Nat × Nat × Nat) : Bool :=
  State.homeFree s h t &&
    (match State.homeForest s h with
      | some f => State.forestTurn s f fun g => g.id < h.id
      | none => true) &&
    !(FaxOp.isAtomic h.op && s.homes.any fun g => FaxOp.isAtomic g.op && g.id < h.id &&
      !HomeSrc.same g.src h.src && 512 ≤ g.passed + State.atomicsBefore s g)

/-- A lane of a packet is served: what it has been served past is counted (R239, R298). -/
def State.passHomes (s : State) (h : Home) : State :=
  match State.homeForest s h with
  | some f => State.passForest s f fun g => g.id < h.id
  | none =>
    if !FaxOp.isAtomic h.op then s
    else { s with homes := s.homes.map fun g =>
      if FaxOp.isAtomic g.op && !HomeSrc.same g.src h.src then { g with passed := g.passed + 1 } else g }

/-- Whether a byte that a lane reads or modifies has become uncorrectable since its packet was accepted
(R296); a line's granules, of 32 bytes each, are written whole. -/
def State.homeBad (s : State) (h : Home) (off : Nat) : Bool :=
  h.op ≠ .st 32 && !FaxOp.onForest h.op &&
    match State.homePlace s (State.window s h.win) h.op off with
    | some (s, pa) => Memory.uncorrectable s.main pa (FaxOp.size h.op)
    | none => false

/-- The next lane of an accepted packet performed. -/
def State.serveHome (s : State) (home lane : Nat) : State :=
  match s.homes.find? fun h => h.id = home with
  | none => s
  | some h =>
    match h.todo.find? fun t => t.1 = lane with
    | none => s
    | some t =>
      if !State.homeReady s h t then s
      else if State.homeBad s h t.2.1 then State.putHome (State.homeMet s h.win h.op t.2.1) h lane 5 []
      else match State.performHome s h t with
        | none => s
        | some (s, ws) => State.passHomes (State.putHome s h lane 0 ws) h

/-- The sub-operation of a packet's fn and type (R65, R294); the registers are the sender's. -/
def faxOfFn (fn : Nat) (t : LaneTy) : FaxOp :=
  match fn with
  | 0 => .ld t 0
  | 1 => .ldg 0
  | 2 => .st (tyBytes t)
  | 3 => .unite 0
  | 4 => .find 0
  | _ => .atomic (atomOfFn (fn - 8)) t (some 0)

/-- FAX_HOME_SERVE: this device as a home (R296, R306). The packets of a warp's own requests that R239 and R298 order reach
it in that order. DESIGN CHOICE: log 37. -/
def execFaxHomeServe (pkt : FaxPkt) (s : State) : Out State :=
  match pkt with
  | .own w id k refuse =>
    match (State.warp? s w).bind fun W => (Warp.req? W id).map fun r => (W, r) with
    | none => .next s
    | some (W, r) =>
      match r.op with
      | .fax peer win op pkts _ =>
        if !State.isSelf s peer then .next s
        else
          let mine := (pkts[k]?).getD []
          let link (q lane : Nat) : Bool := s.homes.any fun h => h.src = .own w q && h.todo.any fun t => t.1 = lane
          let taken := mine.any (link id)
          let items := r.todo.filter fun it => mine.contains it.lane
          let early := items.any fun it =>
            (Warp.before W id it.lane it.addr.toNat (FaxOp.onForest op)).any fun x =>
              !(link x.1 x.2 || (x.1 = id && mine.contains x.2))
          if taken || early || items.isEmpty || !State.mayAccept s (.own w id) op then .next s
          else .next (State.acceptPacket s (.own w id) win (State.jobOf s (State.asidOf s W)) op refuse
            (items.map fun it => (it.lane, it.addr.toNat, it.x.toNat, it.y.toNat)))
      | _ => .next s
  | .peer p refuse =>
    let src := HomeSrc.peer p.h.src p.h.queue p.h.rcnt
    .next (State.receive s p.h 1 fun t =>
      if State.mayAccept s src (faxOfFn p.fn p.ty) then
        State.acceptPacket t src p.h.win p.h.job (faxOfFn p.fn p.ty) refuse p.lanes
      else s)
  | .lane home lane => .next (State.serveHome s home lane)

/-- FAX_RESPONSE: a response packet of another device arrives (R297); each lane is answered once. The response
is UNREACH exactly where no live path to the peer remains (R288). -/
def execFaxResponse (w id : Nat) (resp : FaxResp) (s : State) : Out State :=
  match (State.warp? s w).bind fun W => Warp.req? W id with
  | none => .next s
  | some r =>
    match r.op with
    | .fax peer _ _ _ _ =>
      if State.isSelf s peer || 8 < resp.reason ||
          decide (resp.reason = 7) == State.reachable s peer then .next s
      else
        let r := resp.lanes.foldl (fun r x => Req.answer r x.1 resp.reason x.2) r
        .next (State.release (State.onWarp s w fun W => Warp.setReq W
          { r with done := r.todo.isEmpty && r.land.isEmpty }))
    | _ => .next s

/-! ### Windows (R290 to R292) -/

/-- The window unit's command under way, if its code is `code`. -/
def State.winCommand (s : State) (code : Nat) : Option Nat :=
  s.winRegs.pending.bind fun x => if x % 256 = code then some (bits x 15 8) else none

/-- A window command ends with a status. -/
def State.winDone (s : State) (status : Nat) : State :=
  { s with winRegs := { s.winRegs with pending := none, res := status } }

/-- WRITE_WINDOW: a peer window entry is written (R290, R292). DEDUCED: log 41. -/
def execWriteWindow (s : State) : Out State :=
  match State.winCommand s 1 with
  | none => .next s
  | some n =>
    let x := s.winRegs.arg1 * 2 ^ 64 + s.winRegs.arg0
    let old := State.window s n
    let base := bits x 127 64
    if base % 2 ^ 16 ≠ 0 ∨ 2 ^ 57 ≤ base ∨ 1 < bits x 3 2 then .next (State.winDone s 1)
    else if old.valid then .next (State.winDone s 2)
    else
      let job := bits x 31 16
      let valid := bits x 0 0 = 1
      let e : Window :=
        { base := base, lenm1 := bits x 63 48, asid := bits x 47 32, job := job,
          forest := bits x 15 11, kind := bits x 3 2, ro := bits x 1 1 = 1, valid := valid,
          past := if valid then job :: old.past else old.past, revoking := false }
      .next (State.winDone { s with windows := AMap.set s.windows n e } 0)

/-- REVOKE: a window begins to be revoked (R291). -/
def execRevoke (s : State) : Out State :=
  match State.winCommand s 2 with
  | none => .next s
  | some n =>
    let e := State.window s n
    .next { s with windows := AMap.set s.windows n { e with revoking := true } }

/-- REVOKE_COMPLETE: every request accepted through the window has been performed (R291). -/
def execRevokeComplete (s : State) : Out State :=
  match State.winCommand s 2 with
  | none => .next s
  | some n =>
    let e := State.window s n
    if !e.revoking || s.homes.any fun h => h.win = n then .next s
    else
      let e := { e with revoking := false, valid := false }
      .next (State.winDone { s with windows := AMap.set s.windows n e } 0)

/-! ### Multicast (R299 to R302) -/

/-- Whether GRPPERM grants a context FGRP (R292). -/
def State.mayGroup (s : State) (asid : Nat) : Bool :=
  s.grpperm % 2 = 1 && bits s.grpperm 31 16 = asid

/-- FGRP of a mode (R299). -/
def fgrp (mode : Nat) (d a b : Nat) (s : State) : Out State :=
  withFrag s fun c =>
    let asid := State.asidOf s c.warp
    let n := Ctx.num c a
    let x := Ctx.num c b
    if !State.mayGroup s asid then Ctx.trap0 c s 9 3
    else if 256 ≤ n then Ctx.trap c s (causeCode 9 2) (dword n)
    else if x % 64 ≠ 0 then Ctx.trap c s (causeCode 3 5) (dword x)
    else match State.chipRange s c.warp .scratch x 64 with
      | some cause => Ctx.trap c s cause (dword x)
      | none =>
        let (s, m) := State.load s c.w c.warp c.warp.nextReq (.chip (State.placeOf s c.warp .scratch x)) 64
        if m.testBit 511 then Ctx.result c d 1 s
        else
          let job := State.jobOf s asid
          let G := State.group s job n
          let g := match mode with
            | 0 => m
            | 1 => G.entry ||| m
            | _ => G.entry &&& (2 ^ 512 - 1 - m)
          Ctx.wait c (.fgrp d job n g [])
            { s with groups := AMap.set s.groups (256 * job + n) { G with entry := g } }

/-- FGRP set (R299). -/
def execFgrpSet (d a b : Nat) (s : State) : Out State := fgrp 0 d a b s
/-- FGRP or (R299). -/
def execFgrpOr (d a b : Nat) (s : State) : Out State := fgrp 1 d a b s
/-- FGRP clear (R299). -/
def execFgrpClear (d a b : Nat) (s : State) : Out State := fgrp 2 d a b s

/-- GROUP_TABLE_UPDATE: a switch chip replaces its bitmap and acknowledges, or fails to; after the last
of the 32, FGRP completes (R299). DESIGN CHOICE: log 50. -/
def execGroupTableUpdate (w slot chip : Nat) (ack : Bool) (s : State) : Out State :=
  match State.fragCtx? s w slot with
  | none => .next s
  | some c =>
    match c.frag.wait with
    | .fgrp d job n g acks =>
      if 32 ≤ chip || acks.any fun a => a.1 = chip then .next s
      else
        let acks := acks ++ [(chip, ack)]
        let G := State.group s job n
        let old := (G.chips[chip]?).getD (0, true)
        let G := { G with chips := G.chips.set chip (if ack then (g, true) else (old.1, false)) }
        let s := { s with groups := AMap.set s.groups (256 * job + n) G }
        if acks.length < 32 then Ctx.wait c (.fgrp d job n g acks) s
        else Ctx.answer c d (if acks.all (·.2) then 0 else 2) s
    | _ => .next s

/-- The lowest-numbered free record of a warp (R300). -/
def Warp.freeRec (W : Warp) : Option Nat :=
  (List.range 8).find? fun r => (AMap.get? W.mrecs r).isNone

/-- The first uncorrectable granule of `n` bytes on chip at an offset. -/
def State.badLine (s : State) (w : Nat) (W : Warp) (sp : Space) (off n : Nat) : Option Nat :=
  ((List.range (n / 32)).map fun k => off + 32 * k).find? fun x =>
    State.badPlace s w (State.placeOf s W sp x) 32

/-- FMC once its operands have passed: it reads the line after the requests before `limit` (R300). -/
def Ctx.fmc (c : Ctx) (s : State) (d g src off len limit : Nat) : Out State :=
  let sp : Space := if bits src 31 28 = 0 then .shared else .scratch
  let x := bits src 27 0
  match Warp.freeRec c.warp with
  | none => Ctx.meets c s (causeCode 9 6) 0
  | some r =>
    if State.localPending s c.warp sp x len limit || !Warp.room c.warp .fb 1 then Ctx.wait c (.fmc d g src off len limit) s
    else match State.badLine s c.w c.warp sp x len with
      | some link => Ctx.meets c (State.metPlace s c.w (State.placeOf s c.warp sp link)) (causeCode 4 4) (dword link)
      | none =>
        let (s, line) := State.load s c.w c.warp c.warp.nextReq (.chip (State.placeOf s c.warp sp x)) len
        let m : MRec :=
          { req := c.warp.nextReq, job := State.jobOf s (State.asidOf s c.warp), group := bits g 7 0,
            win := bits g 15 8, off := off, len := len,
            line := line, chip := none, left := [], members := 0, pos := 0, neg := [], done := false }
        Ctx.answer c d (word r) (Ctx.on c s fun W =>
          Warp.issue { W with mrecs := AMap.set W.mrecs r m }
            { id := 0, path := .fb, op := .fmc r, todo := [], land := [], done := false, run := none,
              token := 0, lev := W.tlev })

/-- FMC (R300): `m` is the length in granules, minus 1. TVAL names the source address word whose check
failed (log 24). -/
def execFmc (d a b m : Nat) (s : State) : Out State :=
  withFrag s fun c =>
    let g := Ctx.num c a
    let src := Ctx.num c b
    let off := Ctx.num c (b + 1)
    let len := 32 * (m + 1)
    let x := bits src 27 0
    if 2 ^ 16 ≤ g then Ctx.trap c s (causeCode 9 2) (dword g)
    else if 1 < bits src 31 28 then Ctx.trap c s (causeCode 9 2) (dword src)
    else if x % 32 ≠ 0 then Ctx.trap c s (causeCode 3 5) (dword src)
    else if off % 32 ≠ 0 then Ctx.trap c s (causeCode 3 5) (dword off)
    else match State.chipRange s c.warp (if bits src 31 28 = 0 then .shared else .scratch) x len with
      | some cause => Ctx.trap c s cause (dword src)
      | none =>
        if (Warp.freeRec c.warp).isSome && !Warp.room c.warp .fb 1 then Ctx.wait c (.room .fb) s
        else Ctx.fmc c s d g src off len c.warp.nextReq

/-- A record of a warp by number. -/
def State.mrec? (s : State) (w rec : Nat) : Option MRec :=
  (State.warp? s w).bind fun W => AMap.get? W.mrecs rec

/-- The granules of a line as lanes: number, offset, 32 bytes. -/
def lineLanes (off len line : Nat) : List (Nat × Nat × Nat × Nat) :=
  (List.range (len / 32)).map fun k => (k, off + 32 * k, line / 2 ^ (256 * k) % 2 ^ 256, 0)

/-- A line sent to one member as unicast stores (R288, R301). The form of these stores is not stated: one request of fn 2
(.st) holds the line, a granule to each lane, with its offset counted in granules from the line's 256-byte block and
marked by the type code 31, which no lane type has. DESIGN CHOICE: log 105. -/
def State.unicast (s : State) (w : Nat) (W : Warp) (m : MRec) (dev : Nat) : State :=
  let lanes := lineLanes m.off m.len m.line
  State.post s { State.stamp s W
    { kind := 1, dst := dev, win := m.win, block := m.off / 256, lanes := lanes.map (·.1), bytes := m.len,
      owner := some (w, m.req),
      data := m.win :: 2 :: 31 :: lanes.flatMap fun t => [t.1, t.2.1, t.2.2.1, t.2.2.2] } with job := m.job }

/-- The members in `left`, but for this device, whose port to a chip is down, or all where no chip is reached: they get a
line as unicast stores (R301). -/
def State.cutMembers (s : State) (chip : Option Nat) (left : List Nat) : List Nat :=
  left.filter fun d => d ≠ s.fabid && !chip.any ((AMap.get? s.peers d).getD 0).testBit

/-- A record of a warp that holds the line of an FMC with the group, window and offset of `m`, issued before it and not
complete (R300). -/
def MRec.follows (m e : MRec) : Bool :=
  e.req < m.req && e.group = m.group && e.win = m.win && e.off = m.off && !e.done

/-- Whether a line waits to be sent behind an earlier one of its warp with the same group, window and offset, so that each
member gets them in issue order (R300): that one has not left for the chip that this one would take, or a member that has
still to answer it has been sent it in another way. -/
def State.lineHeld (s : State) (w : Nat) (W : Warp) (m : MRec) (chip : Option Nat) : Bool :=
  W.mrecs.any fun e => MRec.follows m e.2 &&
    (e.2.chip ≠ some (chip.getD 32) ||
      s.unsent.any (fun p => p.owner = some (w, e.2.req)) ||
      e.2.left.any fun d => d ≠ s.fabid && decide (d ∈ State.cutMembers s chip [d]) !=
        s.sent.any fun p => p.owner = some (w, e.2.req) && p.kind = 1 && p.dst = d)

/-- MULTICAST_REPLICATE: the line leaves for the switch chip that the hash of R288 chooses among those that hold the
group's last edit, and the chip replicates it to the members (R299, R301): the event takes place at that chip and at no
other. The members whose port to the chip is down, and where no path leads to such a chip those of the group's entry
(chip 32), get it as unicast stores. It waits behind earlier lines and packets (R288, R300). An empty group completes at
once. DESIGN CHOICE: log 96. -/
def execMulticastReplicate (w rec chip : Nat) (s : State) : Out State :=
  match State.warp? s w, State.mrec? s w rec with
  | some W, some m =>
    if m.done || m.chip.isSome then .next s
    else
      let line := { State.stamp s W
        { kind := 3, dst := 0, win := m.win, block := m.off / 256, bytes := m.len, owner := some (w, m.req),
          data := [m.group, m.win, m.off, m.line] } with job := m.job }
      let G := State.group s m.job m.group
      let found := State.portFor s line
      if chip ≠ found.getD 32 || State.held s line || State.lineHeld s w W m found then .next s else
      let g := match found with
        | some k => ((G.chips[k]?).getD (0, false)).1
        | none => G.entry
      let left := (List.range 511).filter g.testBit
      let m := { m with chip := some chip, left := left, members := left.length, done := left.isEmpty }
      let s := State.onWarp s w fun W =>
        let W := { W with mrecs := AMap.set W.mrecs rec m }
        match m.done, Warp.req? W m.req with
        | true, some r => Warp.setReq W { r with done := true }
        | _, _ => W
      let s := if found.isSome then State.post s line else s
      .next ((State.cutMembers s found left).foldl (fun s d => State.unicast s w W m d) s)
  | _, _ => .next s

/-- The first offset at which a line's place is uncorrectable, if any; none while a page is not mapped. -/
def State.lineBad (s : State) (e : Window) (off len : Nat) : Option (Option Nat) :=
  ((List.range (len / 32)).mapM fun k => (State.homePlace s e (.st 32) (off + 32 * k)).map fun p =>
    (off + 32 * k, Memory.uncorrectable p.1.main p.2 32)).map fun bs => (bs.find? (·.2)).map (·.1)

/-- A line accepted by this device as a member, under the checks of R296 applied to the whole line: it stores
every granule or nothing (R301). -/
def State.acceptLine (s : State) (src : HomeSrc) (win job off len line : Nat) (refuse : Bool) : State :=
  let e := State.window s win
  let h : Home :=
    { id := s.freeCount, src := src, job := job, win := win, op := .st 32, todo := lineLanes off len line,
      answers := [], off := off, passed := 0 }
  let fail (reason : Nat) : Home := { h with answers := h.todo.map fun t => (t.1, reason, []) }
  let first := Window.check e job (.st 32) off len refuse
  if first ≠ 0 then State.respond s (fail first)
  else match State.lineBad s e off len with
    | none => s
    | some (some x) => State.respond (State.homeMet s win (.st 32) x) (fail 5)
    | some none => { s with freeCount := s.freeCount + 1, homes := s.homes ++ [h] }

/-- Bytes as a number, the first lowest. -/
def numOfBytes : List Byte → Nat
  | [] => 0
  | b :: bs => b.toNat + 256 * numOfBytes bs

/-- Whether an earlier FMC of the warp with the same group, window and offset has still to be performed
at this device (R300). -/
def Warp.lineWaits (W : Warp) (m : MRec) (dev : Nat) : Bool :=
  W.mrecs.any fun e => MRec.follows m e.2 && (e.2.chip.isNone || e.2.left.contains dev)

/-- MULTICAST_LINE_SERVE: this device as a member serves a line (R301). -/
def execMulticastLineServe (line : McLine) (s : State) : Out State :=
  match line with
  | .own w rec refuse =>
    match State.mrec? s w rec, State.warp? s w with
    | some m, some W =>
      if !m.left.contains s.fabid || Warp.lineWaits W m s.fabid ||
          s.homes.any fun h => h.src = .ownLine w rec then .next s
      else .next (State.acceptLine s (.ownLine w rec) m.win m.job m.off m.len m.line refuse)
    | _, _ => .next s
  | .peer h win off bytes refuse =>
    .next (State.receive s h 3 fun s =>
      State.acceptLine s (.peerLine h.src h.queue h.rcnt h.win) win h.job off bytes.length
        (numOfBytes bytes) refuse)
  | .unicast h off bytes refuse =>
    .next (State.receive s h 1 fun s =>
      State.acceptLine s (.peer h.src h.queue h.rcnt) h.win h.job off bytes.length (numOfBytes bytes) refuse)
  | .granule home g => .next (State.serveHome s home g)

/-- MULTICAST_AGGREGATE: the answer of another member reaches the record (R301). A number that no device holds has
no ports up: the answer is UNREACH exactly where no live path to the member remains. -/
def execMulticastAggregate (w rec dev reason : Nat) (s : State) : Out State :=
  if dev = s.fabid || 8 < reason || decide (reason = 7) == State.reachable s dev then .next s
  else .next (State.release (State.answerMember s w rec dev reason))

/-- A negative entry of a record's list; zero beyond it (R302). -/
def MRec.entry (m : MRec) (k : Nat) : Word :=
  match (m.neg.take 8)[k]? with
  | some (dev, reason) => word (reason * 2 ^ 16 + dev)
  | none => 0

/-- A page of a record (R302). -/
def MRec.page (m : MRec) (p : Nat) : List Word :=
  if p = 1 then (List.range 4).map (MRec.entry m)
  else if p = 2 then (List.range 4).map fun k => MRec.entry m (k + 4)
  else [word m.pos, word (Min.min m.neg.length 8), word (m.neg.length - 8),
        word (m.group * 2 ^ 16 + m.members)]

/-- FACK (R302). -/
def execFack (d a page : Nat) (s : State) : Out State :=
  withFrag s fun c =>
    let r := Ctx.num c a % 8
    match AMap.get? c.warp.mrecs r with
    | none => Ctx.trap c s (causeCode 9 4) (dword r)
    | some m =>
      if !m.done then Ctx.wait c (.fack r) s
      else
        .next (Ctx.advance c 1 (Ctx.on c s fun W =>
          let W := Warp.setGroup W d (MRec.page m page)
          if page = 3 then { W with mrecs := AMap.erase W.mrecs r } else W))

/-- FQUIET for the runs below `runs` (R303). -/
def Ctx.fquiet (c : Ctx) (s : State) (runs : Nat) : Out State :=
  if Warp.uncommitted c.warp runs (fun _ => true) || !Warp.counterOk c.warp .fb 0 then
    Ctx.wait c (.fquiet runs) s
  else .next (Ctx.advance c 1 s)

/-- FQUIET (R303). -/
def execFquiet (s : State) : Out State := withFrag s fun c => Ctx.fquiet c s c.warp.nextRun

/-! ### Ports, lateness, notices and keys (R288, R289, R304 to R307) -/

/-- The packets that a dead path has carried and no answer has acknowledged are sent again on other live paths, with their
SEQ (R288). -/
def State.resend (s : State) (lost : Sent → Bool) : State :=
  let again := s.sent.filter fun p => lost p && State.unanswered s p
  let s := { s with sent := s.sent.map fun p => if lost p then { p with port := none } else p }
  again.foldl (fun s p => State.depart s { p with again := true }) s

/-- The record of a warp's FMC, by the request that waits for it. -/
def Warp.recOf (W : Warp) (req : Nat) : Option (Nat × MRec) :=
  W.mrecs.find? fun e => e.2.req = req && !e.2.done

/-- A line that was sent again has left for another chip: the members whose port to that chip is down, and all where no
chip is reached, get it as unicast stores (R301). DESIGN CHOICE: log 105. -/
def State.reroute (s : State) (p : Sent) : State :=
  match p.owner.bind fun o => (State.warp? s o.1).bind fun W => (Warp.recOf W o.2).map fun e => (o.1, W, e) with
  | none => s
  | some (w, W, rec, m) =>
    let chip := (s.sent.find? fun q => q.again && q.port.isSome && q.kind = 3 && q.seq = p.seq).bind (·.port)
    let s := State.onWarp { s with unsent := s.unsent.filter fun q => !(q.kind = 3 && q.seq = p.seq) } w fun W =>
      { W with mrecs := AMap.set W.mrecs rec { m with chip := some (chip.getD 32) } }
    (State.cutMembers s chip m.left).foldl (fun s d => State.unicast s w W m d) s

/-- The lines on their way through a chip to a peer whose port to it has failed are sent to that peer as unicast stores
(R301). -/
def State.nopath (s : State) (port dev : Nat) : State :=
  s.warps.zipIdx.foldl (fun s x =>
    (x.1.mrecs.filter fun e => !e.2.done && e.2.chip = some port && e.2.left.contains dev).foldl
      (fun s e => State.unicast s x.2 x.1 e.2 dev) s) s

/-- PORT_FAILURE: a port of this device, or of a peer, dies (R288). What has been sent over its paths and no answer has
acknowledged is sent again on other live ones, and the lines of FMCs reach the members that the chip cannot (R301). -/
def execPortFailure (link : PortAt) (s : State) : Out State :=
  let port := link.port
  if 32 ≤ port then .next s
  else match link.peer with
  | some d =>
    let up := (AMap.get? s.peers d).getD 0
    if !up.testBit port then .next s
    else
      let s := State.resend { s with peers := AMap.set s.peers d (up - 2 ^ port) } fun p =>
        p.port = some port && p.kind ≠ 3 && p.dst = d
      .next (if d = s.fabid then s else State.nopath s port d)
  | none =>
    let s := State.onPort s port fun P => { P with up := false }
    let lines := s.sent.filter fun p => p.port = some port && p.kind = 3 && State.unanswered s p
    .next (lines.foldl State.reroute (State.resend s fun p => p.port = some port))

/-- LINK_TRAINING: a port's link comes up with the version that both ends speak, and the device has
its number (R287, R289), or the link of a peer's port comes up; packets that wait for a path leave. -/
def execLinkTraining (link : PortAt) (version dev : Nat) (s : State) : Out State :=
  let port := link.port
  if 510 < dev || !(version = 1 || version = 2) then .next s
  else match link.peer with
    | some d => .next (if 32 ≤ port then s else
        let up := (AMap.get? s.peers d).getD 0
        State.release { s with peers := AMap.set s.peers d (if up.testBit port then up else up + 2 ^ port) })
    | none =>
      let s := { s with fabid := dev, island := { s.island with dev := dev } }
      .next (State.release (State.onPort s port fun P => { P with up := true, version := version }))

/-- STALL_HINT: a port tells the cores of its die that a peer's traffic is backed up (R304). -/
def execStallHint (port peer : Nat) (s : State) : Out State :=
  .next (if 32 ≤ port || s.hints.contains (port, peer) then s
    else { s with hints := s.hints ++ [(port, peer)] })

/-- STALL_HINT_LAPSE (R304). -/
def execStallHintLapse (port peer : Nat) (s : State) : Out State :=
  .next { s with hints := s.hints.filter (· ≠ (port, peer)) }

/-- LATE_REQUEST: a request that has left the device has waited LATECYC cycles (R305): the report names its first packet
that has still to be answered. A multicast line names no single peer, so that field has no stated value.
DESIGN CHOICE: log 42. -/
def execLateRequest (w id : Nat) (s : State) : Out State :=
  match s.sent.find? fun p => p.owner = some (w, id) && State.unanswered s p with
  | none => .next s
  | some p =>
    let (s, any) := if p.kind = 3 then State.free s else (s, 0)
    let peer := if p.kind = 3 then any.toNat % 512 else p.dst
    .next (State.report { s with laterep := s.laterep ++ [peer * 2 ^ 32 + p.seq] } .late [peer, p.seq])

/-- LATEREP_READ: a read of LATEREP takes the next entry (R292). -/
def execLaterepRead (s : State) : Out State :=
  match s.laterep with
  | [] => .next { s with supRead := 0 }
  | x :: rest => .next { s with supRead := 2 ^ 63 + x, laterep := rest }

/-- RESET_NOTICE: a peer announces a queue's new reset count; packets from before it are dropped, and
the notice is acknowledged (R306). DEDUCED: log 68. -/
def execResetNotice (peer q rcnt : Nat) (s : State) : Out State :=
  let s := { s with notices := AMap.set s.notices (256 * peer + q) rcnt }
  let old (h : Home) : Bool :=
    match h.src with
    | .peer src queue n => State.outdated s src queue n
    | .peerLine src queue n _ => State.outdated s src queue n
    | _ => false
  let s := State.cutTokens s fun t => t.reply.any fun h => State.outdated s h.src h.queue h.rcnt
  .next (State.post { s with homes := s.homes.filter fun h => !old h }
    { kind := 8, reply := true, dst := peer, data := [q, rcnt], queue := q, rcnt := rcnt })

/-- KEY_INSTALL: a port and its switch change to the key in KEYNEXT; the counter restarts (R307). -/
def execKeyInstall (port : Nat) (s : State) : Out State :=
  .next (State.release (State.onPort s port fun P =>
    if P.want then { P with want := false, key := P.keyNext, counter := 0, alarm := false, stopped := false }
    else P))

/-- KEY_ALARM: a port's flit counter reaches 2^35 (R307), by the flits of packets, which State.flits counts, or
by link-level ones, which this event stands for. DESIGN CHOICE: log 97. -/
def execKeyAlarm (port : Nat) (s : State) : Out State :=
  let P := (AMap.get? s.ports port).getD Port.zero
  if P.up && P.counter < 2 ^ 35 then
    .next (State.report (State.onPort s port fun P => { P with counter := 2 ^ 35, alarm := true }) .keyAlarm
      [port])
  else .next s

/-- KEY_EXHAUSTED: a port's flit counter reaches 2^36 − 2, and the port stops sending (R307). DESIGN CHOICE:
log 97. -/
def execKeyExhausted (port : Nat) (s : State) : Out State :=
  .next (State.onPort s port fun P =>
    if P.alarm && !P.stopped then { P with counter := 2 ^ 36 - 2, stopped := true } else P)

end Sys2Proof.Machine
end

