-- ==== Sys2Proof/Machine/Queue.lean ====
section
/-! DEFINITION. The hardware queues: their packets, the ringmaster's service, the hub copy engine, and
queue resets (R339 to R347, R354, R355, R370). -/
namespace Sys2Proof.Machine

/-! ### The packet stream (R339, R345, R347) -/

/-- The buffers that still hold packets, once exhausted ones are closed (R345). A level is closed when
the packet after it is taken, so that an IB at the end of a buffer still counts that buffer's level.
DEDUCED: log 53. -/
def openLevels (ls : List (Nat × Nat)) : List (Nat × Nat) := ls.dropWhile fun l => l.2 = 0

/-- The address of the next packet of a queue's stream, and the queue after it has been taken (R339,
R345). -/
def Queue.take? (Q : Queue) : Option (Nat × Queue) :=
  match openLevels Q.levels with
  | (a, n) :: rest => some (a, { Q with levels := (a + 64, n - 1) :: rest })
  | [] =>
    if Q.rptr = Q.wptr then none
    else some (Q.base + 64 * (Q.rptr % 2 ^ Q.size), { Q with rptr := (Q.rptr + 1) % 2 ^ 32, levels := [] })

/-- A packet's opcode (R342). -/
def Packet.op (p : Packet) : Nat := p.x % 256

/-- The opcodes, in the order in which a round executes their groups (R343); an unknown one comes with
NOP. -/
def Packet.group (p : Packet) : Nat := if p.op = 0 ∨ 10 < p.op then 10 else p.op - 1

/-- The bits of a packet from `lo` to `hi`. -/
def Packet.f (p : Packet) (hi lo : Nat) : Nat := bits p.x hi lo

/-- The ranges of body bits that an opcode's fields occupy (R342, R349). -/
def packetFields : Nat → List (Nat × Nat)
  | 3 => [(32, 32), (191, 64)]
  | 4 => [(33, 32), (223, 64)]
  | 5 => [(159, 64)]
  | 7 => [(399, 64)]
  | 8 => [(399, 64)]
  | 9 => [(383, 64)]
  | _ => []

/-- Whether a bit of a packet is reserved: of its header, or of a body byte that its opcode does not
name (R342). -/
def packetReserved (op i : Nat) : Bool :=
  if i < 32 then 16 ≤ i || (9 ≤ i && i ≤ 11)
  else !(packetFields op).any fun f => f.2 ≤ i && i ≤ f.1

/-- Whether an address is one of a packet's: bits [63:57] zero (R342). -/
def vaOk (a : Nat) : Bool := a < 2 ^ 57

/-- Whether a signal address may stand in a packet; `none` allows 0 for none (R370). -/
def sigOk (a : Nat) (none : Bool) : Bool := (none && a = 0) || (vaOk a && a % 8 = 0)

/-- Whether the fields of a packet of an opcode lie in their ranges, those of a launch apart (R342,
R370). -/
def Packet.rangeOk (p : Packet) : Bool :=
  match p.op with
  | 3 => sigOk (p.f 127 64) false
  | 4 => sigOk (p.f 127 64) false
  | 5 => vaOk (p.f 127 64) && p.f 127 64 % 64 = 0 && 1 ≤ p.f 159 128 && p.f 159 128 ≤ 2 ^ 20
  | 9 => vaOk (p.f 127 64) && vaOk (p.f 191 128) && p.f 255 192 ≤ 2 ^ 40 && sigOk (p.f 319 256) true
  | _ => true

/-- Whether a packet keeps R342. -/
def Packet.ok (p : Packet) : Bool :=
  p.f 15 12 = 1 && !((List.range 512).any fun i => packetReserved p.op i && p.x.testBit i) && p.rangeOk

/-- The queue's stream after a packet that has been fetched is served; none where the stream beyond it
is not known (R345). -/
def Queue.past (Q : Queue) (p : Packet) : Option Queue :=
  (Queue.take? Q).bind fun (_, Q') =>
    if p.op = 5 then
      if p.ok && Q'.levels.length < 4 then
        some { Q' with levels := (p.f 127 64, p.f 159 128) :: Q'.levels }
      else none
    else if p.op = 6 then
      if p.ok && !Q'.levels.isEmpty then some { Q' with levels := Q'.levels.tail } else none
    else some Q'

/-- The queue's stream after everything that has been prefetched. -/
def Queue.pastAll : List Packet → Queue → Option Queue
  | [], Q => some Q
  | p :: ps, Q => (Queue.past Q p).bind (Queue.pastAll ps)

/-! ### Memory as the ringmaster reads it (R342, R349, R370) -/

/-- Why an access for a queue fails. -/
inductive QFail where
  | xlate (f : XlFault) (va : Nat)
  | unc (pa : Nat)
  deriving DecidableEq, Repr

/-- A physical address for an agent's access to `n` bytes within a page; it meets whole granules, and fails at the first
that is uncorrectable. -/
def State.reach (s : State) (ag : Agent) (asid va n : Nat) (acc : Access) : Except QFail (State × Nat) :=
  match State.translate s ag asid va acc with
  | .error f => .error (.xlate f va)
  | .ok (s, pa) =>
    match Memory.badGranules s.main pa n with
    | g :: _ => .error (.unc g)
    | [] => .ok (s, pa)

/-- `n` bytes at a virtual address, page by page of 64 KiB, given as fuel. -/
def State.fetchBytes (s : State) (ag : Agent) (asid : Nat) : (fuel va n : Nat) →
    Except QFail (State × List Byte)
  | 0, _, _ => .ok (s, [])
  | fuel + 1, va, n =>
    if n = 0 then .ok (s, [])
    else
      let k := Min.min n (65536 - va % 65536)
      match State.reach s ag asid va k .read with
      | .error f => .error f
      | .ok (s, pa) =>
        let (s, v) := State.readMain s pa k
        match State.fetchBytes s ag asid fuel (va + k) (n - k) with
        | .error f => .error f
        | .ok (s, bs) => .ok (s, (List.range k).map (fun i => BitVec.ofNat 8 (v / 256 ^ i)) ++ bs)

/-- `n` bytes at a virtual address of a queue's context, as the ringmaster or distributor reads
them. -/
def State.ringRead (s : State) (asid va n : Nat) : Except QFail (State × List Byte) :=
  State.fetchBytes s .ringmaster asid (n / 65536 + 2) va n

/-- The physical address of a signal, for an access by an agent (R370). -/
def State.signalAt (s : State) (ag : Agent) (asid va : Nat) (write : Bool) : Except QFail (State × Nat) :=
  State.reach s ag asid va 8 (if write then .write else .read)

/-- A signal's value. -/
def State.readSignal (s : State) (pa : Nat) : State × Nat := State.readMain s pa 8

/-- A signal updated: set, or added to modulo 2^64 (R344). -/
def State.putSignal (s : State) (pa v : Nat) (add : Bool) : State :=
  let (s, old) := State.readSignal s pa
  State.putMain s pa 8 (if add then (old + v) % 2 ^ 64 else v)

/-! ### The ringmaster's rounds (R343) -/

/-- The work of a queue that has not retired: grids and copies (R342). -/
def State.queueBusy (s : State) (q : Nat) : Bool :=
  (s.grids.any fun g => g.queue = some q && g.status ≠ .retired) ||
    s.hubCopies.any fun c => c.2.queue = q

/-- Whether a failed signal update of a queue's work has still to be performed again (R370). -/
def State.queueLate (s : State) (q : Nat) : Bool :=
  (s.grids.any fun g => g.queue = some q && g.status = .unsignalled) ||
    s.hubCopies.any fun c => c.2.queue = q && c.2.late

/-- The packet that a queue has ready: it runs, waits for no answer, has nothing to perform again first,
and a BARRIER packet's earlier work has retired (R342, R354, R370). DEDUCED: log 56. -/
def State.readyPacket (s : State) (q : Nat) : Option Packet :=
  let Q := State.queue s q
  match Q.pre with
  | [] => none
  | p :: _ =>
    if Q.state = .running && Q.xlate.isNone && !State.queueLate s q &&
        !(bits p.x 8 8 = 1 && State.queueBusy s q) then some p
    else none

/-- The queues of a ringmaster core that a round has still to serve; when none of them is ready any more,
every ready one (R343). -/
def State.round (s : State) (core : Nat) : List Nat :=
  let left := ((AMap.get? s.rounds core).getD []).filter fun q => (State.readyPacket s q).isSome
  if left.isEmpty then
    ((List.range 64).map (64 * core + ·)).filter fun q => (State.readyPacket s q).isSome
  else left

/-- Whether it is a queue's turn: it is in the round, and no queue of the round has a packet of an
earlier group (R343). -/
def State.turn? (s : State) (q : Nat) : Option Packet :=
  let rd := State.round s (q / 64)
  if rd.contains q then
    (State.readyPacket s q).bind fun p =>
      if rd.all fun r =>
        match State.readyPacket s r with
        | some x => Packet.group p ≤ Packet.group x
        | none => true
      then some p else none
  else none

/-- A queue's turn in the round used. -/
def State.endTurn (s : State) (q : Nat) : State :=
  { s with rounds := AMap.set s.rounds (q / 64) ((State.round s (q / 64)).filter (· ≠ q)) }

/-- A running queue without a packet, an open buffer or a prefetched packet is idle (R340). -/
def Queue.settle (Q : Queue) : Queue :=
  if Q.state = .running && Q.rptr = Q.wptr && (openLevels Q.levels).isEmpty && Q.pre.isEmpty then
    { Q with state := .idle, levels := [] }
  else Q

/-- A queue that runs settles, unless a failed update of its work has still to be performed first (R340, R370). -/
def State.settle (s : State) (q : Nat) : State :=
  if (State.queue s q).state = .running && !State.queueLate s q then State.onQueue s q Queue.settle else s

/-- A packet served: the stream goes on behind it (R344). -/
def State.consume (s : State) (q : Nat) (p : Packet) : State :=
  State.onQueue s q fun Q =>
    let Q := (Queue.past Q p).getD Q
    Queue.settle { Q with pre := Q.pre.tail, harvested := false, state := .running }

/-- A fault of a packet (R354). DEDUCED: log 76. -/
def State.faultPacket (s : State) (q : Nat) (p : Packet) (reason : Nat) : State :=
  State.haltQueue s q reason p.va

/-- An access for a packet fails (R349, R370): a translation fault goes to the supervisor, whose refusal is a queue
fault; an uncorrectable granule is one at once. -/
def State.failPacket (s : State) (q va : Nat) (f : QFail) : State :=
  let Q := State.queue s q
  match f with
  | .unc pa => State.haltQueue (State.countMain s pa) q 0x05 va
  | .xlate f at_ =>
    if Q.xlate.isSome then s
    else State.report (State.onQueue (State.walked s f) q fun Q => { Q with xlate := some at_ }) .queueXlate
      [q, XlFault.code f, at_]

/-- A packet of an opcode served in its queue's turn: a malformed one is a fault (R342). -/
def State.serve (s : State) (q op : Nat) (k : State → Queue → Packet → State) : Out State :=
  match State.turn? s q with
  | none => .next s
  | some p =>
    if p.op ≠ op then .next s
    else
      let s := State.endTurn s q
      .next (if p.ok then k s (State.queue s q) p else State.faultPacket s q p 0x02)

/-! ### Doorbells and prefetch -/

/-- The word at an offset of a doorbell page, as a host reads it (R341): the packet versions as a bitmap, version
1 alone. A host reads no other device state. -/
def doorbellPage (off : Nat) : Option Nat := if off = 0x008 then some 0x2 else none

/-- Whether a host may ring a queue: the supervisor has assigned the queue to it (R341). -/
def State.rings (s : State) (r : Bell) : Bool :=
  match r.host with
  | none => true
  | some h => AMap.get? s.hosts r.queue = some h

/-- DOORBELL: a WPTR write, by a host through the doorbell page of a queue assigned to it, or through the queue's
block (R339, R340, R341). An overrun names no packet, so QFAULT has no stated value. DEDUCED: log 55. -/
def execDoorbell (r : Bell) (wptr : Nat) (s : State) : Out State :=
  let q := r.queue
  if 256 ≤ q || !State.rings s r then .next s
  else
    let Q := State.queue s q
    let n := wptr % 2 ^ 32
    if 2 ^ Q.size < (n + 2 ^ 32 - Q.rptr) % 2 ^ 32 then
      let (s, v) := State.free s
      let (s, u) := State.free s
      .next (State.haltQueue s q 0x02 ((v.toNat + u.toNat * 2 ^ 32) % 2 ^ 57))
    else
      .next (State.settle (State.onQueue s q fun Q =>
        { Q with wptr := n, state := if Q.state = .idle && Q.enable && n ≠ Q.rptr then .running else Q.state }) q)

/-- PACKET_PREFETCH: the lane of a queue reads its next packet, at most 16 ahead of the one that it
serves; a failure counts when that packet is the next to be served (R347). DEDUCED: log 54. -/
def execPacketPrefetch (q : Nat) (s : State) : Out State :=
  let Q := State.queue s q
  if !(Q.state = .running || Q.state = .waiting) || 17 ≤ Q.pre.length || Q.xlate.isSome then .next s
  else match (Queue.pastAll Q.pre Q).bind Queue.take? with
    | none => .next s
    | some (va, _) =>
      match State.ringRead s Q.asid va 64 with
      | .ok (s, bs) => .next (State.onQueue s q fun Q => { Q with pre := Q.pre ++ [⟨va, numOfBytes bs⟩] })
      | .error f => .next (if Q.pre.isEmpty then State.failPacket s q va f else s)

/-! ### Packets (R344, R345) -/

/-- NOP_PACKET: a NOP, or a packet of an unknown opcode, which is a fault (R342, R344). DEDUCED: log 52. -/
def execNopPacket (q : Nat) (s : State) : Out State :=
  match State.turn? s q with
  | none => .next s
  | some p =>
    if 10 < p.op then .next (State.faultPacket (State.endTurn s q) q p 0x01)
    else State.serve s q 0 fun s _ p => State.consume s q p

/-- FETCHFENCE: every packet fetched behind it is discarded (R347). -/
def execFetchfence (q : Nat) (s : State) : Out State :=
  State.serve s q 2 fun s _ p => State.onQueue (State.consume s q p) q fun Q => Queue.settle { Q with pre := [] }

/-- SIGNAL: the signal is set, or added to (R344, R370). -/
def execSignal (q : Nat) (s : State) : Out State :=
  State.serve s q 3 fun s Q p =>
    match State.signalAt s .ringmaster Q.asid (p.f 127 64) true with
    | .error f => State.failPacket s q p.va f
    | .ok (s, pa) => State.consume (State.putSignal s pa (p.f 191 128) (p.f 32 32 = 1)) q p

/-- Whether a signal's value satisfies the condition of a WAITSIG (R342). -/
def Packet.satisfied (p : Packet) (v : Nat) : Bool :=
  match p.f 33 32 with
  | 0 => v = p.f 191 128
  | 1 => v ≠ p.f 191 128
  | 2 => p.f 191 128 ≤ v
  | _ => v < p.f 191 128

/-- A WAITSIG reads its signal: it is served when the condition holds, and its queue waits otherwise
(R344). -/
def State.waitsig (s : State) (q : Nat) (Q : Queue) (p : Packet) : State :=
  match State.signalAt s .ringmaster Q.asid (p.f 127 64) false with
  | .error f => State.failPacket s q p.va f
  | .ok (s, pa) =>
    let (s, v) := State.readSignal s pa
    if p.satisfied v then State.consume s q p
    else State.onQueue s q fun Q => { Q with state := .waiting }

/-- WAITSIG (R344). -/
def execWaitsig (q : Nat) (s : State) : Out State := State.serve s q 4 fun s Q p => State.waitsig s q Q p

/-- WAITSIG_TIMEOUT: the timeout of a waiting WAITSIG expires (R344). DESIGN CHOICE: log 51. -/
def execWaitsigTimeout (q : Nat) (s : State) : Out State :=
  let Q := State.queue s q
  match Q.state, Q.pre with
  | .waiting, p :: _ =>
    if p.op = 4 && p.f 223 192 ≠ 0 && Q.xlate.isNone then .next (State.faultPacket s q p 0x09) else .next s
  | _, _ => .next s

/-- IB: a buffer level opens; at depth 4 it is a fault (R345). -/
def execIb (q : Nat) (s : State) : Out State :=
  State.serve s q 5 fun s Q p =>
    if (Queue.past Q p).isSome then State.consume s q p else State.faultPacket s q p 0x03

/-- IBRET: the innermost level closes; at depth 0 it is a fault (R345). -/
def execIbret (q : Nat) (s : State) : Out State :=
  State.serve s q 6 fun s Q p =>
    if (Queue.past Q p).isSome then State.consume s q p else State.faultPacket s q p 0x02

/-- A and D of the TLB entries of a kind set in the tables by an OR on the leaf entries (R329). -/
def State.flushAD (s : State) (sel : TlbEntry → Bool) : State :=
  { s with main := (s.tlb.filter sel).foldl (fun m e =>
      Memory.write m e.leaf 8
        (Memory.read m e.leaf 8 ||| ((if e.a then 2 ^ 5 else 0) + if e.d then 2 ^ 6 else 0))) s.main }

/-- HARVEST: the queue waits until every TLB has set A and D for its ASID (R329, R344). -/
def execHarvest (q : Nat) (s : State) : Out State :=
  State.serve s q 10 fun s Q p =>
    if Q.harvested then State.consume s q p else State.onQueue s q fun Q => { Q with state := .waiting }

/-- The grids that the device holds accepted and not retired (R344, R351). -/
def State.liveGrids (s : State) : Nat := (s.grids.filter fun g => g.queue.isSome && g.status = .live).length

/-- COPY_PACKET: the copy starts on the hub copy engine, or its queue waits for one of the 64 places
(R344, R346). -/
def execCopyPacket (q : Nat) (s : State) : Out State :=
  State.serve s q 9 fun s Q p =>
    if 64 ≤ s.hubCopies.length then State.onQueue s q fun Q => { Q with state := .waiting }
    else
      let c : HubCopy :=
        { queue := q, packet := p.va, asid := Q.asid, dst := p.f 127 64, src := p.f 191 128,
          size := p.f 255 192, sigVA := p.f 319 256, sigVal := p.f 383 320, done := [], stop := .running,
          late := false, turn := s.freeCount, moved := 0 }
      State.consume { s with freeCount := s.freeCount + 1, hubCopies := s.hubCopies ++ [(s.freeCount, c)] } q p

/-- QUEUE_WAIT_END: what a waiting packet waits for has come about: its queue runs again, and the packet is
served in its turn (R340, R343, R344). -/
def execQueueWaitEnd (q : Nat) (s : State) : Out State :=
  let Q := State.queue s q
  match Q.state, Q.pre with
  | .waiting, p :: _ =>
    if Q.xlate.isSome || State.queueLate s q then .next s
    else match p.op with
      | 4 =>
        match State.signalAt s .ringmaster Q.asid (p.f 127 64) false with
        | .error f => .next (State.failPacket s q p.va f)
        | .ok (s, pa) =>
          let (s, v) := State.readSignal s pa
          .next (if p.satisfied v then State.onQueue s q fun Q => { Q with state := .running } else s)
      | 10 =>
        .next (State.onQueue (State.flushAD s fun e => e.asid = Q.asid) q fun Q =>
          { Q with state := .running, harvested := true })
      | 9 =>
        .next (if s.hubCopies.length < 64 then State.onQueue s q fun Q => { Q with state := .running } else s)
      | _ =>
        .next (if State.liveGrids s < 4096 then State.onQueue s q fun Q => { Q with state := .running } else s)
  | _, _ => .next s

/-! ### The hub copy engine (R346) -/

/-- A hub copy replaced. -/
def State.putHub (s : State) (id : Nat) (c : HubCopy) : State :=
  { s with hubCopies := AMap.set s.hubCopies id c }

/-- The first byte of a copy in a destination granule, and the number of its bytes there. -/
def HubCopy.span (c : HubCopy) (g : Nat) : Nat × Nat :=
  let lo := Max.max c.dst (32 * g)
  (lo - c.dst, Min.min (c.dst + c.size) (32 * g + 32) - lo)

/-- The destination granules of a copy. -/
def HubCopy.granules (c : HubCopy) : List Nat :=
  if c.size = 0 then []
  else (List.range ((c.dst + c.size - 1) / 32 - c.dst / 32 + 1)).map (c.dst / 32 + ·)

/-- The granules that are still to be written: below the one at which the copy fails, if any. -/
def HubCopy.left (c : HubCopy) : List Nat := c.granules.filter fun g => !c.done.contains g && c.last.all (g < ·)

/-- The granule that is taken up next. -/
def HubCopy.next (c : HubCopy) : Option Nat := c.left.find? fun g => (AMap.get? c.ready g).isNone

/-- `n` source bytes from an address, byte by byte, as a number. -/
def State.hubRead (s : State) (asid : Nat) : (n va : Nat) → Except QFail (State × Nat)
  | 0, _ => .ok (s, 0)
  | n + 1, va =>
    match State.reach s .hub asid va 1 .read with
    | .error f => .error f
    | .ok (s, pa) =>
      let (s, b) := State.readMain s pa 1
      match State.hubRead s asid n (va + 1) with
      | .error f => .error f
      | .ok (s, v) => .ok (s, b + 256 * v)

/-- A granule taken up: the state that has read its source bytes and translated its address, the physical address and the
bytes. -/
def State.hubGranule (s : State) (c : HubCopy) (g : Nat) : Except QFail (State × Nat × Nat) :=
  match State.hubRead s c.asid (c.span g).2 (c.src + (c.span g).1) with
  | .error f => .error f
  | .ok (s, v) =>
    match State.translate s .hub c.asid (c.dst + (c.span g).1) .write with
    | .error f => .error (.xlate f (c.dst + (c.span g).1))
    | .ok (s, pa) => .ok (s, pa, v)

/-- Where `n` bytes of a context lie, byte by byte, by its tables. -/
def State.physBytes (s : State) (asid va n : Nat) : List Nat :=
  (List.range n).filterMap fun i => State.physOf s asid (va + i)

/-- The granules whose source bytes writing granule `g` replaces: byte i of the destination receives byte i of the source
(R346), so they are taken up before. -/
def State.hubAhead (s : State) (c : HubCopy) (g : Nat) : List Nat :=
  let mine := State.physBytes s c.asid (c.dst + (c.span g).1) (c.span g).2
  c.left.filter fun h => h != g && (AMap.get? c.ready h).isNone &&
    (State.physBytes s c.asid (c.src + (c.span h).1) (c.span h).2).any mine.contains

/-- Granules up to `top` taken up in rising order, at most `n`. At an uncorrectable source granule the copy fails there; a
translation fault goes to the supervisor. -/
def State.hubTake (id top : Nat) : (n : Nat) → State → HubCopy → State × HubCopy
  | 0, s, c => (s, c)
  | n + 1, s, c =>
    match c.next with
    | none => (s, c)
    | some g =>
      if top < g then (s, c)
      else match State.hubGranule s c g with
        | .ok (s, pa, v) => State.hubTake id top n s { c with ready := AMap.set c.ready g (pa, v) }
        | .error (.unc pa) => (State.countMain s pa, { c with last := some g })
        | .error (.xlate f va) =>
          (State.report (State.walked s f) .hubXlate [id, XlFault.code f, va], { c with stop := .asked })

/-- Whether a granule that has been taken up may be written: no granule waits to be read that it replaces. -/
def State.hubMayWrite (s : State) (c : HubCopy) (g : Nat) : Bool :=
  (AMap.get? c.ready g).isSome && (State.hubAhead s c g).isEmpty

/-- Whether a copy has granules that it may take up or write; one that waits for the supervisor writes those that it has
taken up. -/
def State.hubActive (s : State) (c : HubCopy) : Bool :=
  (c.stop = .running && !c.left.isEmpty) || (c.stop = .asked && c.ready.any fun e => State.hubMayWrite s c e.1)

/-- Whether the engine's round has come to a copy (R346): no active copy is before it. -/
def State.hubTurn (s : State) (c : HubCopy) : Bool :=
  State.hubActive s c && !(s.hubCopies.any fun e => State.hubActive s e.2 && e.2.turn < c.turn)

/-- A copy as its step leaves it. Once it fails at a granule and those before are written, it stops: that granule and
those after it keep their old values, and its queue halts (R346). -/
def State.hubStands (s : State) (id : Nat) (c : HubCopy) : State :=
  if c.last.isSome && c.left.isEmpty then
    State.haltQueue (State.putHub s id { c with stop := .failed }) c.queue 0x0C c.packet
  else State.putHub s id c

/-- A granule written: once a block of 256 bytes is, the copy goes behind the others (R346). -/
def State.hubWrite (s : State) (id : Nat) (c : HubCopy) (g pa v : Nat) : State :=
  let s := State.putMain s pa (c.span g).2 v
  let c := { c with done := c.done ++ [g], ready := AMap.erase c.ready g, moved := c.moved + 1 }
  if c.moved < 8 then State.hubStands s id c
  else State.hubStands { s with freeCount := s.freeCount + 1 } id { c with moved := 0, turn := s.freeCount }

/-- HUB_COPY_BLOCK: the copy whose turn it is writes a destination granule, in any order of those that it has taken up; it
takes them up in rising order, so that none beyond a failing one is ever written (R346). DEDUCED: log 67. -/
def execHubCopyBlock (id g : Nat) (s : State) : Out State :=
  match AMap.get? s.hubCopies id with
  | none => .next s
  | some c =>
    if !State.hubTurn s c || !c.left.contains g then .next s
    else
      let top := (State.hubAhead s c g).foldl Max.max g
      let (s, c) := if c.stop = .running then State.hubTake id top c.left.length s c else (s, c)
      match if State.hubMayWrite s c g then AMap.get? c.ready g else none with
      | some (pa, v) => .next (State.hubWrite s id c g pa v)
      | none => .next (State.hubStands s id c)

/-- The destination bytes that the source range also holds become undefined (R6, R346). -/
def State.hubScramble (s : State) (c : HubCopy) : State :=
  let src := State.physBytes s c.asid c.src c.size
  ((State.physBytes s c.asid c.dst c.size).filter src.contains).foldl (fun s pa =>
    { State.putMain s pa 1 (Config.freeByte s.freeCount).toNat with
             freeCount := s.freeCount + 1 }) s

/-- A hub copy has retired: the engine no longer holds it. -/
def State.hubRetire (s : State) (id : Nat) (c : HubCopy) : State :=
  State.settle { s with hubCopies := AMap.erase s.hubCopies id } c.queue

/-- The signal update at the end of a copy has failed: its queue halts (R370). -/
def State.hubUnsignalled (s : State) (id : Nat) (c : HubCopy) (reason : Nat) : State :=
  State.haltQueue (State.putHub s id { c with stop := .running, late := true }) c.queue reason c.packet

/-- The signal update at the end of a copy meets a fault (R370). -/
def State.hubLate (s : State) (id : Nat) (c : HubCopy) (f : QFail) : State :=
  match f with
  | .unc pa => State.hubUnsignalled (State.countMain s pa) id c 0x05
  | .xlate f va =>
    State.report (State.putHub (State.walked s f) id { c with stop := .asked }) .hubXlate [id, XlFault.code f, va]

/-- HUB_COPY_COMPLETE: every byte has been written: the signal is updated and the copy retires; a failed
update is performed again once its queue runs (R346, R370). -/
def execHubCopyComplete (id : Nat) (s : State) : Out State :=
  match AMap.get? s.hubCopies id with
  | none => .next s
  | some c =>
    if c.stop ≠ .running || !c.left.isEmpty ||
        (c.late && (State.queue s c.queue).state ≠ .running) then .next s
    else
      let s := if c.late then s else State.hubScramble s c
      if c.sigVA = 0 then .next (State.hubRetire s id c)
      else match State.signalAt s .hub c.asid c.sigVA true with
        | .error f => .next (State.hubLate s id c f)
        | .ok (s, pa) => .next (State.hubRetire (State.putSignal s pa c.sigVal true) id c)

/-- The supervisor's answer to a reported fault of the hub copy engine (R346, R370): the access is performed again, or the
copy fails at the granule, or its signal update does. -/
def State.hubReply (s : State) (id : Nat) (resolved : Bool) : State :=
  match AMap.get? s.hubCopies id with
  | none => s
  | some c =>
    let C := { c with stop := .running }
    if c.stop ≠ .asked then s
    else if resolved then State.putHub s id C
    else match c.next with
      | some g => State.hubStands s id { C with last := some g }
      | none => State.hubUnsignalled s id C 0x04

/-- The address of the packet that a queue serves or fetches next (R345, R354). -/
def Queue.packetAt (Q : Queue) : Nat :=
  match Q.pre with
  | p :: _ => p.va
  | [] => (Queue.take? Q).elim 0 (·.1)

/-- The supervisor's answer to a reported fault of a queue (R354, R370): the access is performed again, or the refusal is
the queue's fault 0x04. -/
def State.queueReply (s : State) (q : Nat) (resolved : Bool) : State :=
  let Q := State.queue s q
  let s := State.onQueue s q fun Q => { Q with xlate := none }
  if Q.xlate.isNone || resolved || !(Q.state = .running || Q.state = .waiting) then s
  else State.haltQueue s q 0x04 (Queue.packetAt Q)

/-! ### Commands and resets (R339, R354, R355) -/

/-- RESUME: a halted queue runs again, stopped copies start again from byte 0; a failed signal update is
performed before any packet is served (R354, R370). -/
def execResume (q : Nat) (s : State) : Out State :=
  if (State.queue s q).state ≠ .halted then .next s
  else
    let s := { s with hubCopies := s.hubCopies.map fun e =>
      if e.2.queue = q && e.2.stop = .failed then
        (e.1, { e.2 with stop := .running, done := [], ready := [], last := none, moved := 0 }) else e }
    .next (State.settle (State.onQueue s q fun Q =>
      { Q with state := .running, xlate := none }) q)

/-- DISABLE: an idle queue is disabled (R339). -/
def execDisable (q : Nat) (s : State) : Out State :=
  .next (State.onQueue s q fun Q => if Q.state = .idle then { Q with enable := false } else Q)

/-- Whether a warp belongs to the work of a queue. -/
def State.ofQueue (s : State) (q w : Nat) : Bool :=
  match State.warp? s w with
  | some W => State.queueOf s W = some q
  | none => false

/-- A warp stopped by a reset of its queue: nothing of it runs or is performed any more (R355). -/
def Warp.cutOff (W : Warp) : Warp :=
  { Warp.discard W with ended := W.ended, killed := true, mimage := none, mfail := none, arrivals := [],
                        bank1 := { W.bank1 with trq := [] }, bank2 := { W.bank2 with trq := [] } }

/-- The devices of the job of a queue's context, this one apart (R306). -/
def State.peersOf (s : State) (asid : Nat) : List Nat :=
  ((AMap.get? s.jobPeers (State.jobOf s asid)).getD []).filter (· ≠ s.fabid)

/-- The start of a queue's reset (R355): its steps 1 to 4. Nothing of the queue's work is performed from
here on. -/
def State.startReset (s : State) (q : Nat) : State :=
  let Q := State.queue s q
  if Q.state = .resetting then s
  else
    let mine := State.ofQueue s q
    let n := (Q.rcnt + 1) % 2 ^ 16
    let peers := State.peersOf s Q.asid
    let s := s.warps.zipIdx.foldl (fun s x =>
      match if mine x.2 then x.1.mfail else none with
      | some f => State.haltWarp (State.report s .matrixFail [x.2, f.cause, f.tval]) x.1 0x0B
      | none => s) s
    let s := State.dropArrays
      { s with warps := s.warps.zipIdx.map fun x => if mine x.2 then Warp.cutOff x.1 else x.1,
               hubCopies := s.hubCopies.filter fun e => e.2.queue ≠ q,
               homes := s.homes.filter fun h => !HomeSrc.isOf mine h.src,
               contexts := s.contexts.map fun e =>
                 (e.1, { e.2 with waiting := e.2.waiting.filter fun x => !mine x.w }),
               unsent := s.unsent.filter fun p => !(p.owner.elim false fun o => mine o.1) } mine
    let s := State.cutTokens s fun t => t.warp.any mine
    let s := peers.foldl (fun s d => State.post s
      { kind := 8, dst := d, data := [q, n], job := State.jobOf s Q.asid, queue := q, rcnt := n }) s
    State.onQueue s q fun Q =>
      { Q with state := .resetting, rcnt := n, pre := [], unacked := peers, xlate := none,
               harvested := false }

/-- QUEUE_RESET: QCMD RESET (R355). -/
def execQueueReset (q : Nat) (s : State) : Out State :=
  if 256 ≤ q then .next s else .next (State.startReset s q)

/-- RESET_PACKET: a served RESET packet (R355). -/
def execResetPacket (q : Nat) (s : State) : Out State := State.serve s q 1 fun s _ _ => State.startReset s q

/-- RESET_NOTICE_ACK: a peer drops the packets from before a reset and acknowledges it (R306). -/
def execResetNoticeAck (peer q : Nat) (s : State) : Out State :=
  .next (State.release (State.onQueue s q fun Q => { Q with unacked := Q.unacked.filter (· ≠ peer) }))

/-- What a queue held is released (R355, step 5). -/
def State.releaseQueue (s : State) (q : Nat) : State :=
  let mine (g : Nat) : Bool :=
    match s.grids[g]? with
    | some G => G.queue = some q
    | none => false
  let warps := s.warps.zipIdx.map fun x =>
    if State.ofQueue s q x.2 then { x.1 with ended := true, arrivals := [], mrecs := [] } else x.1
  { s with warps := warps,
           rr := s.rr.filter fun e => !State.ofQueue s q e.1,
           teams := s.teams.map fun T =>
             if mine T.grid then { T with status := .ended, shm := Memory.empty } else T,
           grids := s.grids.map fun G =>
             if G.queue = some q then { G with status := .retired, scr := [], xl := none } else G }

/-- RESET_COMPLETE: every peer has acknowledged: the queue's work is released, its open positions are
reported, it is empty and IDLE, and the supervisor is told (R268, R340, R355). -/
def execResetComplete (q : Nat) (s : State) : Out State :=
  let Q := State.queue s q
  if Q.state ≠ .resetting || !Q.unacked.isEmpty then .next s
  else
    let s := State.reportOpen (State.releaseQueue s q) q
    let s := State.onQueue s q fun Q =>
      { Q with rptr := Q.wptr, levels := [], pre := [], state := .idle }
    .next (State.report s .resetDone [q])

end Sys2Proof.Machine
end

