-- ==== Sys2Proof/Machine/Launch.lean ====
section
/-! DEFINITION. Launching grids by packet and by instruction, placing teams on cores, and the end of
warps and grids (R14, R52 to R54, R107, R348 to R353, R370). -/
namespace Sys2Proof.Machine

/-! ### Kernel descriptors (R348) -/

/-- A kernel descriptor (R348). -/
structure Desc where
  scode : Nat
  lcode : Nat
  spimg : Nat
  splen : Nat
  const : Nat
  shimg : Nat
  shlen : Nat
  regs  : Nat
  spill : Nat
  idem  : Bool
  vhigh : Nat
  deriving DecidableEq, Repr

/-- The fields of a descriptor. -/
def Desc.ofNat (x : Nat) : Desc :=
  { scode := bits x 63 0, lcode := bits x 127 64, spimg := bits x 191 128, splen := bits x 223 192,
    const := bits x 255 224, shimg := bits x 319 256, shlen := bits x 351 320, regs := bits x 360 357,
    spill := bits x 374 361, idem := bits x 375 375 = 1, vhigh := bits x 383 376 }

/-- The shared-memory allocation of a descriptor's teams (R52). -/
def Desc.shared (d : Desc) : Nat := (d.shlen + 255) / 256 * 256

/-- The stack of each warp (R53). -/
def Desc.stack (d : Desc) : Nat := if 4096 < d.spill then 8192 else 4096

/-- Whether a descriptor's bits keep their ranges (R348). -/
def descOk512 (x : Nat) : Bool :=
  let d := Desc.ofNat x
  bits x 511 384 = 0 && bits x 356 352 = 0 && d.spill ≤ 8192 && 2 ≤ d.regs && d.regs ≤ 8 &&
    Desc.shared d ≤ 512 * 1024

/-- Whether VHIGH breaks R74: what the scanner recorded with the mapping of the lane unit that holds LCODE is
not below the registers of a warp, or is not the descriptor's copy. Where LCODE lies in no mapped lane unit,
nothing is compared. DEDUCED: log 61. -/
def State.badVhigh (s : State) (asid : Nat) (d : Desc) : Bool :=
  match State.mapping? s asid d.lcode with
  | some m => m.lane && (d.regs * 32 ≤ m.vhigh || m.vhigh ≠ d.vhigh)
  | none => false

/-! ### Accepting a grid (R349) -/

/-- The team counts of COUNTS. -/
def countsOf (c : Nat) : Nat × Nat × Nat := (bits c 9 0, bits c 19 10, bits c 29 20)

/-- The number of teams of COUNTS. -/
def teamCount (c : Nat) : Nat := (countsOf c).1 * (countsOf c).2.1 * (countsOf c).2.2

/-- Whether COUNTS keeps R349. -/
def countsRangeOk (c : Nat) : Bool := teamCount c ≠ 0 && c < 2 ^ 30

/-- Why the distributor does not accept a grid: an access fails, a queue fault, or a die's scratchpad has no
room. -/
inductive AcceptFail where
  | access (f : QFail)
  | reason (r : Nat)
  | full
  deriving DecidableEq, Repr

/-- The scratchpad region of a grid on a die (R52): the images at 0, the arguments behind.
DESIGN CHOICE: log 83. -/
def scratchImage (image args : List Byte) (argOff : Nat) : Memory :=
  Memory.writeBytes (Memory.writeBytes Memory.empty 0 image) argOff args

/-- The bytes of a die's scratchpad that grids hold. -/
def State.scratchUsed (s : State) (die : Nat) : Nat :=
  ((s.grids.filter fun g => g.scr ≠ [] && g.dies.contains die).map fun g => (g.scrLen + 63) / 64 * 64).sum

/-- Whether a region of `n` bytes has room in the 64 MiB of each die (R21). DESIGN CHOICE: log 98. -/
def State.scratchRoom (s : State) (dies : List Nat) (n : Nat) : Bool :=
  dies.all fun die => State.scratchUsed s die + (n + 63) / 64 * 64 ≤ 64 * 2 ^ 20

/-- The distributor reads the descriptor and the images of a grid that it has been handed, and allocates its
scratchpad regions (R348, R349, R352). -/
def State.accept (s : State) (g : Grid) : Except AcceptFail (State × Grid) :=
  match State.ringRead s g.asid g.kdesc 64 with
  | .error f => .error (.access f)
  | .ok (s, bs) =>
    let x := numOfBytes bs
    let d := Desc.ofNat x
    if !descOk512 x then .error (.reason 0x06)
    else if State.badVhigh s g.asid d then .error (.reason 0x07)
    else if 32 < g.nwarps || 4096 < 32 * d.regs * g.nwarps || 128 * 1024 < Desc.stack d * g.nwarps then
      .error (.reason 0x08)
    else match State.ringRead s g.asid d.spimg d.splen with
      | .error f => .error (.access f)
      | .ok (s, image) =>
        match State.ringRead s g.asid d.shimg d.shlen with
        | .error f => .error (.access f)
        | .ok (s, shared) =>
          let argOff := (d.splen + 63) / 64 * 64
          let region := scratchImage image g.args argOff
          if !State.scratchRoom s g.dies (argOff + g.args.length) then .error .full
          else .ok (s,
            { g with
              scode := d.scode, lcode := d.lcode,
              scr := (List.range 8).map fun k => if g.dies.contains k then region else Memory.empty,
              constLo := d.const, constHi := d.splen, argOff := argOff, argLen := g.args.length,
              scrLen := argOff + g.args.length, regs := 32 * d.regs, spill := Desc.stack d, idem := d.idem,
              shImg := shared, shLen := Desc.shared d, status := .live, xl := none })

/-- A grid as it is handed to the distributor, which has read nothing of it yet (R349, R351). -/
def Grid.handed (asid depth kdesc counts nwarps sigVA sigVal packet : Nat) (nbhd : Bool) (args : List Byte)
    (dies : List Nat) (queue parent : Option Nat) : Grid :=
  { asid := asid, depth := depth, scode := 0, lcode := 0, scr := [], constLo := 0, constHi := 0, argOff := 0,
    argLen := 0, scrLen := 0, nbhd := nbhd, teams := [], queue := queue, packet := packet, parent := parent,
    dies := dies, counts := counts, nwarps := nwarps, sigVA := sigVA, sigVal := sigVal, status := .offered,
    kdesc := kdesc, args := args }

/-- The dies of a DIEMASK; 0 names all (R349). -/
def diesOf (m : Nat) : List Nat := (List.range 8).filter fun k => m % 256 = 0 || m.testBit k

/-- Whether the fields of a LAUNCH or NLAUNCH packet lie in their ranges (R349). -/
def Packet.launchOk (p : Packet) : Bool :=
  vaOk (p.f 127 64) && countsRangeOk (p.f 159 128) && p.f 191 160 ≤ 4096 && p.f 191 160 % 8 = 0 &&
    vaOk (p.f 255 192) && sigOk (p.f 319 256) true && p.f 399 396 = 0

/-- A LAUNCH or NLAUNCH packet served (R344, R349, R353, R354). -/
def State.servePacketLaunch (s : State) (q : Nat) (Q : Queue) (p : Packet) (nbhd : Bool) : State :=
  if !p.launchOk then State.faultPacket s q p 0x02
  else if nbhd && 24 < teamCount (p.f 159 128) then State.faultPacket s q p 0x08
  else if 4096 ≤ State.liveGrids s then State.onQueue s q fun Q => { Q with state := .waiting }
  else match State.ringRead s Q.asid (p.f 255 192) (p.f 191 160) with
    | .error f => State.failPacket s q p.va f
    | .ok (s, args) =>
      match State.accept s (Grid.handed Q.asid 0 (p.f 127 64) (p.f 159 128) (p.f 395 392 + 1) (p.f 319 256)
          (p.f 383 320) p.va nbhd args (diesOf (p.f 391 384)) (some q) none) with
      | .ok (s, g) => State.consume { s with grids := s.grids ++ [g] } q p
      | .error (.access f) => State.failPacket s q p.va f
      | .error (.reason r) => State.faultPacket s q p r
      | .error .full => State.onQueue s q fun Q => { Q with state := .waiting }

/-- LAUNCH_PACKET (R349). -/
def execLaunchPacket (q : Nat) (s : State) : Out State :=
  State.serve s q 7 fun s Q p => State.servePacketLaunch s q Q p false

/-- NLAUNCH (R353). -/
def execNlaunch (q : Nat) (s : State) : Out State :=
  State.serve s q 8 fun s Q p => State.servePacketLaunch s q Q p true

/-! ### LAUNCH (R351) -/

/-- The word of a launch record or of the group that breaks R351, if one does. -/
def launchBad (rec counts len : Nat) : Option Nat :=
  let w (k : Nat) : Nat := bits rec (32 * k + 31) (32 * k)
  let badReserved (k : Nat) : Bool := (List.range 32).any fun i =>
    let b := 32 * k + i
    rec.testBit b && (206 ≤ b || (201 ≤ b && b ≤ 204) || (192 ≤ b && b ≤ 196))
  match (List.range 16).find? badReserved with
  | some k => some (w k)
  | none =>
    if bits rec 63 57 ≠ 0 then some (w 1)
    else if bits rec 127 121 ≠ 0 then some (w 3)
    else if bits rec 66 64 ≠ 0 then some (w 2)
    else if !countsRangeOk counts then some counts
    else if 4096 < len || len % 8 ≠ 0 then some len
    else if bits rec 205 205 = 1 && 24 < teamCount counts then some counts
    else none

/-- A launch record that R351 allows, made of one that it may not: an undefined value never causes a trap (R6).
DESIGN CHOICE: log 110. -/
def launchMend (rec counts : Nat) : Nat :=
  bits rec 56 0 + bits rec 120 67 * 2 ^ 67 + bits rec 191 128 * 2 ^ 128 + bits rec 200 197 * 2 ^ 197 +
    (if 24 < teamCount counts then 0 else bits rec 205 205 * 2 ^ 205)

/-- LAUNCH (R351). DEDUCED: log 62. -/
def execLaunch (a : Nat) (s : State) : Out State :=
  withFrag s fun c =>
    match State.gridOf? s c.warp with
    | none => .refused .noFragment
    | some g =>
      let x := (Warp.s c.warp a).toNat
      let counts := (Warp.s c.warp (a + 1)).toNat
      let y := (Warp.s c.warp (a + 2)).toNat
      let n := (Warp.s c.warp (a + 3)).toNat
      if c.warp.index ≠ 0 then Ctx.trap0 c s 11 2
      else if c.warp.idem then Ctx.trap0 c s 11 4
      else if g.depth = 10 then Ctx.trap0 c s 11 1
      else if x % 64 ≠ 0 then Ctx.trap c s (causeCode 3 5) (dword x)
      else if y % 8 ≠ 0 then Ctx.trap c s (causeCode 3 5) (dword y)
      else if g.scrLen < x + 64 then Ctx.trap c s (causeCode 3 1) (dword x)
      else if g.scrLen < y + n then Ctx.trap c s (causeCode 3 1) (dword y)
      else match State.chipRead s c.w c.warp .scratch x 64 c.warp.nextReq with
        | .later => Ctx.wait c (.ordered .scratch x 64 c.warp.nextReq) s
        | .ok t read =>
          let record := if State.openRead s c.w c.warp .scratch x 64 c.warp.nextReq then launchMend read counts else read
          let s := t
          match launchBad record counts n with
          | some v => Ctx.trap c s (causeCode 11 3) (dword v)
          | none =>
            match State.chipRead s c.w c.warp .scratch y n c.warp.nextReq with
            | .later => Ctx.wait c (.ordered .scratch y n c.warp.nextReq) s
            | .ok s args =>
              if 4096 ≤ State.liveGrids s then Ctx.wait c .grids s
              else
                let child := Grid.handed g.asid (g.depth + 1) (bits record 63 0) counts (bits record 200 197 + 1)
                  (bits record 127 64) (bits record 191 128) g.packet (bits record 205 205 = 1)
                  ((List.range n).map fun i => BitVec.ofNat 8 (args / 256 ^ i))
                  [dieOf (State.coreOf s c.warp)] g.queue ((s.teams[c.warp.team]?).map (·.grid))
                .next (Ctx.advance c 1 { s with grids := s.grids ++ [child] })

/-! ### Residency (R14) -/

/-- What the resident teams of a core hold: warps, vector registers, stacks, shared memory. -/
structure Load where
  warps   : Nat
  regs    : Nat
  spilled : Nat
  shared  : Nat
  deriving DecidableEq, Repr

/-- A load that grows by a warp. -/
def Load.warp (l : Load) (W : Warp) : Load :=
  if W.ended then l
  else { l with warps := l.warps + 1, regs := l.regs + W.nv, spilled := l.spilled + W.spillLen }

/-- What a core holds (R14): a warp that has ended has given its share back (R107, R280).
DESIGN CHOICE: log 82. -/
def State.coreLoad (s : State) (core : Nat) : Load :=
  s.teams.foldl (fun l T =>
    if T.status = .running && T.core = core then
      (T.warps.filterMap fun w => s.warps[w]?).foldl Load.warp { l with shared := l.shared + T.shLen }
    else l) ⟨0, 0, 0, 0⟩

/-- Whether one more team of a grid fits a core (R14). -/
def State.fits (s : State) (g : Grid) (core : Nat) : Bool :=
  let l := State.coreLoad s core
  l.warps + g.nwarps ≤ 32 && l.regs + g.nwarps * g.regs ≤ 4096 &&
    l.spilled + g.nwarps * g.spill ≤ 128 * 1024 && l.shared + g.shLen ≤ 512 * 1024

/-- The cores of a die (R11). -/
def coresOf (die : Nat) : List Nat := (List.range 80).map (80 * die + ·)

/-- The fitting core with the most free warp slots, of these the lowest (R352). -/
def State.bestCore (s : State) (g : Grid) (dies : List Nat) : Option Nat :=
  ((dies.flatMap coresOf).filter (State.fits s g)).foldl (fun best k =>
    match best with
    | none => some k
    | some b =>
      let lb := (State.coreLoad s b).warps
      let lk := (State.coreLoad s k).warps
      if lk < lb || (lk = lb && k < b) then some k else best) none

/-- The cores of a block, in the order of R353: `w` columns and `h` rows from a corner. -/
def blockCores (die w h row col : Nat) : List Nat :=
  (List.range (w * h)).map fun j => die * 80 + (row + j / w) * 8 + (col + j % w)

/-- The free rectangle for a neighbourhood (R353): least area, then least width, die, row, column; its
cores in the order of the team numbers. -/
def State.rectangle (s : State) (g : Grid) (dies : List Nat) : Option (List Nat) :=
  let n := teamCount g.counts
  ((List.range 81).filter (n ≤ ·)).findSome? fun area =>
    ((List.range 9).filter fun w => 1 ≤ w && area % w = 0 && area / w ≤ 10).findSome? fun w =>
      let h := area / w
      dies.findSome? fun die =>
        (List.range (11 - h)).findSome? fun row =>
          (List.range (9 - w)).findSome? fun col =>
            let cs := blockCores die w h row col
            if cs.all (State.fits s g) then some cs else none

/-! ### Placement (R352, R353) -/

/-- Whether a team is to start again after an abort (R332) and has been passed over at least `n` times since. -/
def State.restarts (s : State) (n t : Nat) : Bool :=
  match s.teams[t]? with
  | some T => T.status = .waiting && n ≤ T.passed
  | none => false

/-- Whether the teams of a grid that have never been placed have been passed over 4,096 times (R352). -/
def Grid.neglected (g : Grid) : Bool := g.placed < teamCount g.counts && 4096 ≤ g.passed

/-- The team of a grid that starts next, if it is one that is to start again after an abort (R332): the first of them, or
the first that has been passed over 4,096 times; none while only teams that have never been placed have been (R352). -/
def State.requeued (s : State) (g : Grid) : Option Nat :=
  match g.teams.find? (State.restarts s 4096) with
  | some t => some t
  | none => if Grid.neglected g then none else g.teams.find? (State.restarts s 0)

/-- The priority of a grid's queue; none where nothing of it is placed any more. DESIGN CHOICE: log 122, for
a HALTED queue. -/
def State.priority (s : State) (g : Grid) : Option Nat :=
  match g.queue with
  | none => none
  | some q =>
    let Q := State.queue s q
    if g.status = .live && Q.state ≠ .resetting then some Q.prio else none

/-- Whether a grid has a team to place (R352). -/
def State.unplaced (s : State) (g : Grid) : Bool :=
  (State.priority s g).isSome && (g.placed < teamCount g.counts || (State.requeued s g).isSome)

/-- The core that an aborted team of a neighbourhood has in its rectangle (R353). DEDUCED: log 60. -/
def State.ownCore (s : State) (g : Grid) : Option Nat :=
  ((State.requeued s g).bind fun t => s.teams[t]?).bind fun T =>
    if State.fits s g T.core then some T.core else none

/-- The cores that the next placement of a grid takes, on some dies (R352, R353). -/
def State.siteOf (s : State) (g : Grid) (dies : List Nat) : Option (List Nat) :=
  let on := g.dies.filter dies.contains
  if !State.unplaced s g then none
  else if !g.nbhd then (State.bestCore s g on).map fun k => [k]
  else if (State.requeued s g).isSome then (State.ownCore s g).map fun k => [k]
  else State.rectangle s g on

/-- Whether a team of a grid that has still to be placed has been passed over 4,096 times (R352). -/
def State.starved (s : State) (g : Grid) : Bool :=
  (State.priority s g).isSome && (Grid.neglected g || g.teams.any (State.restarts s 4096))

/-- The dies on which a grid's teams may be placed now: not those of a passed-over team of higher
priority, or of equal priority unless the grid's own team has been passed over too (R352). -/
def State.openDies (s : State) (gi : Nat) (g : Grid) : List Nat :=
  (List.range 8).filter fun die => !(s.grids.zipIdx.any fun x =>
    x.2 ≠ gi && State.starved s x.1 && x.1.dies.contains die &&
      match State.priority s x.1, State.priority s g with
      | some p, some mine => mine < p || (mine = p && !State.starved s g)
      | _, _ => false)

/-- The sites of the grids that can be placed now: grid, queue, priority, cores. -/
def State.sites (s : State) : List (Nat × Nat × Nat × List Nat) :=
  s.grids.zipIdx.filterMap fun x =>
    match x.1.queue, State.priority s x.1, State.siteOf s x.1 (State.openDies s x.2 x.1) with
    | some q, some p, some cs => some (x.2, q, p, cs)
    | _, _, _ => none

/-- How far a queue stands behind the last one served at its priority, round-robin (R352). -/
def behind (last : Option Nat) (q : Nat) : Nat :=
  match last with
  | some l => (q + 255 - l) % 256
  | none => q

/-- The site of a grid, if its queue is the one that the distributor serves next (R352). -/
def State.nextSite (s : State) (gi : Nat) : Option (Nat × Nat × List Nat) :=
  let all := State.sites s
  (all.find? fun x => x.1 = gi).bind fun (_, q, p, cs) =>
    let last := AMap.get? s.lastQueue p
    if all.all fun y => y.2.2.1 < p || (y.2.2.1 = p && behind last q ≤ behind last y.2.1) then some (q, p, cs)
    else none

/-- A team on a core without a grant for it turns the core's counters off, if another context has selected one
(R365). DEDUCED: log 73. -/
def State.ungrant (s : State) (core asid : Nat) : State :=
  let other := ((AMap.get? s.events core).getD []).any fun c => c.source.isSome && c.asid ≠ asid
  if other && !s.grants.contains (core, asid) then { s with events := AMap.erase s.events core } else s

/-- Team number `k` of a grid starts on a core (R53, R54, R352): all its warps together, on a fresh copy of
the shared image. `old` is the team's record if it has been placed before. -/
def State.startTeam (s : State) (gi : Nat) (g : Grid) (k core : Nat) (old : Option Nat) : State :=
  let (nx, ny, _) := countsOf g.counts
  let x := k % nx
  let y := k / nx % ny
  let z := k / (nx * ny)
  let t := old.getD s.teams.length
  let w0 := s.warps.length
  let launch (i : Nat) : List Word :=
    [word g.argOff, word x, word y, word z, word i, word g.counts, word core]
  let warps := (List.range g.nwarps).map fun i =>
    Warp.fresh t i g.regs g.spill (s.freeCount + i) g.idem (launch i)
  let T : Team :=
    { grid := gi, tx := x, ty := y, tz := z, status := .running, core := core,
      shm := Memory.writeBytes Memory.empty 0 g.shImg, shLen := g.shLen,
      warps := (List.range g.nwarps).map (w0 + ·) }
  let s := { s with
    freeCount := s.freeCount + g.nwarps,
    warps := s.warps ++ warps,
    rr := s.rr ++ (List.range g.nwarps).map fun i => (w0 + i, 0),
    teams := if old.isSome then s.teams.set t T else s.teams ++ [T] }
  let s := if old.isSome then s
    else State.onGrid s gi fun g => { g with teams := g.teams ++ [t], placed := g.placed + 1 }
  State.ungrant s core g.asid

/-- Whether a placement on a die passes a grid's teams over (R352, R353): it has one to place, that nothing of
its DIEMASK has room for. DEDUCED: log 59. -/
def State.missed (s : State) (gi die : Nat) (x : Grid × Nat) : Bool :=
  x.2 ≠ gi && State.unplaced s x.1 && x.1.dies.contains die && (State.siteOf s x.1 (List.range 8)).isNone

/-- The teams that `n` placements on a die pass over: those never placed, and those that wait to start again. -/
def State.passOver (s : State) (gi die n : Nat) : State :=
  let missed := s.grids.zipIdx.filter (State.missed s gi die)
  { s with
    grids := s.grids.zipIdx.map fun x =>
      if missed.any fun y => y.2 = x.2 then { x.1 with passed := x.1.passed + n } else x.1,
    teams := s.teams.map fun T =>
      if T.status = .waiting && missed.any fun y => y.2 = T.grid then { T with passed := T.passed + n } else T }

/-- The teams of a grid placed on its site (R352, R353). -/
def State.placeTeams (s : State) (gi : Nat) (g : Grid) (q p : Nat) (cs : List Nat) : State :=
  let old := State.requeued s g
  let n := if g.nbhd && old.isNone then teamCount g.counts else 1
  let s := State.passOver { s with lastQueue := AMap.set s.lastQueue p q } gi (dieOf (cs.headD 0)) n
  match old.bind fun t => (g.teams.findIdx? (· = t)).map fun k => (t, k) with
  | some (t, k) => State.startTeam s gi g k (cs.headD 0) (some t)
  | none =>
    ((List.range n).zip cs).foldl (fun s x => State.startTeam s gi g (g.placed + x.1) x.2 none) s

/-- A placement of a grid, of the kind asked for, in the distributor's order. -/
def placement (nbhd : Bool) (grid : Nat) (s : State) : Out State :=
  match s.grids[grid]?, State.nextSite s grid with
  | some g, some (q, p, cs) =>
    if (g.nbhd && (State.requeued s g).isNone) = nbhd then .next (State.placeTeams s grid g q p cs) else .next s
  | _, _ => .next s

/-- An access for a grid's acceptance or completion update fails (R349, R351, R370): a translation fault goes to
the supervisor, whose refusal is a queue fault; an uncorrectable granule is one at once. -/
def State.failGrid (s : State) (gi : Nat) (f : QFail) (fail : State → Nat → State) : State :=
  match f with
  | .unc pa => fail (State.countMain s pa) 0x05
  | .xlate f va =>
    State.report (State.onGrid (State.walked s f) gi fun g => { g with xl := some va }) .gridXlate
      [gi, XlFault.code f, va]

/-- The distributor accepts a child grid that has been handed to it, or halts its queue; it tries again once the
queue runs again (R351, R354). DEDUCED: log 62. -/
def State.acceptHanded (s : State) (gi : Nat) (g : Grid) (q : Nat) : State :=
  let Q := State.queue s q
  if Q.state = .halted || Q.state = .resetting || g.xl.isSome || 4096 ≤ State.liveGrids s then s
  else match State.accept s g with
    | .ok (s, g) => State.onGrid s gi fun _ => g
    | .error .full => s
    | .error (.reason r) => State.haltQueue s q r g.packet
    | .error (.access f) => State.failGrid s gi f fun s r => State.haltQueue s q r g.packet

/-- TEAM_PLACE: the distributor accepts a child grid handed to it (R351), or places the next team of a grid on a
core and its warps start (R14, R54, R352). DESIGN CHOICE: log 58. -/
def execTeamPlace (grid : Nat) (s : State) : Out State :=
  match (s.grids[grid]?).bind fun g => if g.status = .offered then g.queue.map fun q => (g, q) else none with
  | some (g, q) => .next (State.acceptHanded s grid g q)
  | none => placement false grid s

/-- NBHD_PLACE: the distributor places a whole neighbourhood on a free rectangle (R353). -/
def execNbhdPlace (grid : Nat) (s : State) : Out State := placement true grid s

/-! ### The end of warps and grids (R107, R350) -/

/-- Whether a warp can end (R107): no fragment, run or request is left, and no trap is due. A trap that is
held while the handler ends its last fragment never becomes due (R316). -/
def Warp.finished (W : Warp) : Bool :=
  !W.killed && !W.ended && (Warp.live W).isEmpty && W.queue.isEmpty && W.exec.isNone && W.reqs.isEmpty &&
    (Warp.dueAsync W).isNone && W.laneTrap.isNone

/-- A team whose warps have all ended has ended (R280). -/
def State.endTeam (s : State) (t : Nat) : State :=
  State.onTeam s t fun T =>
    if T.status = .running && T.warps.all fun w =>
        match s.warps[w]? with
        | some W => W.ended
        | none => true
    then { T with status := .ended } else T

/-- WARP_END: a warp that is done ends: its array is released as by MREL once its operations have retired, and
a matrix failure that no MWAIT has reported goes to the supervisor and halts the queue (R107, R209, R354). Its
multicast records stay as they are (R312). A team of which only waiting warps are left may be stalled (R176). -/
def execWarpEnd (w : Nat) (s : State) : Out State :=
  match State.warp? s w with
  | none => .next s
  | some W =>
    if !State.active s W || !Warp.finished W then .next s
    else
      let core := State.coreOf s W
      let s := match W.mfail with
        | some f => State.haltWarp (State.report (State.killOps s w) .matrixFail [w, f.cause, f.tval]) W 0x0B
        | none => s
      let s := State.setWarp { s with rr := s.rr.filter fun e => e.1 != w } w
        { W with ended := true, mfail := none, arrivals := [] }
      .next (State.reportStall (State.endTeam (State.releaseEnded s core) W.team) W.team)

/-- Whether an operation of a warp of a set is still in an array. -/
def State.opsLeft (s : State) (mine : Nat → Bool) : Bool := s.arrays.any fun a => a.2.ops.any fun o => mine o.w

/-- Whether everything of a grid is done (R350): all teams placed and ended, their matrix operations
retired, and every child retired. -/
def State.gridDone (s : State) (gi : Nat) (g : Grid) : Bool :=
  let teams := g.teams.filterMap fun t => s.teams[t]?
  g.placed = teamCount g.counts && (teams.all fun T => T.status = .ended) &&
    !(State.opsLeft s fun w => teams.any fun T => T.warps.contains w) &&
    s.grids.all fun c => c.parent ≠ some gi || !(c.status = .live || c.status = .offered)

/-- A grid retires: its scratchpad is freed, and its queue may have nothing left to do. DESIGN CHOICE: log
117, a stream with its ring there stays bound. -/
def State.retireGrid (s : State) (gi q : Nat) (st : GridStatus) : State :=
  State.settle (State.onGrid s gi fun g => { g with status := st, scr := [] }) q

/-- A grid's completion update fails (R370): it has otherwise retired, and its queue halts. -/
def State.failUpdate (s : State) (gi q : Nat) (g : Grid) (reason : Nat) : State :=
  State.haltQueue (State.retireGrid s gi q .unsignalled) q reason g.packet

/-- The supervisor's answer to a reported fault of a grid (R349, R351, R370): the access is performed again, or the
refusal is the queue's fault 0x04. A child grid that is still to be accepted waits while its queue is HALTED. -/
def State.gridReply (s : State) (gi : Nat) (resolved : Bool) : State :=
  match (s.grids[gi]?).bind fun g => g.xl.bind fun _ => g.queue.map fun q => (g, q) with
  | none => s
  | some (g, q) =>
    let s := State.onGrid s gi fun g => { g with xl := none }
    if resolved then s
    else if g.status ≠ .offered then State.failUpdate s gi q g 0x04
    else if (State.queue s q).state = .halted then s
    else State.haltQueue s q 0x04 g.packet

/-- GRID_RETIRE: a grid whose work is done retires: A and D of its context are set, its signal is updated,
its scratchpad is freed (R329, R350); a failed update is performed again once its queue runs (R370). -/
def execGridRetire (grid : Nat) (s : State) : Out State :=
  match s.grids[grid]? with
  | none => .next s
  | some g =>
    match g.queue with
    | none => .next s
    | some q =>
      let again := g.status = .unsignalled && (State.queue s q).state = .running
      if (State.queue s q).state = .resetting || g.xl.isSome then .next s
      else if !(again || (g.status = .live && State.gridDone s grid g)) then .next s
      else
        let s := if again then s else State.flushAD s fun e => e.asid = g.asid
        if g.sigVA = 0 then .next (State.retireGrid s grid q .retired)
        else match State.signalAt s .ringmaster g.asid g.sigVA true with
          | .error f =>
            .next (State.failGrid s grid f fun s r => State.failUpdate s grid q g r)
          | .ok (s, pa) =>
            .next (State.retireGrid (State.putSignal s pa g.sigVal true) grid q .retired)

/-- The supervisor's answer to an aborted idempotent team (R332): it starts again from its start, or the
queue gets a fault report. DEDUCED: log 63. -/
def State.idemReply (s : State) (t : Nat) (requeue : Bool) : State :=
  match s.teams[t]? with
  | none => s
  | some T =>
    if T.status ≠ .aborted then s
    else if requeue then State.onTeam s t fun T => { T with status := .waiting, passed := 0 }
    else match (s.grids[T.grid]?).bind fun g => g.queue.map fun q => (q, g.packet) with
      | some (q, va) => State.report s .queueFault [q, va]
      | none => s

end Sys2Proof.Machine
end

