-- ==== Sys2Proof/Machine/Preempt.lean ====
section
/-! DEFINITION. Pre-emption and resumption of teams, swapping out parked teams, and shoot-downs (R118,
R124, R180, R190, R211, R227, R248, R267, R304, R325 to R331, R368). -/
namespace Sys2Proof.Machine

/-! ### Stopping (R325, R368) -/

/-- Whether a warp is ready to be saved (R118, R124, R160, R180, R250, R325): no fragment is inside an
instruction that completes first, no run executes but one held at its TRAIL, and every request is
performed that has to be. -/
def Warp.savable (W : Warp) : Bool :=
  let W := Warp.returnHeld W
  W.exec.isNone &&
    !((Warp.live W).any fun e => Warp.finishes W e.2) &&
    W.reqs.all fun r =>
      match r.path with
      | .fb => true
      | _ => r.done || (Req.command? r).isSome

/-- Whether a warp has matrix operations left of an ownership that has ended. -/
def State.strayOps (s : State) (w : Nat) (W : Warp) : Bool :=
  s.arrays.any fun a => a.2.ops.any fun o =>
    o.w = w && match State.owned s w W with
      | some h => o.session ≠ h.session
      | none => true

/-- What a warp's fragments wait in given up, entry by entry (R368): a fragment at its join stays there. -/
def State.takeFrags (s : State) (w : Nat) : State :=
  (List.range 32).foldl (fun s i =>
    match (State.warp? s w).bind fun W => (Warp.frag? W i).map fun f => (W, f) with
    | none => s
    | some (W, f) =>
      if f.wait = .atJoin || f.wait = .ready then s
      else State.onWarp (State.leaveWait s w W i) w fun W => Warp.abandonWait W i) s

/-- An EQREL that starts again from element 0 (R248). DESIGN CHOICE: log 66. -/
def EqRel.restart (e : EqRel) : EqRel :=
  { e with roots := none, classes := [], pos := 0, acc := [], done := [], bytes := 0 }

/-- The destination bytes that a stopped EQREL has written: undefined until its final pass (R248). -/
def EqRel.stale (s : State) (W : Warp) (e : EqRel) : List Where :=
  ((List.range (EqRel.count e)).filter fun i =>
      e.done.contains ((End.addr e.dst + i * EqRel.es e) / 32)).flatMap fun i =>
    (List.range (EqRel.es e)).filterMap fun j => State.peek s W (End.add e.dst (i * EqRel.es e + j))

/-- A command of a warp that stops with its team (R180, R190, R248). -/
def State.stopForSave (s : State) (w : Nat) (r : Req) : State :=
  match State.warp? s w, Req.command? r with
  | some W, some c =>
    if r.done then s
    else match c.work with
      | .eqrel e =>
        State.setCommand (State.scramble s w (EqRel.stale s W e)) w r
          { c with work := .eqrel (EqRel.restart e), stop := .running }
      | work => State.setCommand s w r { c with work := CopyWork.rewind work }
  | _, _ => s

/-- The contents of an array for an owner (R211): every tile register, and its slots in order. -/
def MArray.contents (a : MArray) (phys : List Nat) : MStore :=
  { tiles := (List.range 16).map fun t => (t, MArray.tile a t), slots := phys.map (MArray.slot a) }

/-- The matrix state of an owner saved with its image, and its ownership ended (R211). DEDUCED: log 65. -/
def State.saveArray (s : State) (w : Nat) (W : Warp) : State :=
  match State.owned s w W with
  | none => s
  | some h =>
    let core := State.coreOf s W
    let a := MArray.enter (State.array s core) h.session h.phys
    let follower := match h.follower with
      | none => none
      | some f =>
        let b := State.array s f
        let phys := match b.hold with
          | some x => x.phys
          | none => []
        some (MArray.contents (MArray.enter b (h.session + 512) phys) phys)
    let img : MImage :=
      { n := h.phys.length, leader := MArray.contents a h.phys, follower := follower,
        ops := (a.ops.filter fun o => o.w = w).map fun o => { o with fault := none } }
    State.dropArrays (State.onWarp s w fun W => { W with mimage := some img }) (· = w)

/-- A warp of a team that is being saved, stopped (R325). DESIGN CHOICE: log 120, for CYCH. -/
def State.saveWarp (s : State) (w : Nat) : State :=
  let s := State.takeFrags (State.onWarp s w Warp.returnHeld) w
  match State.warp? s w with
  | none => s
  | some W => State.saveArray (W.reqs.foldl (fun s r => State.stopForSave s w r) s) w W

/-- The warps of a team that have not ended. -/
def State.members (s : State) (T : Team) : List (Nat × Warp) :=
  T.warps.filterMap fun w => (State.warp? s w).bind fun W => if W.ended then none else some (w, W)

/-- A team stopped and its image saved (R325). -/
def State.saveTeam (s : State) (t : Nat) (T : Team) : State :=
  State.onTeam ((State.members s T).foldl (fun s x => State.saveWarp s x.1) s) t
    fun T => { T with status := .saved }

/-- PREEMPT: the team is taken from its core, once every warp of it can be saved (R325): none that still waits for the array
of its image, for one. DEDUCED: log 64. -/
def execPreempt (team : Nat) (s : State) : Out State :=
  match s.teams[team]? with
  | none => .next s
  | some T =>
    if T.status = .running && (State.members s T).all fun x =>
        x.2.mimage.isNone && Warp.savable x.2 && !State.strayOps s x.1 x.2 then
      .next (State.saveTeam s team T)
    else .next s

/-! ### Parked teams (R304) -/

/-- Whether a fragment waits only for FB (R304). -/
def State.waitsOnFb (s : State) (w : Nat) (W : Warp) (f : Frag) : Bool :=
  match f.wait with
  | .counter p _ => p = .fb
  | .fquiet runs => !Warp.uncommitted W runs fun _ => true
  | .fence scope set mask runs reqs =>
    !(Warp.uncommitted W runs fun _ => true) &&
      W.reqs.all fun r => !State.fenced s w W r scope set mask (reqs.getD W.nextReq) || r.path = .fb
  | _ => false

/-- Whether a warp is parked (R304): it waits for FB alone, and each of its FB requests is for a peer that a
hint to its die names. -/
def State.parked (s : State) (w : Nat) (W : Warp) : Bool :=
  let hinted (peer : Nat) : Bool :=
    s.hints.any fun h => dieOfPort h.1 = dieOf (State.coreOf s W) && h.2 = peer
  ((Warp.live W).all fun e => State.waitsOnFb s w W e.2) &&
    W.reqs.all fun r =>
      r.path ≠ .fb || match r.op with
        | .fax peer _ _ _ _ => hinted peer
        | .toksend _ peer _ _ _ => hinted peer
        | _ => false

/-- PARKED_SWAP_OUT: a team all of whose warps are parked gives its core up, when another team is queued for
it (R304). -/
def execParkedSwapOut (team : Nat) (s : State) : Out State :=
  match s.teams[team]? with
  | none => .next s
  | some T =>
    let queued := s.grids.any fun g => State.unplaced s g && g.dies.contains (dieOf T.core)
    if queued && T.status = .running && !(State.members s T).isEmpty && (State.members s T).all fun x =>
        State.parked s x.1 x.2 && x.2.mimage.isNone && Warp.savable x.2 && !State.strayOps s x.1 x.2 then
      .next (State.saveTeam s team T)
    else .next s

/-! ### Resuming (R211, R304, R327, R353) -/

/-- Whether a saved team may resume: its grid lives, and every FB counter in its image is zero (R304,
R325). -/
def State.resumable (s : State) (T : Team) : Bool :=
  T.status = .saved && (State.members s T).all fun x => Warp.counter x.2 .fb = 0

/-- Whether a core suits a saved team: a pair leader needs a neighbour (R327), and its unretired copies need
command places (R168). -/
def State.suits (s : State) (T : Team) (core : Nat) : Bool :=
  ((neighbour core).isSome || (State.members s T).all fun x =>
    match x.2.mimage with
    | some img => img.follower.isNone
    | none => true) &&
  State.commands s core + ((State.members s T).map fun x => Warp.commands x.2).sum ≤ 32

/-- A team resident again: owners wait at the head of their array's queue, behind the current owner, before
any of their fragments issues (R211, R327). -/
def State.resumeTeam (s : State) (asid t : Nat) (T : Team) (core : Nat) : State :=
  let s := State.onTeam s t fun T => { T with status := .running, core := core }
  let s := (State.members s T).foldl (fun s x =>
    match x.2.mimage with
    | none => s
    | some img =>
      State.onArray s core fun a =>
        { a with waiters := { w := x.1, slot := 0, n := img.n, d := 0, pair := img.follower.isSome,
                              leader := none, resume := true } :: a.waiters }) s
  State.ungrant s core asid

/-- The teams of a neighbourhood that have not ended, with their places in it. -/
def State.neighbours (s : State) (g : Grid) : List (Nat × Nat × Team) :=
  g.teams.zipIdx.filterMap fun x =>
    (s.teams[x.1]?).bind fun T => if T.status = .ended then none else some (x.2, x.1, T)

/-- TEAM_RESUME: a saved team continues on a core that it fits; a neighbourhood resumes whole, on a new
rectangle in which the team's core is the one named (R327, R353). DESIGN CHOICE: log 121, a resume is no
placement. -/
def execTeamResume (team core : Nat) (s : State) : Out State :=
  match (s.teams[team]?).bind fun T => (s.grids[T.grid]?).map fun g => (T, g) with
  | none => .next s
  | some (T, g) =>
    let live := g.status = .live && match g.queue with
      | some q => (State.queue s q).state ≠ .resetting
      | none => true
    if !live || !State.resumable s T then .next s
    else if !g.nbhd then
      if (g.dies.isEmpty || g.dies.contains (dieOf core)) && State.fits s g core && State.suits s T core then
        .next (State.resumeTeam s g.asid team T core)
      else .next s
    else
      let all := State.neighbours s g
      match State.rectangle s g g.dies with
      | none => .next s
      | some cs =>
        if all.all fun x => State.resumable s x.2.2 && State.suits s x.2.2 (cs[x.1]?.getD 0) &&
            (x.2.1 ≠ team || cs[x.1]? = some core) then
          .next (all.foldl (fun s x => State.resumeTeam s g.asid x.2.1 x.2.2 (cs[x.1]?.getD 0)) s)
        else .next s

/-! ### Shoot-downs (R329, R331) -/

/-- Whether a request holds an address of a range that has been translated and not accessed: GATH and SCAT
translate when their run executes. -/
def Req.translated (r : Req) (va n : Nat) : Bool :=
  match r.op with
  | .gath _ _ => r.todo.any fun it => it.addr.toNat < va + n && va < it.addr.toNat + 32
  | .scat => r.todo.any fun it => it.addr.toNat < va + n && va < it.addr.toNat + 32
  | _ => false

/-- Whether an access that was translated for addresses of a range has still to be performed (R331), by a warp or by the
hub copy engine. -/
def State.outstanding (s : State) (asid va n : Nat) : Bool :=
  (s.hubCopies.any fun e => e.2.asid = asid &&
    e.2.ready.any fun r => 32 * r.1 < va + n && va < 32 * r.1 + 32) || s.warps.any fun W => State.asidOf s W = asid &&
    ((W.reqs.any fun r => Req.translated r va n) || match W.exec with
      | some e => e.reqs.any fun r => Req.translated r va n
      | none => false)

/-- Whether an access that was translated with one of the named entries has still to be performed (R331), wherever in the
entry's page it goes. -/
def State.inFlight (s : State) (asid : Nat) (sel : TlbEntry → Bool) : Bool :=
  s.tlb.any fun e => sel e && State.outstanding s asid e.va e.size

/-- A command of the translation page under way, if it is `code` (R331). -/
def State.xlCommand (s : State) (code : Nat) : Option Nat :=
  s.xlRegs.pending.bind fun x => if x % 256 = code then some x else none

/-- A command of the translation page completes. -/
def State.xlDone (s : State) : State := { s with xlRegs := { s.xlRegs with pending := none, res := 0 } }

/-- A shoot-down of the entries of an ASID that meet a range: once no access that was translated with them is
outstanding, every agent drops them after setting their A and D (R331), and an unmapping has taken effect
(R75). -/
def State.shoot (s : State) (asid va n : Nat) : State :=
  let sel (e : TlbEntry) : Bool := e.asid = asid && e.va < va + n && va < e.va + e.size
  if State.inFlight s asid sel then s
  else
    let t := State.flushAD s sel
    State.xlDone (State.pruneMaps s { t with tlb := t.tlb.filter fun e => !sel e })

/-- SHOOT_RANGE: every agent drops the entries that meet a range (R331). -/
def execShootRange (s : State) : Out State :=
  match State.xlCommand s 1 with
  | none => .next s
  | some x => .next (State.shoot s (bits x 31 16) s.xlRegs.arg0 s.xlRegs.arg1)

/-- SHOOT_ASID: every agent drops the entries of an ASID (R331). -/
def execShootAsid (s : State) : Out State :=
  match State.xlCommand s 2 with
  | none => .next s
  | some x => .next (State.shoot s (bits x 31 16) 0 (2 ^ 57))

/-- FLUSHAD: every TLB sets A and D for an ASID, once no access that was translated with its entries is outstanding
(R331). The entries stay: only a SHOOT drops them. DEDUCED: log 103. -/
def execFlushad (s : State) : Out State :=
  match State.xlCommand s 3 with
  | none => .next s
  | some x =>
    let sel (e : TlbEntry) : Bool := e.asid = bits x 31 16
    .next (if State.inFlight s (bits x 31 16) sel then s else State.xlDone (State.flushAD s sel))

end Sys2Proof.Machine
end

