-- ==== Sys2Proof/Machine/Scan.lean ====
section
/-! DEFINITION. The executable-page scanner (R68 to R72, R367). -/
namespace Sys2Proof.Machine

/-- The lower of two reasons, either of which may be absent (R367). -/
def lowerReason (a b : Option Reason) : Option Reason :=
  match a, b with
  | none, b => b
  | a, none => a
  | some x, some y => if Reason.code y < Reason.code x then some y else some x

/-- A reason if a condition holds. -/
def reasonIf (b : Bool) (r : Reason) : Option Reason := if b then some r else none

/-! ### Scalar units -/

/-- The starts of instructions of a scalar unit as word numbers, from word i, with fuel. -/
def scalarStarts (word : Nat → Nat) (n : Nat) : (fuel i : Nat) → List Nat
  | 0, _ => []
  | f + 1, i => if n ≤ i then [] else i :: scalarStarts word n f (i + scalarLength (word i))

/-- The static targets of an instruction, as word offsets from its first word (R70). -/
def staticTargets : Instr → List Int
  | .br off => [off]
  | .beqz _ off => [off]
  | .bnez _ off => [off]
  | .bltz _ off => [off]
  | .bgez _ off => [off]
  | .call _ off => [off]
  | .loop _ off => [off]
  | .brv _ _ off join => [off, join]
  | _ => []

/-- The run that an LRUN names. -/
def runField? : Instr → Option Nat
  | .lrun run _ _ _ _ _ _ => some run
  | _ => none

/-- What a scalar word breaks: the lowest reason of its own rules, its static targets and its run field
(R70, R71, R367). -/
def scalarWordReason (word : Nat → Nat) (n : Nat) (starts runs : List Nat) (i : Nat) : Option Reason :=
  match decodeScalar (word i) (if i + 1 < n then some (word (i + 1)) else none) with
  | .error r => some r
  | .ok ins =>
    let out := (staticTargets ins).any fun off =>
      let t := (i : Int) + off
      0 ≤ t && t < n && !starts.contains t.toNat
    let run := match runField? ins with
      | some r => !runs.contains r
      | none => false
    lowerReason (reasonIf out .target) (reasonIf run .runField)

/-- The first violation of a scalar unit of n words: the word and the reason. -/
def scanScalar (word : Nat → Nat) (n : Nat) (runs : List Nat) : List Nat × Option (Nat × Reason) :=
  let starts := scalarStarts word n n 0
  (starts, starts.findSome? fun i => (scalarWordReason word n starts runs i).map fun r => (i, r))

/-! ### Lane units -/

/-- The row of a slot's opcode, type and modifier. -/
def RawSlot.row? (s : RawSlot) : Option LaneRow := (tyOfCode s.ty).bind fun t => laneRow s.op s.fn t

/-- Whether a later instruction of the run may read a slot's latch (R66, R68). -/
def RawSlot.latched (s : RawSlot) : Bool :=
  match RawSlot.row? s with
  | some r => r.dest != .nothing && !r.long
  | none => false

/-- The latches that a slot reads. -/
def RawSlot.latches (s : RawSlot) : List Nat :=
  match RawSlot.row? s with
  | none => []
  | some r =>
    ([(r.a, s.a), (r.b, s.b), (r.c, s.c)].filter fun x => x.1 != .unread).filterMap fun x =>
      match srcOfField x.2 with
      | some (.q k) => some k
      | _ => none

/-- The highest vector register that a slot names, explicitly or implicitly (R67, R72). -/
def RawSlot.top (s : RawSlot) : Nat :=
  match tyOfCode s.ty, RawSlot.row? s with
  | some t, some r =>
    let wide (t : LaneTy) : Nat := if wideTy t then 1 else 0
    let t' := if s.op = 0x080 then (tyOfCode (s.w2 % 32)).getD t else t
    let src (u : SrcUse) (f : Nat) : Nat :=
      if u = .unread || 256 ≤ f then 0 else if u = .vec8 then f + 7 else f + wide t'
    let d := if s.nw = 1 then 0 else match r.dest with
      | .nothing => 0
      | .predicate => 0
      | .reg => s.d + wide t
      | .group n => s.d + (n - 1)
    let cas := (s.op = 0x0E6 || s.op = 0x0E7) && s.fn = 7 || s.op = 0x110 && s.fn = 15
    let c := src r.c s.c + (if cas && s.c < 256 then (if wideTy t then 2 else 1) else 0)
    Max.max d (Max.max (src r.a s.a) (Max.max (src r.b s.b) c))
  | _, _ => 0

/-- What a slot breaks as instruction k of a run whose earlier instructions are `run`, `last` of the
unit (R71, R367). -/
def laneSlotReason (run : List RawSlot) (s : RawSlot) (zero last : Bool) : Option Reason :=
  let k := run.length
  if zero then some .noTrail
  else
    let late := (RawSlot.latches s).any fun j => k ≤ j
    let long := (RawSlot.latches s).any fun j => match run[j]? with
      | some x => !RawSlot.latched x
      | none => false
    lowerReason (laneReason s) (lowerReason (reasonIf (24 ≤ k) .runLong)
      (lowerReason (reasonIf (last && s.op != 0x3C0) .noTrail)
        (lowerReason (reasonIf late .latchLate) (reasonIf long .latchLong))))

/-- The scan of a lane unit from slot i, inside the run whose instructions so far are `run`; fuel is the
number of slots left. Answers the run starts, the highest register, and the first violation. -/
def scanLane (slot : Nat → Nat × Nat × Nat) :
    (fuel i : Nat) → (run : List RawSlot) → List Nat × Nat × Option (Nat × Reason)
  | 0, _, _ => ([], 0, none)
  | f + 1, i, run =>
    let (w0, w1, w2) := slot i
    let zero := w0 = 0 && w1 = 0 && w2 = 0
    if run.isEmpty && zero then scanLane slot f (i + 1) []
    else
      let s := rawOfWords w0 w1 w2
      match laneSlotReason run s zero (f = 0) with
      | some r => ([], 0, some (i, r))
      | none =>
        let (starts, top, bad) := scanLane slot f (i + 1) (if s.op = 0x3C0 then [] else run ++ [s])
        (if run.isEmpty then i :: starts else starts, Max.max (RawSlot.top s) top, bad)

/-! ### The request (R69, R72) -/

/-- A report (R72). -/
def scanReport (lane : Bool) (reason offset page vhigh : Nat) : Nat :=
  vhigh * 2 ^ 120 + (if lane then 2 ^ 112 else 0) + reason * 2 ^ 96 + offset * 2 ^ 64 + page

/-- Whether a scanner can take `n` bytes of a page: it is mapped, no longer writable (R69, R75), and nothing
of them is uncorrectable (R25). -/
def State.scannable (s : State) (asid va n : Nat) : Bool :=
  match State.leafOf s asid va with
  | none => false
  | some (level, leaf) =>
    !State.writable s asid va && !Memory.uncorrectable s.main (bits leaf 51 8 * 2 ^ 8 + va % pageSize level) n

/-- The first address of a unit, by its 64 KiB pages, that the scanner cannot take, if any. -/
def State.unitFault (s : State) (asid va len : Nat) : Option Nat :=
  ((List.range ((len + 65535) / 65536)).map fun k => va + 65536 * k).find? fun a =>
    !State.scannable s asid a (Min.min 65536 (va + len - a))

/-- Whether every page of a unit can be read by the scanner. -/
def State.unitMapped (s : State) (asid va len : Nat) : Bool := (State.unitFault s asid va len).isNone

/-- A word of a unit, as its pages hold it. -/
def State.unitWord (s : State) (asid va k : Nat) : Nat :=
  match State.physOf s asid (va + 4 * k) with
  | some pa => Memory.read s.main pa 4
  | none => 0

/-- The run starts of the partner lane unit, if its mapping is in place, no page of it unmapped since (R71, R75). -/
def State.partnerRuns (s : State) (asid : Nat) (partner : Option Nat) : List Nat :=
  match partner with
  | none => []
  | some va =>
    match s.execMaps.reverse.find? fun m => m.asid = asid && m.va = va && m.lane with
    | some m => if m.gone.isEmpty then m.starts else []
    | none => []

/-- Whether a scanner may serve a request now: a die's requests are served in the order in which they
arrived (R69). One that nothing has announced arrives as it is served. -/
def State.scanTurn (s : State) (req : ScanReq) : Bool :=
  match s.scans.find? fun x => x.2 = req with
  | none => true
  | some (die, _) => (s.scans.find? fun x => x.1 = die) = some (die, req)

/-- A request's scan has ended (R69). -/
def State.endScan (s : State) (req : ScanReq) : State :=
  { s with scans := s.scans.eraseP fun x => x.2 = req }

/-- A scan's report written and sent (R72): reason, the page and the offset in it, VHIGH. -/
def State.scanEnds (s : State) (req : ScanReq) (reason page offset vhigh : Nat) : State :=
  State.report
    (State.putMain s req.report 16 (scanReport req.lane reason offset page vhigh)) .scan
    [req.asid, page, if req.lane then 1 else 0, reason, offset, vhigh]

/-- SCAN_REQUEST: a scanner reads a unit, maps it if it breaks nothing, and writes and sends its
report (R69 to R72). A unit that it cannot read is not mapped, with a reason that no rule names. The bytes
behind a lane unit's last whole slot are no part of a slot (R68). DEDUCED: log 44. -/
def execScanRequest (req : ScanReq) (s : State) : Out State :=
  if !State.scanTurn s req then .next s
  else match State.unitFault s req.asid req.va req.len with
  | some at_ =>
    let page := State.pageBase s req.asid at_
    let (s, v) := State.free (State.endScan s req)
    let (s, u) := State.free s
    .next (State.scanEnds s req (v.toNat % 0xFFFF + 1) page u.toNat 0)
  | none =>
    let w := State.unitWord s req.asid req.va
    let (starts, vhigh, bad, unit) :=
      if req.lane then
        let slot (i : Nat) : Nat × Nat × Nat := (w (3 * i), w (3 * i + 1), w (3 * i + 2))
        let (starts, top, bad) := scanLane slot (req.len / 12) 0 []
        (starts, top, bad, 12)
      else
        let (starts, bad) := scanScalar w (req.len / 4) (State.partnerRuns s req.asid req.partner)
        (starts, 0, bad, 4)
    match bad with
    | some (i, r) =>
      let at_ := req.va + unit * i
      let page := State.pageBase s req.asid at_
      .next (State.scanEnds (State.endScan s req) req (Reason.code r) page (at_ - page) 0)
    | none =>
      let page := State.pageBase s req.asid req.va
      let s := State.endScan { s with execMaps := s.execMaps ++
        [{ asid := req.asid, va := req.va, len := req.len, lane := req.lane, starts := starts, vhigh := vhigh }] } req
      .next (State.scanEnds s req 0 page 0 vhigh)

end Sys2Proof.Machine
end

