-- ==== Sys2Proof/Machine/Device.lean ====
section
/-! DEFINITION. The module: event counters, boot, attestation, errors, heartbeats and quorum reset, and
the writes of the supervisor, the general cores and the hosts (R339, R341, R356 to R366). -/
namespace Sys2Proof.Machine

/-! ### Event counters (R365) -/

/-- The eight counters of a core; off until they are selected. -/
def State.counters (s : State) (core : Nat) : List EvCounter :=
  (AMap.get? s.events core).getD (List.replicate 8 ⟨none, 0, 0⟩)

/-- Whether a fragment's context may use its core's counters. -/
def State.granted (s : State) (c : Ctx) : Bool :=
  s.grants.contains (State.coreOf s c.warp, State.asidOf s c.warp)

/-- EVSEL (R365). -/
def execEvsel (k b : Nat) (s : State) : Out State :=
  withFrag s fun c =>
    if !State.granted s c then .next (Ctx.advance c 1 s)
    else
      let core := State.coreOf s c.warp
      let x := (Warp.s c.warp b).toNat
      let e : EvCounter := ⟨if x ≤ 9 then some x else none, 0, State.asidOf s c.warp⟩
      .next (Ctx.advance c 1 { s with events := AMap.set s.events core ((State.counters s core).set k e) })

/-- Whether a source counts cycles, which no step of this model has. -/
def uncounted (source : Nat) : Bool := source = 0 || source = 7 || source = 9

/-- EVRD (R365): all 48 bits at one instant. A count of cycles has no value in a model without time
(log 13). -/
def execEvrd (d k : Nat) (s : State) : Out State :=
  withFrag s fun c =>
    let e := ((State.counters s (State.coreOf s c.warp))[k]?).getD ⟨none, 0, 0⟩
    let (s, v) := match e.source with
      | none => (s, 0)
      | some src =>
        if uncounted src then
          let (s, lo) := State.free s
          let (s, hi) := State.free s
          (s, lo.toNat + hi.toNat % 2 ^ 16 * 2 ^ 32)
        else (s, e.count)
    let v := if State.granted s c then v else 0
    .next (Ctx.advance c 1 (Ctx.on c s fun W =>
      Warp.setGroup W d [word (v % 2 ^ 32), word (v / 2 ^ 32)]))

/-! ### Boot (R356) -/

/-- The device as it is when its dies have been reset: only the always-on island keeps what it holds
(R363, R364). The schedule, the counter of free values and the peers' ports are no part of it. DESIGN CHOICE: log 71. -/
def State.cold (s : State) (isle : Island) : State :=
  { State.reset with agenda := s.agenda, freeCount := s.freeCount, peers := s.peers, island := isle }

/-- The SHAKE256 digest of bytes, 64 bytes as a number (R357). -/
def digestOf (m : List Byte) : Nat := numOfBytes ((List.range 64).map (Config.shake256 m))

/-- The bytes of a signature by SLH-DSA-SHAKE-256s (R356). -/
def sigBytes : Nat := 29792

/-- Whether something signed verifies against the fused digest of the public key (R356). -/
def Signed.ok (x : Signed) : Bool :=
  decide (x.sig.length = sigBytes) && ((List.range 64).all fun i => Config.shake256 x.key i = Config.fusedDigest i) &&
    Config.slhVerify x.key x.image x.sig

/-- Whether a slot's header gives the length of its image, which lies behind the 64 KiB of the header in the 256 MiB of the
slot (R356). -/
def BootSlot.fits (b : BootSlot) : Bool := decide (b.boot.image.length = b.len) && decide (b.len ≤ 2 ^ 28 - 2 ^ 16)

/-- Why a flash slot is not accepted: 1 the signature over the image that the header names, 2 the version. -/
def BootSlot.reason (b : BootSlot) (least : Nat) : Nat :=
  if !(BootSlot.fits b && Signed.ok b.boot) then 1 else if b.version < least then 2 else 0

/-- BOOT: the island accepts the first of the two flash slots that passes its checks, derives its identity
key and releases the hub die, or reports BOOTFAIL (R356, R357). -/
def execBoot (slots : List BootSlot) (s : State) : Out State :=
  let isle := s.island
  if isle.booted || slots.length ≠ 2 then .next s
  else match slots.zipIdx.find? fun x => BootSlot.reason x.1 isle.fusedMin = 0 with
    | none => .next (State.report s .bootFail (slots.map fun b => BootSlot.reason b isle.fusedMin))
    | some (b, k) =>
      .next { s with island :=
        { isle with booted := true, slot := k, version := b.version, digest := digestOf b.boot.image,
                    firmware := 0, loaded := false, extended := 0,
                    idkey := numOfBytes ((List.range 64).map Config.identityKey) } }

/-! ### The health page (R357 to R360) -/

/-- A DIEEV counter of a die as it is read: the dropped packets and the engine operations have been counted. Ring flits and HBM
accesses have not: the general cores cause them from the boot on, which releases them (R356), and the counters are zero
before and undefined values after. DESIGN CHOICE: log 29. -/
def State.readDieev (s : State) (die k : Nat) : State × Nat :=
  if k = Config.dropCounter.val || k = engineEvents || !s.island.booted then
    (s, ((State.healthOf s die).dieev[k]?).getD 0)
  else
    let (s, lo) := State.free s
    let (s, hi) := State.free s
    (s, lo.toNat + hi.toNat % 2 ^ 16 * 2 ^ 32)

/-- A command of a health block ends with a status. -/
def State.healthDone (s : State) (die status : Nat) : State :=
  State.onHealth { s with island := { s.island with commands := s.island.commands.filter (· ≠ die) } } die
    fun h => { h with regs := { h.regs with pending := none, res := status } }

/-- The island's command under way, if its code is `code` (R360): the die whose block received it, and its
word. The island serves one at a time, in arrival order. -/
def State.islandCommand (s : State) (code : Nat) : Option (Nat × Nat) :=
  s.island.commands.head?.bind fun die =>
    (State.healthOf s die).regs.pending.bind fun x => if x % 256 = code then some (die, x) else none

/-- A command of the island, with its word and the address of its data block. -/
def islandServe (code : Nat) (s : State) (k : Nat → Nat → State × Nat) : Out State :=
  match State.islandCommand s code with
  | none => .next s
  | some (die, x) =>
    let (s, status) := k x (State.healthOf s die).regs.arg0
    .next (State.healthDone s die status)

/-- SPARE: a row is copied to a spare one (R359). Its contents are the same; whether the bank still has a spare
is not stated. DESIGN CHOICE: log 70. -/
def execSpare (die : Nat) (s : State) : Out State :=
  match (State.healthOf s die).regs.pending with
  | none => .next s
  | some x =>
    if x % 256 ≠ 1 then .next s
    else if bits x 63 48 ≠ 0 then .next (State.healthDone s die 3)
    else
      let none := Config.freeBit s.freeCount
      .next (State.healthDone { s with freeCount := s.freeCount + 1 } die (if none then 2 else 0))

/-- The low `n` bytes of a number, least significant byte first. -/
def bytesOfNat (n v : Nat) : List Byte := (List.range n).map fun i => BitVec.ofNat 8 (v / 256 ^ i)

/-- The first 248 bytes of an attestation report (R357). -/
def Island.report (isle : Island) (nonce : List Byte) : List Byte :=
  bytesOfNat 4 1 ++ (List.range 16).map Config.serial ++ bytesOfNat 4 (isle.slot + isle.version * 2 ^ 8) ++
    bytesOfNat 64 isle.digest ++ bytesOfNat 64 isle.firmware ++ bytesOfNat 64 isle.extended ++ nonce

/-- Bytes of main memory as the island reads them: undefined where they are uncorrectable (R25), belong to an
open forest (R232), or lie where there is no memory. It counts and logs each uncorrectable granule (R358).
DESIGN CHOICE: logs 14, 80. -/
def State.islandRead (s : State) (pa n : Nat) : State × List Byte :=
  let (s, v) := if !isMain pa n then State.freeBytes s n
    else match Memory.badGranules s.main pa n with
      | [] => State.readMain s pa n
      | gs => State.freeBytes (gs.foldl State.countMain s) n
  (s, bytesOfNat n v)

/-- ATTEST: the island signs a report over the nonce and writes it behind it (R357, R360). -/
def execAttest (s : State) : Out State :=
  islandServe 2 s fun x arg =>
    if x / 256 ≠ 0 || arg % 64 ≠ 0 then (s, 3)
    else
      let (s, nonce) := State.islandRead s arg 32
      let r := Island.report s.island nonce
      let sig := (List.range 49856).map (Config.attestSign r)
      (if isMain (arg + 64) 50104 then State.putMainBytes s (arg + 64) (r ++ sig) else s, 0)

/-- EXTEND: the extended digest becomes the SHAKE256 digest of its old value and 64 bytes (R360). -/
def execExtend (s : State) : Out State :=
  islandServe 3 s fun x arg =>
    if x / 256 ≠ 0 || arg % 64 ≠ 0 then (s, 3)
    else
      let (s, block) := State.islandRead s arg 64
      let m := bytesOfNat 64 s.island.extended ++ block
      ({ s with island := { s.island with extended := digestOf m } }, 0)

/-- EVGRANT: a context may use a core's counters, or no longer (R360, R365). -/
def execEvgrant (s : State) : Out State :=
  islandServe 4 s fun x _ =>
    let core := bits x 33 24
    let e := (core, bits x 23 8)
    if bits x 63 35 ≠ 0 || 640 ≤ core then (s, 3)
    else
      let others := s.grants.filter (· ≠ e)
      ({ s with grants := if bits x 34 34 = 1 then others ++ [e] else others }, 0)

/-- RAISEMIN: the fused minimum version rises (R360). -/
def execRaisemin (s : State) : Out State :=
  islandServe 5 s fun x _ =>
    let v := bits x 31 8
    if bits x 63 32 ≠ 0 || v < s.island.fusedMin || s.island.version < v then (s, 3)
    else ({ s with island := { s.island with fusedMin := v } }, 0)

/-- HKEY: the health key is installed (R360, R363). -/
def execHkey (s : State) : Out State :=
  islandServe 6 s fun x arg =>
    if x / 256 ≠ 0 || arg % 64 ≠ 0 then (s, 3)
    else
      let (s, key) := State.islandRead s arg 32
      ({ s with island := { s.island with key := some (numOfBytes key) } }, 0)

/-- ELOG_READ: a read of ELOG takes the next entry (R360). -/
def execElogRead (die : Nat) (s : State) : Out State :=
  let h := State.healthOf s die
  let lost := if h.lost then 2 ^ 62 else 0
  match h.elog with
  | [] => .next { s with supRead := lost }
  | a :: rest =>
    .next (State.onHealth { s with supRead := 2 ^ 63 + lost + a } die fun h => { h with elog := rest })

/-! ### Errors (R358) -/

/-- A corrected error of a die counted. -/
def State.countCorrected (s : State) (die : Nat) : State :=
  State.onHealth s die fun h => { h with cecnt := Min.min (h.cecnt + 1) 0xFFFFFFFF }

/-- HBM_SCRUB: every row is scrubbed: each word that is uncorrectable is counted and logged again
(R358). -/
def execHbmScrub (s : State) : Out State := .next (s.main.bad.foldl (fun s k => State.countMain s (8 * k)) s)

/-- A memory with a word made uncorrectable. -/
def Memory.spoil (m : Memory) (a : Nat) : Memory :=
  { m with bad := if m.bad.contains (a / 8) then m.bad else m.bad ++ [a / 8] }

/-- Storage with a word made uncorrectable. -/
def UMem.spoil (m : UMem) (a : Nat) : UMem :=
  { m with bad := if m.bad.contains (a / 8) then m.bad else m.bad ++ [a / 8] }

/-- A die of a warp's core. -/
def State.dieOfWarp (s : State) (w : Nat) : Nat :=
  match State.warp? s w with
  | some W => dieOf (State.coreOf s W)
  | none => 0

/-- SOFT_ERROR: a bit error arises (R250, R269, R306, R358). A single-bit error is corrected and counted; a double-bit
error makes the data uncorrectable, and the request that meets it counts it. A register of the register file, for which
no entry states an outcome, is undefined from then on, and is counted at once; so is an error in an array that the model
does not hold. A port buffer's is recovered by its link. DEDUCED: log 69. -/
def execSoftError (err : SoftErr) (s : State) : Out State :=
  match err with
  | .corrected die core =>
    let s := State.countCorrected s die
    .next (match core with
      | some c => if dieOf c = die then State.tick s c 8 else s
      | none => s)
  | .array die => .next (State.countBad s die none)
  | .vreg w L r =>
    let (s, v) := State.free s
    .next (State.countBad (State.onWarp s w fun W => Warp.setV W r L v) (State.dieOfWarp s w) none)
  | .sreg w r =>
    let (s, v) := State.free s
    .next (State.countBad (State.onWarp s w fun W => Warp.setS W r v) (State.dieOfWarp s w) none)
  | .main pa => .next { s with main := Memory.spoil s.main pa }
  | .shared t off => .next (State.onTeam s t fun T => { T with shm := Memory.spoil T.shm off })
  | .scratch g die off =>
    .next (State.onGrid s g fun G => { G with scr := G.scr.modify die fun m => Memory.spoil m off })
  | .spill w off => .next (State.onWarp s w fun W => { W with spill := UMem.spoil W.spill off })
  | .tile core t off =>
    .next (State.onArray s core fun a => { a with tiles := AMap.set a.tiles t (UMem.spoil (MArray.tile a t) off) })
  | .bslot core k off =>
    .next (State.onArray s core fun a => { a with slots := AMap.set a.slots k (UMem.spoil (MArray.slot a k) off) })
  | .context n x =>
    .next (match AMap.get? s.contexts n with
      | none => s
      | some A => { s with contexts := AMap.set s.contexts n { A with bad := A.bad ++ [x] } })
  | .forest f e =>
    .next (match AMap.get? s.forests f with
      | none => s
      | some F => { s with main := Memory.spoil s.main (Forest.pa F (Forest.entryVA F e)) })
  | .port port => .next (State.countBad s (dieOfPort port) none)

/-! ### Heartbeats and quorum reset (R361 to R364) -/

/-- HEARTBEAT_SEND: the island sends each partner a heartbeat (R361). -/
def execHeartbeatSend (s : State) : Out State :=
  .next (s.island.partners.foldl (fun s p => State.manage s { kind := 9, dst := p, data := [] }) s)

/-- HEARTBEAT_RECEIVE: a partner's beat is heard (R361). -/
def execHeartbeatReceive (peer : Nat) (s : State) : Out State :=
  .next { s with island := { s.island with silent := s.island.silent.filter (· ≠ peer) } }

/-- The low 256 bits of a reset message (R362). -/
def resetBody (target sender epoch : Nat) : Nat := epoch * 2 ^ 64 + target * 2 ^ 32 + sender

/-- PARTNER_SILENT: a partner's beat has been absent for more than 3 × 2^20 ticks: the island sends it one
reset message, if it has a key (R361 to R363). -/
def execPartnerSilent (peer : Nat) (s : State) : Out State :=
  let isle := s.island
  if !isle.partners.contains peer || isle.silent.contains peer then .next s
  else
    let isle := { isle with silent := isle.silent ++ [peer] }
    match isle.key with
    | none => .next { s with island := isle }
    | some key =>
      let n := isle.epoch + 1
      let body := resetBody peer isle.dev n
      let tag := numOfBytes ((List.range 32).map (Config.kmac256 key (bytesOfNat 32 body)))
      .next (State.manage { s with island := { isle with epoch := n } }
        { kind := 9, dst := peer, bytes := 64, data := [tag * 2 ^ 256 + body] })

/-- QUORUM_RESET_MESSAGE: the island judges a reset message; messages of three partners within 2^22 ticks
reset the hub and compute dies (R364). DESIGN CHOICE: log 72. -/
def execQuorumResetMessage (msg : QuorumMsg) (s : State) : Out State :=
  let isle := s.island
  let x := msg.bits.toNat
  let sender := bits x 8 0
  let epoch := bits x 127 64
  let tagOk := match isle.key with
    | none => false
    | some key =>
      x / 2 ^ 256 = numOfBytes ((List.range 32).map (Config.kmac256 key (bytesOfNat 32 (x % 2 ^ 256))))
  let newer := match AMap.get? isle.epochs sender with
    | some e => e < epoch
    | none => true
  let heard := isle.accepted.filter fun p => !msg.expired.contains p
  if tagOk && bits x 40 32 = isle.dev && isle.partners.contains sender && newer then
    let heard := heard.filter (· ≠ sender) ++ [sender]
    let isle := { isle with epochs := AMap.set isle.epochs sender epoch, accepted := heard }
    if heard.length < 3 then .next { s with island := isle }
    else
      let isle := { isle with accepted := [], silent := [], booted := false, loaded := false, commands := [],
                              extended := 0 }
      .next (State.report (State.cold s isle) .quorumReset [])
  else .next { s with island := { isle with accepted := heard, dropped := isle.dropped + 1 } }

/-! ### Power (R366) -/

/-- The temperature of every die measured anew (R360). -/
def State.measure (s : State) : State :=
  let n := s.freeCount
  (List.range 8).foldl (fun s die => State.onHealth s die fun h => { h with temp := Config.temperature n die })
    { s with freeCount := n + 1 }

/-- Whether a die's TEMP is above a number of degrees. -/
def State.hotter (s : State) (degrees : Nat) : Bool :=
  (List.range 8).any fun die => 8 * degrees < (State.healthOf s die).temp

/-- The temperatures are measured, and judged (R360, R366): above 95 degrees the island reports a warning; at 110 the package
loses its power, and the island records it. DESIGN CHOICE: log 29. -/
def State.judgeHeat (s : State) : State :=
  let s := State.measure s
  let t := if (List.range 8).any fun die => 8 * 110 ≤ (State.healthOf s die).temp then
      State.cold s { s.island with tripped := true, booted := false, loaded := false, commands := [], extended := 0 }
    else s
  if State.hotter s 95 then State.report t .thermal [] else t

/-- THERMAL_WARNING: a measurement, which is reported above 95 degrees (R366). -/
def execThermalWarning (s : State) : Out State := .next (State.judgeHeat s)

/-- THERMAL_TRIP: a measurement, at which the power is removed from 110 degrees on (R366). -/
def execThermalTrip (s : State) : Out State := .next (State.judgeHeat s)

/-- POWER_LOSS: the package stops; without standby power the island stops too, and keeps its fuses and its
message counter (R366). -/
def execPowerLoss (standby : Bool) (s : State) : Out State :=
  let isle := s.island
  let kept := if standby then { isle with booted := false, loaded := false, commands := [], extended := 0 }
    else { Island.zero with fusedMin := isle.fusedMin, epoch := isle.epoch }
  .next (State.cold s kept)

/-! ### Register writes (R256, R292, R331, R339, R360) -/

/-- A command register written: the command starts; a code of no command leaves a status without a stated
value. DESIGN CHOICE: log 47. -/
def CmdRegs.start (g : CmdRegs) (codes : List Nat) (v free : Nat) : CmdRegs :=
  if codes.contains (v % 256) then { g with pending := some v } else { g with res := free % 256 }

/-- A write to a queue's block (R339). DEDUCED: log 57. -/
def State.writeQueueReg (s : State) (q off v : Nat) : State :=
  let Q := State.queue s q
  if Q.state ≠ .idle then s
  else match off with
    | 0x00 => State.onQueue s q fun Q => { Q with base := bits v 56 12 * 2 ^ 12 }
    | 0x08 =>
      if bits v 4 0 < 4 || 20 < bits v 4 0 then s
      else State.onQueue s q fun Q =>
        let Q := { Q with size := bits v 4 0, prio := bits v 10 8, asid := bits v 31 16,
                          enable := bits v 32 32 = 1 }
        if Q.enable && Q.wptr ≠ Q.rptr then { Q with state := .running } else Q
    | _ => s

/-- A write to a die's context command page (R256). -/
def State.writeCtxReg (s : State) (die off v : Nat) : State :=
  let g := State.ctxRegs s die
  let put (s : State) (g : CmdRegs) : State := { s with ctxUnits := AMap.set s.ctxUnits die g }
  match off with
  | 0x00 =>
    if g.pending.isSome then put s { g with res := 5 * 2 ^ 8 }
    else
      let (s, f) := State.free s
      if [1, 2, 3].contains (v % 256) then put s { g with pending := some v }
      else put s { g with res := f.toNat % 256 * 2 ^ 8 }
  | 0x08 => put s { g with arg0 := v }
  | 0x10 => put s { g with arg1 := v }
  | _ => s

/-- A 64-bit part of a key replaced. -/
def keyPart (key k v : Nat) : Nat :=
  key - key / 2 ^ (64 * k) % 2 ^ 64 * 2 ^ (64 * k) + v * 2 ^ (64 * k)

/-- A write to the fabric command page (R292, R307). -/
def State.writeFabricReg (s : State) (off v : Nat) : State :=
  match off with
  | 0x00 =>
    if s.winRegs.pending.isSome then s
    else
      let (s, f) := State.free s
      { s with winRegs := CmdRegs.start s.winRegs [1, 2] v f.toNat }
  | 0x08 => { s with winRegs := { s.winRegs with arg0 := v } }
  | 0x10 => { s with winRegs := { s.winRegs with arg1 := v } }
  | 0x28 => { s with latecyc := v }
  | 0x30 => { s with grpperm := v }
  | _ =>
    if off < 0x400 then s
    else
      let p := (off - 0x400) / 0x40
      let r := (off - 0x400) % 0x40
      if r < 0x20 then State.onPort s p fun P => { P with keyNext := keyPart P.keyNext (r / 8) v }
      else if r = 0x20 && v % 2 = 1 then State.onPort s p fun P => { P with want := true }
      else s

/-- A write to the translation command page (R331). -/
def State.writeXlReg (s : State) (off v : Nat) : State :=
  match off with
  | 0x00 =>
    if s.xlRegs.pending.isSome then s
    else if [1, 2, 3].contains (v % 256) then { s with xlRegs := { s.xlRegs with pending := some v } }
    else { s with xlRegs := { s.xlRegs with res := 1 } }
  | 0x08 => { s with xlRegs := { s.xlRegs with arg0 := v } }
  | 0x10 => { s with xlRegs := { s.xlRegs with arg1 := v } }
  | _ => s

/-- A write to a die's health block (R360). -/
def State.writeHealthReg (s : State) (die off v : Nat) : State :=
  let h := State.healthOf s die
  match off with
  | 0x00 => if v = 0 then State.onHealth s die fun h => { h with cecnt := 0 } else s
  | 0x08 => if v = 0 then State.onHealth s die fun h => { h with uecnt := 0 } else s
  | 0x18 =>
    if h.regs.pending.isSome then s
    else
      let (s, f) := State.free s
      let s := State.onHealth s die fun h =>
        { h with regs := CmdRegs.start h.regs [1, 2, 3, 4, 5, 6] v f.toNat }
      if [2, 3, 4, 5, 6].contains (v % 256) then
        { s with island := { s.island with commands := s.island.commands ++ [die] } }
      else s
  | 0x20 => State.onHealth s die fun h => { h with regs := { h.regs with arg0 := v } }
  | _ => s

/-- REGISTER_WRITE: a 64-bit write to a register of the device: a value that it holds, or the start of a
command, which its own event performs. WPTR and QCMD have events of their own, and a read-only register
keeps its value (R256, R292, R331, R339, R360). DEDUCED: log 78. -/
def execRegisterWrite (pa : Nat) (v : DWord) (s : State) : Out State :=
  let x := v.toNat
  if pa % 8 ≠ 0 then .next s
  else if 0xFF8000000 ≤ pa && pa < 0xFF8080000 then
    .next (State.writeCtxReg s ((pa - 0xFF8000000) / 0x10000) (pa % 0x10000) x)
  else if 0xFF9000000 ≤ pa && pa < 0xFF9001000 then .next (State.writeFabricReg s (pa % 0x1000) x)
  else if 0xFFA000000 ≤ pa && pa < 0xFFA001000 then .next (State.writeXlReg s (pa % 0x1000) x)
  else if 0xFFB000000 ≤ pa && pa < 0xFFB004000 then
    .next (State.writeQueueReg s ((pa - 0xFFB000000) / 0x40) (pa % 0x40) x)
  else if 0xFFC000000 ≤ pa && pa < 0xFFC000800 then
    .next (State.writeHealthReg s ((pa - 0xFFC000000) / 0x100) (pa % 0x100) x)
  else .next s

/-! ### Stores from outside the cores (R274, R341) -/

/-- Whether one of `n` bytes at a physical address belongs to a translation table under a table of a level, which has entries
for the address bits of that level (R328). -/
def tableHolds (m : Memory) (pa n : Nat) : (fuel table : Nat) → Bool
  | 0, _ => false
  | level + 1, table =>
    let entries := if level = 0 then 32 else 512
    (table < pa + n && pa < table + 8 * entries) ||
      (List.range entries).any fun i =>
        let e := Memory.read m (table + 8 * i) 8
        e % 2 = 1 && bits e 4 4 = 0 && level ≠ 0 && tableHolds m pa n level (bits e 51 8 * 2 ^ 8)

/-- Whether one of `n` bytes at a physical address belongs to a translation table of some context. -/
def State.inTables (s : State) (pa n : Nat) : Bool := s.roots.any fun r => tableHolds s.main pa n 5 r.2

/-- Bytes stored in main memory, where the device has some (R10, R25). DESIGN CHOICE: log 80. -/
def State.outerStore (s : State) (pa : Nat) (bytes : List Byte) : Out State :=
  if !isMain pa bytes.length then .fault .physAddr
  else .next (State.putMainBytes s pa bytes)

/-- GENERAL_CORE_STORE: a general core stores to main memory, or to a grid's scratchpad region (R274,
R328). A store into the translation tables may unmap executable pages (R75). -/
def execGeneralCoreStore (place : DevAddr) (bytes : List Byte) (s : State) : Out State :=
  match place with
  | .main pa =>
    match State.outerStore s pa bytes with
    | .next t => .next (State.pruneMaps s t)
    | out => out
  | .scratch g die off =>
    .next (State.onGrid s g fun G => { G with scr := G.scr.modify die fun m => Memory.writeBytes m off bytes })

/-- HOST_MEMORY_WRITE: a host writes packets through main memory that the supervisor has mapped for it, and reaches
nothing else, translation tables and command pages least of all (R341). DESIGN CHOICE: log 100. -/
def execHostMemoryWrite (a : HostAddr) (bytes : List Byte) (s : State) : Out State :=
  if (s.hostMem.any fun m => m.1 = a.host && m.2.1 ≤ a.pa && a.pa + bytes.length ≤ m.2.1 + m.2.2) &&
      isMain a.pa bytes.length && !State.inTables s a.pa bytes.length then
    .next (State.putMainBytes s a.pa bytes)
  else .next s

/-! ### The supervisor's answers and settings -/

/-- The status of an SVC reaches its fragment (R322): NOTE's is 0 and PAGEIN's is 0, 1 or 2. -/
def State.svcReply (s : State) (w slot status : Nat) : Out State :=
  match State.fragCtx? s w slot with
  | none => .next s
  | some c =>
    match c.frag.wait with
    | .svc d note =>
      if note then Ctx.answer c d 0 s
      else if status ≤ 2 then Ctx.answer c d (word status) s
      else .next s
    | _ => .next s

/-- A stream bound to a ring inside the region of its grid on die 0: RSEQ and WSEQ are zero (R276). DEDUCED:
log 49. -/
def State.bindStream (s : State) (stream grid off peers : Nat) : State :=
  let inside := match s.grids[grid]? with
    | some g => g.status = .live && (g.dies.isEmpty || g.dies.contains 0) && off + 576 ≤ g.scrLen
    | none => false
  if 256 ≤ stream || off % 64 ≠ 0 || peers.testBit 511 || !inside then s
  else
    let s := State.writeScratch s grid 0 off 64 0
    let t : Stream := { grid := grid, off := off, peers := peers, wseq := 0, due := false, reply := none }
    { s with streams := AMap.set s.streams stream t }

/-- The contexts of an owner that ends, deleted (R253). -/
def State.endContexts (s : State) (asid : Nat) : State :=
  s.contexts.foldl (fun s e => if e.2.asid = asid then State.dropContext s e.1 e.2 else s) s

/-- The table root of an address space (R328). One that ends takes its executable mappings, its scopes, its attention
contexts and its forests with it (R75, R213, R230, R253); nothing is written back. DESIGN CHOICE: log 107. -/
def State.setRoot (s : State) (asid : Nat) (pa : Option Nat) : State :=
  match pa with
  | some pa => State.pruneMaps s { s with roots := AMap.set s.roots asid pa }
  | none =>
    let s := State.endContexts s asid
    { s with roots := AMap.erase s.roots asid, execMaps := s.execMaps.filter fun m => m.asid ≠ asid,
             forests := s.forests.filter fun e => e.2.ctx ≠ asid,
             scopes := s.scopes.filter fun e => e.1 / 32 ≠ asid }

/-- The supervisor undoes, keeps or closes an open forest (R250), unless an EQREL holds it or an OPEN is being
served. -/
def State.forestAct (s : State) (f : Nat) (act : ForestAct) : State :=
  match AMap.get? s.forests f with
  | none => s
  | some F =>
    if State.forestHeld s f then s
    else (State.forestStatus s f F (match act with
      | .undo => .undo
      | .keep => .keep
      | .close => .close)).1

/-- The devices of a job; a device that is no longer among them acknowledges nothing more (R287, R355). -/
def State.setPeers (s : State) (job : Nat) (devices : List Nat) : State :=
  { s with jobPeers := AMap.set s.jobPeers job devices,
           queues := s.queues.map fun e =>
             if State.jobOf s e.2.asid = job then
               (e.1, { e.2 with unacked := e.2.unacked.filter devices.contains })
             else e }

/-- The ringmaster firmware verified and loaded (R356); firmware that does not verify is not loaded. -/
def State.loadFirmware (s : State) (fw : Signed) : State :=
  if Signed.ok fw then { s with island := { s.island with loaded := true, firmware := digestOf fw.image } } else s

/-- SUPERVISOR_REPLY: what the supervisor does without a register: it answers what the device asks, and sets
the device up. DESIGN CHOICE: log 48. -/
def execSupervisorReply (r : SupReply) (s : State) : Out State :=
  match r with
  | .svc w slot status => State.svcReply s w slot status
  | .copy w id resume => .next (State.copyReply s w id resume)
  | .pin w id granted => .next (State.pinReply s w id granted)
  | .forest f act => .next (State.forestAct s f act)
  | .fetch core op resume => .next (State.fetchReply s core op resume)
  | .idem team requeue => .next (State.idemReply s team requeue)
  | .queue q resolved => .next (State.queueReply s q resolved)
  | .grid g resolved => .next (State.gridReply s g resolved)
  | .firmware fw => .next (State.loadFirmware s fw)
  | .host q host => .next { s with hosts := match host with
      | some h => AMap.set s.hosts q h
      | none => AMap.erase s.hosts q }
  | .hostMap host base len => .next { s with hostMem := s.hostMem ++ [(host, base, len)] }
  | .hub id resolved => .next (State.hubReply s id resolved)
  | .bind stream grid off peers => .next (State.bindStream s stream grid off peers)
  | .unbind stream => .next { s with streams := AMap.erase s.streams stream }
  | .root asid pa => .next (State.setRoot s asid pa)
  | .job asid job => .next { s with jobs := AMap.set s.jobs asid job }
  | .peers job devices => .next (State.setPeers s job devices)
  | .unmap asid va => .next { s with execMaps := s.execMaps.filter fun m => !(m.asid = asid && m.va = va) }
  | .scan die req => .next (if die < 8 then { s with scans := s.scans ++ [(die, req)] } else s)
  | .partners devices => .next { s with island := { s.island with partners := devices } }

end Sys2Proof.Machine
end

