-- ==== Sys2Proof/Machine/Level.lean ====
section
/-! DEFINITION. Level transfers between grid resolutions: STBIND, LXFER and the copy unit's points
(R181 to R190). -/
namespace Sys2Proof.Machine

/-! ### Stencil tables -/

/-- A byte as a signed offset. -/
def offsetOf (x : Nat) : Int := toSigned 8 (x % 256)

/-- A tap of eight bytes (R186). -/
def Tap.ofNat (x : Nat) : Tap :=
  { dz := offsetOf (bits x 23 16), dy := offsetOf (bits x 15 8), dx := offsetOf (bits x 7 0),
    w := word (bits x 63 32) }

/-- The tap counts of a table's header (R186). -/
def stencilCounts (h : Nat) : List Nat := (List.range 8).map fun k => bits h (71 + 8 * k) (64 + 8 * k)

/-- Whether the counts of a table keep R186. -/
def countsOk (kind dims : Nat) (counts : List Nat) : Bool :=
  let classes := if kind = 0 then 1 else 2 ^ dims
  (List.range 8).all fun k => (counts[k]?).getD 0 ≤ if k < classes then 27 else 0

/-- Whether a tap of eight bytes keeps R186 for a number of dimensions. -/
def tapOk (dims x : Nat) : Bool :=
  let t := Tap.ofNat x
  let inside (o : Int) : Bool := -1 ≤ o && o ≤ 1
  bits x 31 24 = 0 && inside t.dx && inside t.dy && inside t.dz &&
    (2 ≤ dims || t.dy = 0) && (3 ≤ dims || t.dz = 0)

/-- Whether one tap stands before another (R186). -/
def Tap.before (s t : Tap) : Bool :=
  s.dz < t.dz || (s.dz = t.dz && (s.dy < t.dy || (s.dy = t.dy && s.dx < t.dx)))

/-- Whether taps stand in strictly increasing order. -/
def tapsRise : List Tap → Bool
  | s :: t :: rest => Tap.before s t && tapsRise (t :: rest)
  | _ => true

/-- A list cut into parts of the given lengths. -/
def cut {α : Type} : List Nat → List α → List (List α)
  | [], _ => []
  | n :: ns, l => l.take n :: cut ns (l.drop n)

/-- STBIND's status and table from a header and its taps (R187). -/
def stencilOf (h : Nat) (taps : List Nat) : Nat × Stencil :=
  let kind := bits h 7 0
  let dims := bits h 15 8
  let counts := stencilCounts h
  let lists := cut counts (taps.map Tap.ofNat)
  let st :=
    if 1 < kind || dims = 0 || 3 < dims || bits h 63 16 ≠ 0 || !countsOk kind dims counts then 1
    else if !(taps.all (tapOk dims)) then 2
    else if !(lists.all tapsRise) then 3
    else 0
  (st, { prolong := kind = 1, dims := dims, taps := lists })

/-- The eight-byte entries of a number. -/
def dwordsOf (n v : Nat) : List Nat := (List.range n).map fun i => v / 2 ^ (64 * i) % 2 ^ 64

/-- STBIND from table offset x, its reads after the requests before `limit` (R187). An undefined header whose taps would
lie outside the region causes no trap; the table does not keep R186. DESIGN CHOICE: log 110. -/
def Ctx.stbind (c : Ctx) (s : State) (d k x limit : Nat) : Out State :=
  let later := Wait.stbind d k x limit
  let undefined := State.openRead s c.w c.warp .scratch x 16 limit
  Ctx.withRead c s .scratch x 16 later (limit := limit) fun s h =>
    let n := (stencilCounts h).sum
    match State.chipRange s c.warp .scratch x (16 + 8 * n) with
    | some cause =>
      if undefined then Ctx.answer c d 1 (State.onTeam s c.warp.team fun T => { T with stencils := AMap.erase T.stencils k })
      else Ctx.meets c s cause (dword x)
    | none => Ctx.withRead c s .scratch (x + 16) (8 * n) later (limit := limit) fun s v =>
      let (st, t) := stencilOf h (dwordsOf n v)
      let s := State.onTeam s c.warp.team fun T =>
        { T with stencils := if st = 0 then AMap.set T.stencils k t else AMap.erase T.stencils k }
      Ctx.answer c d (word st) s

/-- STBIND (R187). -/
def execStbind (d k b : Nat) (s : State) : Out State :=
  withFrag s fun c =>
    let x := (Warp.s c.warp b).toNat
    if x % 16 ≠ 0 then Ctx.trap c s (causeCode 3 5) (dword x)
    else match State.chipRange s c.warp .scratch x 16 with
      | some cause => Ctx.trap c s cause (dword x)
      | none => Ctx.stbind c s d k x c.warp.nextReq

/-! ### LXFER -/

/-- The coarse level of a descriptor (R182). -/
def coarseOf (r : Nat) : Grid3 :=
  { fmt := bits r 7 6, nx := bits r 319 288, ny := bits r 351 320, nz := bits r 383 352,
    sy := bits r 479 448, sz := bits r 511 480 }

/-- The fine level of a descriptor (R182). -/
def fineOf (r : Nat) : Grid3 :=
  { fmt := bits r 5 4, nx := bits r 223 192, ny := bits r 255 224, nz := bits r 287 256,
    sy := bits r 415 384, sz := bits r 447 416 }

/-- Whether a level's extents keep R182. -/
def Grid3.ok (g : Grid3) (dims : Nat) : Bool :=
  let ext (n d : Nat) : Bool := 1 ≤ n && n ≤ 2 ^ 24 && (d ≤ dims || n = 1)
  ext g.nx 1 && ext g.ny 2 && ext g.nz 3

/-- Whether a descriptor keeps R182 for a kind and the spaces of its sides. -/
def descOk (r kind : Nat) (dstMain srcMain : Bool) (dg : Grid3) : Bool :=
  let dims := bits r 9 8
  bits r 191 62 = 0 && bits r 55 54 = 0 && bits r 47 12 = 0 && bits r 11 10 ≠ 3 && dims ≠ 0 &&
  Grid3.ok (coarseOf r) dims && Grid3.ok (fineOf r) dims && Grid3.count dg ≤ 2 ^ 28 &&
  (dstMain || bits r 61 56 = 0) && (srcMain || bits r 53 48 = 0) && (kind != 2 || bits r 3 0 = 0)

/-- Whether a level's address and the strides read for it keep its element size (R185). -/
def Grid3.aligned (g : Grid3) (off : Nat) : Bool :=
  let es := gridEs g.fmt
  off % es = 0 && (g.ny ≤ 1 || g.sy % es = 0) && (g.nz ≤ 1 || g.sz % es = 0)

/-- The bytes from a level's first element to the last byte of its last (R185). -/
def Grid3.extent (g : Grid3) : Nat := Grid3.at_ g (g.nx - 1) (g.ny - 1) (g.nz - 1) + gridEs g.fmt

/-- The base of a handle, or zero. -/
def baseOf (b : Option TileBind) : Nat :=
  match b with
  | some b => b.base
  | none => 0

/-- The checks of LXFER after its descriptor is read, and the transfer (R185). Which word TVAL names when several fail one
row: DESIGN CHOICE: log 108. -/
def State.checkLevel (s : State) (W : Warp) (kind : Nat) (add : Bool) (dw sw xw r : Nat) :
    Except (Nat × Nat) Level :=
  let dg := if kind = 1 then fineOf r else coarseOf r
  let sg := if kind = 1 then coarseOf r else fineOf r
  let table := (State.teamOf? s W).bind fun T => AMap.get? T.stencils (bits r 3 0)
  let tableOk := match table with
    | some t => t.prolong == (kind == 1) && t.dims = bits r 9 8
    | none => false
  let hd := State.handle? s W (bits r 61 56)
  let hs := State.handle? s W (bits r 53 48)
  let d := endOf (baseOf hd) dw
  let e := endOf (baseOf hs) sw
  match firstFailed
    [(!descOk r kind (inMain dw) (inMain sw) dg, causeCode 4 6, xw),
     (kind != 2 && !tableOk, causeCode 4 5, xw),
     (inMain dw && hd.isNone, causeCode 4 1, dw), (inMain sw && hs.isNone, causeCode 4 1, sw),
     (!Grid3.aligned dg (bits dw 27 0), causeCode 4 3, dw),
     (!Grid3.aligned sg (bits sw 27 0), causeCode 4 3, sw),
     rangeCheck s W d (Grid3.extent dg) dw, rangeCheck s W e (Grid3.extent sg) sw,
     (State.endConst s W d (Grid3.extent dg), causeCode 3 2, dw)] with
  | some f => .error f
  | none => .ok { kind := kind, add := add, dst := d, src := e, dg := dg, sg := sg,
                  bnd := bits r 11 10, table := (match table with
                    | some t => t.taps
                    | none => []), pos := 0 }

/-- A transfer without points. -/
def Level.none (kind : Nat) (add : Bool) (xw : Nat) : Level :=
  let g : Grid3 := { fmt := 0, nx := 0, ny := 0, nz := 0, sy := 0, sz := 0 }
  { kind := kind, add := add, dst := endOf 0 xw, src := endOf 0 xw, dg := g, sg := g, bnd := 0, table := [], pos := 0 }

/-- LXFER of a kind (R181, R182, R185). An undefined descriptor that does not pass the checks causes no trap, and its transfer
has no points. DESIGN CHOICE: log 110. Which word TVAL names when several fail one row: DESIGN CHOICE: log 108. -/
def levelTransfer (kind a : Nat) (add : Bool) (s : State) : Out State :=
  withFrag s fun c => Ctx.copyGroup c a fun dw sw xw cw =>
    match firstFailed
      [(!spaceOk dw, causeCode 4 0, dw), (!spaceOk sw, causeCode 4 0, sw),
       ((chipEnd xw).isNone, causeCode 4 0, xw), (bits cw 4 0 ≠ 0, causeCode 4 0, cw),
       (xw % 64 ≠ 0, causeCode 3 5, xw), rangeCheck s c.warp (endOf 0 xw) 64 xw] with
    | some (cause, tval) => Ctx.trap c s cause (dword tval)
    | none =>
      let sp := if bits xw 31 28 = 0 then Space.shared else .scratch
      let x := bits xw 27 0
      let undefined := State.openRead s c.w c.warp sp x 64 c.warp.nextReq
      Ctx.withRead c s sp x 64 (.ordered sp x 64 c.warp.nextReq) (limit := c.warp.nextReq) fun s r =>
        match State.checkLevel s c.warp kind add dw sw xw r with
        | .error (cause, tval) =>
          if undefined then Ctx.issueCopy c s (.level (Level.none kind add xw)) (8 + kind) cw
          else Ctx.trap c s cause (dword tval)
        | .ok l => Ctx.issueCopy c s (.level l) (8 + kind) cw

/-- LXFER.RESTRICT (R181). -/
def execLxferRestrict (a : Nat) (add : Bool) (s : State) : Out State := levelTransfer 0 a add s
/-- LXFER.PROLONG (R181). -/
def execLxferProlong (a : Nat) (add : Bool) (s : State) : Out State := levelTransfer 1 a add s
/-- LXFER.INJECT (R181). -/
def execLxferInject (a : Nat) (add : Bool) (s : State) : Out State := levelTransfer 2 a add s

/-! ### A destination point (R184, R190) -/

/-- The multiply-adds of a point's taps in table order, or what stops them. -/
def State.tapSum (w : Nat) (W : Warp) (id f : Nat) :
    State → Ext → List (End × Word) → Except MoveFail (State × Ext)
  | s, acc, [] => .ok (s, acc)
  | s, acc, (e, wt) :: rest =>
    match State.readEnd s w W id e (gridEs f) with
    | .error x => .error x
    | .ok (s, v) =>
      State.tapSum w W id f s
        (roundF Fmt.f64 .rne (Ext.fma .rne (decodeF (gridFmt f) v) (decodeF Fmt.f32 wt.toNat) acc)) rest

/-- The start value of a point: minus zero, or the destination with .add (R184). -/
def State.pointStart (s : State) (w : Nat) (W : Warp) (id : Nat) (l : Level) :
    Except MoveFail (State × Ext) :=
  if l.add then
    match State.readEnd s w W id (Level.dstAt l l.pos) (gridEs l.dg.fmt) with
    | .error x => .error x
    | .ok (s, v) => .ok (s, decodeF (gridFmt l.dg.fmt) v)
  else .ok (s, .zero true)

/-- The bytes from the first point of a level to its last one's end (R182). -/
def Grid3.span (g : Grid3) : Nat := Grid3.at_ g (g.nx - 1) (g.ny - 1) (g.nz - 1) + gridEs g.fmt

/-- The result of a transfer's next destination point (R184). -/
def State.pointValue (s : State) (w : Nat) (W : Warp) (id : Nat) (l : Level) : Except MoveFail (State × Nat) :=
  match State.pointStart s w W id l with
  | .error x => .error x
  | .ok (s, acc) =>
    match State.tapSum w W id l.sg.fmt s acc (Level.taps l l.pos) with
    | .error x => .error x
    | .ok (s, acc) => .ok (s, roundEnc (gridFmt l.dg.fmt) .rne acc)

/-- The next destination point written with its result (R190): an undefined value where the element falls in
the source range (R189). -/
def State.pointWrite (s : State) (w : Nat) (W : Warp) (id : Nat) (l : Level) (v : Nat) :
    Except MoveFail (State × Level) :=
  let n := gridEs l.dg.fmt
  match State.target s W (Level.dstAt l l.pos) with
  | .error x => .error x
  | .ok (s, p) =>
    let l := { l with pos := l.pos + 1, held := none }
    if State.rangeMeets s W l.src (Grid3.span l.sg) p n then
      let (s, u) := State.freeBytes s n
      .ok (State.writeWhere s w p n u, l)
    else .ok (State.store s w W id p n v, l)

/-- One step at the next destination point of a transfer: it is computed and written, in add mode in two
steps, between which other agents may write the element (R184, R189). -/
def State.levelPoint (s : State) (w : Nat) (W : Warp) (id : Nat) (l : Level) :
    Except MoveFail (State × Level) :=
  match l.held with
  | some v => State.pointWrite s w W id l v
  | none =>
    match State.pointValue s w W id l with
    | .error x => .error x
    | .ok (s, v) => if l.add then .ok (s, { l with held := some v }) else State.pointWrite s w W id l v

/-- LXFER_POINT: the copy unit, in its round, computes and writes a transfer's next destination point, in traversal
order (R184, R190). -/
def execLxferPoint (w id : Nat) (s : State) : Out State :=
  match State.warp? s w with
  | none => .next s
  | some W =>
    match Warp.req? W id with
    | none => .next s
    | some r =>
      match if State.resident s W then Req.command? r else none with
      | none => .next s
      | some c =>
        match c.stop, c.work with
        | .running, .level l =>
          let core := State.coreOf s W
          if l.pos = Grid3.count l.dg || !State.copyTurn s core w id then .next s
          else if State.cpBlocked s w W id (Level.pointTouches s W l) then .next s
          else match State.levelPoint (State.advanced s core w id) w W id l with
            | .error f => .next (State.stopCommand s w W r c f)
            | .ok (s, l) => .next (State.setCommand s w r { c with work := .level l })
        | _, _ => .next s

end Sys2Proof.Machine
end

