-- ==== Sys2Proof/Machine/ScalarMem.lean ====
section
/-! DEFINITION. Scalar access to shared memory, scratchpad and the spill stack (R103 to R105). -/
namespace Sys2Proof.Machine

/-- A request of the scalar stream: one word, no run. -/
def scalarReq (c : Ctx) (sp : Space) (op : ReqOp) (x : Nat) (data : Word) : Req :=
  { id := 0, path := Space.path sp, op := op,
    todo := [{ lane := 0, addr := dword x, x := data.setWidth 64, y := 0 }], land := [],
    done := false, run := none, token := 0, lev := c.warp.tlev }

/-- A load's request issues and the fragment waits for its data (R104), once the counter has room
(R117); the register is the load's to write until a later instruction writes it (R97). -/
def Ctx.issueLoad (c : Ctx) (s : State) (sp : Space) (d x : Nat) (upd : Warp → Warp) : Out State :=
  if !Warp.room c.warp (Space.path sp) 1 then Ctx.wait c (.room (Space.path sp)) s
  else
    let s := Ctx.on c s fun W =>
      Warp.ask (upd W) (scalarReq c sp (.sload sp d c.slot) x 0)
    Ctx.wait c (.mem c.warp.nextReq) s

/-- A store's request issues and the instruction completes (R104), once the counter has room. -/
def Ctx.issueStore (c : Ctx) (s : State) (sp : Space) (x : Nat) (v : Word) (upd : Warp → Warp) :
    Out State :=
  if !Warp.room c.warp (Space.path sp) 1 then Ctx.wait c (.room (Space.path sp)) s
  else .next (Ctx.advance c 1
    (Ctx.on c s fun W => Warp.issue (upd W) (scalarReq c sp (.sstore sp) x v)))

/-- The address of R103: (S[a] + 4 × imm11) mod 2^32. -/
def scalarAddr (W : Warp) (a : Nat) (off : Int) : Nat := (Warp.s W a + BitVec.ofInt 32 (4 * off)).toNat

/-- SLD and XLD (R103). -/
def scalarLoad (sp : Space) (d a : Nat) (off : Int) (s : State) : Out State :=
  withFrag s fun c =>
    let x := scalarAddr c.warp a off
    match State.checkLocal s c.warp sp false x 4 with
    | .fault cause => Ctx.trap c s cause (dword x)
    | .ok _ => Ctx.issueLoad c s sp d x id

/-- SST and XST (R103). -/
def scalarStore (sp : Space) (d a : Nat) (off : Int) (s : State) : Out State :=
  withFrag s fun c =>
    let x := scalarAddr c.warp a off
    match State.checkLocal s c.warp sp true x 4 with
    | .fault cause => Ctx.trap c s cause (dword x)
    | .ok _ => Ctx.issueStore c s sp x (Warp.s c.warp d) id

/-- SLD (R103). -/
def execSld (d a : Nat) (off : Int) (s : State) : Out State := scalarLoad .shared d a off s
/-- SST (R103). -/
def execSst (d a : Nat) (off : Int) (s : State) : Out State := scalarStore .shared d a off s
/-- XLD (R103). -/
def execXld (d a : Nat) (off : Int) (s : State) : Out State := scalarLoad .scratch d a off s
/-- XST (R103). -/
def execXst (d a : Nat) (off : Int) (s : State) : Out State := scalarStore .scratch d a off s

/-- SPUSH (R105): the checks in order, then SPTR falls by 4 and the word is stored there. -/
def execSpush (a : Nat) (s : State) : Out State :=
  withFrag s fun c =>
    let p := c.warp.sptr.toNat
    if p % 4 ≠ 0 then Ctx.trap c s (causeCode 3 5) (dword p)
    else if p < 4 then Ctx.trap c s (causeCode 3 3) (dword p)
    else if c.warp.spillLen < p then Ctx.trap c s (causeCode 3 6) (dword p)
    else Ctx.issueStore c s .spill (p - 4) (Warp.s c.warp a) fun W => { W with sptr := word (p - 4) }

/-- SPOP (R105): the checks in order, then the word at SPTR is loaded and SPTR rises by 4. -/
def execSpop (d : Nat) (s : State) : Out State :=
  withFrag s fun c =>
    let p := c.warp.sptr.toNat
    if p % 4 ≠ 0 then Ctx.trap c s (causeCode 3 5) (dword p)
    else if c.warp.spillLen < p + 4 then Ctx.trap c s (causeCode 3 4) (dword p)
    else Ctx.issueLoad c s .spill d p fun W => { W with sptr := word (p + 4) }

end Sys2Proof.Machine
end

