-- ==== Sys2Proof/Machine/System.lean ====
section
/-! DEFINITION. Traps by instruction, system registers, services and the scalar save area (R318,
R320 to R324). -/
namespace Sys2Proof.Machine

/-- TRAP (R320). -/
def execTrap (k : Nat) (s : State) : Out State := withFrag s fun c => Ctx.trap0 c s 0 k

/-- TRET (R318): TRETLV at level 0; waits for the runs enqueued at its level. DEDUCED: log 18. -/
def execTret (s : State) : Out State :=
  withFrag s fun c =>
    if c.warp.tlev = 0 then Ctx.trap0 c s 11 0
    else if Warp.levelDone c.warp c.warp.tlev then Ctx.tret c s
    else Ctx.wait c (.levelRuns c.warp.tlev) s

/-- A word of a TRQ entry (R324). -/
def TrqEntry.word (e : TrqEntry) (k : Nat) : Word :=
  match k with
  | 0 => Sys2Proof.word ((if e.valid then 2 ^ 31 else 0) + (if e.skip then 2 ^ 30 else 0) +
      (if e.trapped then 2 ^ 29 else 0) + e.entry.await * 2 ^ 17 + e.entry.run)
  | 1 => e.entry.mask
  | 2 => (e.entry.args[0]?).getD 0
  | 3 => (e.entry.args[1]?).getD 0
  | 4 => (e.entry.args[2]?).getD 0
  | 5 => (e.entry.args[3]?).getD 0
  | _ => 0

/-- A TRQ entry with one word written by its access rule (R324): SKIP, the mask and the arguments;
the other fields are read only. -/
def TrqEntry.setWord (e : TrqEntry) (k : Nat) (v : Word) : TrqEntry :=
  match k with
  | 0 => { e with skip := v.getLsbD 30 }
  | 1 => { e with entry := { e.entry with mask := v } }
  | 2 => { e with entry := { e.entry with args := e.entry.args.set 0 v } }
  | 3 => { e with entry := { e.entry with args := e.entry.args.set 1 v } }
  | 4 => { e with entry := { e.entry with args := e.entry.args.set 2 v } }
  | 5 => { e with entry := { e.entry with args := e.entry.args.set 3 v } }
  | _ => e

/-- An entry that holds no run (R317). -/
def TrqEntry.invalid : TrqEntry :=
  ⟨false, false, false, { run := 0, code := [], await := 0, mask := 0, args := [0, 0, 0, 0],
                          seq := 0, lev := 0 }⟩

/-- Entry e of a bank's TRQ; entries beyond the held runs are invalid (R317). -/
def Bank.trqAt (b : Bank) (e : Nat) : TrqEntry := (b.trq[e]?).getD TrqEntry.invalid

/-- A bank's TRQ made four entries long, with one replaced. -/
def Bank.setTrq (b : Bank) (e : Nat) (x : TrqEntry) : Bank :=
  { b with trq := ((b.trq ++ List.replicate 4 TrqEntry.invalid).take 4).set e x }

/-- A register of a bank (R324). -/
def Bank.reg (b : Bank) : Nat → Word
  | 0 => b.tcause
  | 1 => b.tret
  | 2 => b.tval
  | 3 => b.tvalh
  | _ => b.tmask

/-- The value of a system register of the map (R324). CYC is a count that nothing in State fixes, so
a read of it is a free value, and it captures another for CYCH (DESIGN CHOICE, log 13). -/
def sysRead (s : State) (W : Warp) (r : Nat) : Word :=
  if r = 0x000 then W.tvec
  else if r = 0x001 then W.tctl
  else if r = 0x002 then word (W.tlev + if W.idem then 4 else 0)
  else if r = 0x003 then W.sptr
  else if r = 0x004 then W.mstat
  else if r = 0x005 then Config.freeWord s.freeCount
  else if r = 0x006 then W.cych
  else if r = 0x007 then word (State.asidOf s W % 2 ^ 16)
  else if r = 0x008 then W.tsbase
  else if r = 0x009 then W.tsbaseh
  else if r = 0x00A then W.svch
  else if r < 0x020 then Bank.reg W.bank1 (r - 0x010)
  else if r < 0x040 then Bank.reg W.bank2 (r - 0x020)
  else if r < 0x060 then TrqEntry.word (Bank.trqAt W.bank1 ((r - 0x040) / 8)) (r % 8)
  else TrqEntry.word (Bank.trqAt W.bank2 ((r - 0x060) / 8)) (r % 8)

/-- RDSR (R321): a read of CYC captures CYCH. -/
def execRdsr (d r : Nat) (s : State) : Out State :=
  withFrag s fun c =>
    let v := sysRead s c.warp r
    if r = 0x005 then
      let hi := Config.freeWord (s.freeCount + 1)
      .next (Ctx.advance c 1 (Ctx.on c { s with freeCount := s.freeCount + 2 } fun W =>
        Warp.setS { W with cych := hi } d v))
    else Ctx.result c d v s

/-- A write of a system register by its access rule (R321, R324): reserved bits of TCTL stay zero,
MSTAT's bits clear where a 1 is written, read-only registers are unchanged. -/
def sysWrite (W : Warp) (r : Nat) (v : Word) : Warp :=
  if r = 0x000 then { W with tvec := v }
  else if r = 0x001 then { W with tctl := v &&& 1 }
  else if r = 0x003 then { W with sptr := v }
  else if r = 0x004 then { W with mstat := W.mstat &&& ~~~v }
  else if r = 0x008 then { W with tsbase := v }
  else if r = 0x009 then { W with tsbaseh := v }
  else if r = 0x00A then { W with svch := v }
  else if r = 0x011 then { W with bank1 := { W.bank1 with tret := v } }
  else if r = 0x021 then { W with bank2 := { W.bank2 with tret := v } }
  else if 0x040 ≤ r && r < 0x060 then
    let e := (r - 0x040) / 8
    { W with bank1 := Bank.setTrq W.bank1 e (TrqEntry.setWord (Bank.trqAt W.bank1 e) (r % 8) v) }
  else if 0x060 ≤ r && r < 0x080 then
    let e := (r - 0x060) / 8
    { W with bank2 := Bank.setTrq W.bank2 e (TrqEntry.setWord (Bank.trqAt W.bank2 e) (r % 8) v) }
  else W

/-- WRSR (R321). -/
def execWrsr (a r : Nat) (s : State) : Out State :=
  withFrag s fun c =>
    .next (Ctx.advance c 1 (Ctx.on c s fun W => sysWrite W r (Warp.s W a)))

/-- SVC PAGEIN (R322): the address SVCH ‖ S[a] goes to the supervisor, and the fragment waits for its
reply. -/
def execSvcPagein (d a : Nat) (s : State) : Out State :=
  withFrag s fun c =>
    let va := c.warp.svch.toNat * 2 ^ 32 + (Warp.s c.warp a).toNat
    Ctx.wait c (.svc d false) (State.report s .pagein [c.w, c.slot, va])

/-- SVC NOTE (R322): the word goes to the supervisor, and the fragment waits for its reply. -/
def execSvcNote (d a : Nat) (s : State) : Out State :=
  withFrag s fun c =>
    Ctx.wait c (.svc d true) (State.report s .note [c.w, c.slot, (Warp.s c.warp a).toNat])

/-- The address of SSAVE and SREST (R323), exactly. -/
def saveAddr (W : Warp) (a : Nat) : Nat :=
  W.tsbaseh.toNat * 2 ^ 32 + W.tsbase.toNat + (Warp.s W a).toNat

/-- The 128 scalar registers as words (R323); s0 reads zero. -/
def Warp.scalars (W : Warp) : List Word := (List.range 128).map (Warp.s W)

/-- The bytes of a list of words, each least significant byte first (R3). -/
def bytesOfWords (ws : List Word) : List Byte := ws.flatMap fun w => bytesOfWord w.toNat

/-- The warp without its own waiting SSAVEs and SRESTs, which are not ordered among themselves
(R323). -/
def Warp.withoutSaves (W : Warp) : Warp :=
  { W with frags := W.frags.map (Option.map fun f => match f.wait with
      | .save _ _ _ => { f with wait := .ready }
      | _ => f) }

/-- SSAVE or SREST of the 512 bytes at va (R323): they lie in one page, whose translation is checked
before any moves; the copies, GATHs and SCATs before request `limit` come first (R174). SREST reads
s1 to s127, unless a granule is uncorrectable. -/
def Ctx.save (c : Ctx) (s : State) (load : Bool) (va limit : Nat) : Out State :=
  match State.translate s (.core (State.coreOf s c.warp)) (State.asidOf s c.warp) va
      (if load then .read else .write) with
  | .error f => Ctx.xlFault c s f va (!load)
  | .ok (s, pa) =>
    if State.cpBlocked s c.w (Warp.withoutSaves c.warp) limit [(.main pa, 512, !load)] then Ctx.wait c (.save load va limit) s
    else if !load then
      .next (Ctx.advance c 1
        (if State.hidden s c.warp limit (.main pa) 512 then
            let (s, v) := State.freeBytes s 512
            State.putMain s pa 512 v
          else State.putMainBytes s pa (bytesOfWords (Warp.scalars c.warp))))
    else match Memory.badGranules s.main pa 512 with
      | g :: _ => Ctx.meets c (State.countMain s g) (causeCode 4 4) (dword (va + (g - pa)))
      | [] =>
        let (s, v) := State.load s c.w c.warp limit (.main pa) 512
        let vs := (List.range 127).map fun i => word (v / 2 ^ (32 * (i + 1)))
        .next (Ctx.advance c 1 (Ctx.on c s (Ctx.writes c 1 vs)))

/-- SSAVE and SREST. -/
def saveArea (load : Bool) (a : Nat) (s : State) : Out State :=
  withFrag s fun c =>
    let va := saveAddr c.warp a
    if va % 512 ≠ 0 then Ctx.trap c s (causeCode 3 5) (dword va)
    else Ctx.save c s load va c.warp.nextReq

/-- SSAVE (R323). -/
def execSsave (a : Nat) (s : State) : Out State := saveArea false a s
/-- SREST (R323). -/
def execSrest (a : Nat) (s : State) : Out State := saveArea true a s

end Sys2Proof.Machine
end

