-- ==== Sys2Proof/Machine/Wake.lean ====
section
/-! DEFINITION. FRAGMENT_WAKE: the end of a fragment's wait (R111, R113 to R117, R318, R368). -/
namespace Sys2Proof.Machine

/-- The stage queue of a warp's team (R176). -/
def stageOf (s : State) (W : Warp) : List Word := ((State.teamOf? s W).map (·.stage)).getD []

/-- The fragment that the issue arbiter would serve first among those of a team that wait in CQGET (R111, R176): one of a
handler before the others, in round-robin order. -/
def State.firstGet (s : State) (team : Nat) : Option (Nat × Nat) :=
  let gets (lev1 : Bool) (e : Nat × Nat) : Bool :=
    match State.fragCtx? s e.1 e.2 with
    | none => false
    | some c => c.warp.team = team && c.frag.wait = .stageGet && State.active s c.warp && Ctx.mayLook c &&
        !Warp.trapDue c.warp && decide (1 ≤ c.frag.hlev) = lev1
  (s.rr.find? (gets true)) <|> s.rr.find? (gets false)

/-- What the wake of a fragment does, by what it waits for. Where the condition does not hold, or another
agent ends the wait, nothing happens. -/
def Ctx.wakeUp (c : Ctx) (s : State) : Out State :=
  let again (b : Bool) : Out State := .next (if b then Ctx.reissue c s else s)
  match c.frag.wait with
  | .ready => .next s
  | .atJoin => .next (State.reportStall s c.warp.team)
  | .mem id =>
    match Warp.req? c.warp id with
    | some r => if r.done then .next (Ctx.advance c 1 s) else .next s
    | none => .next (Ctx.advance c 1 s)
  | .runQueue => again (c.warp.queue.length + (if c.warp.exec.isSome then 1 else 0) < 4)
  | .room p => again (Warp.room c.warp p 1)
  | .runs mask limit =>
    if !Warp.tokensDue c.warp mask limit && !Warp.tokenTrap c.warp mask then
      .next (Ctx.advance c 1 s)
    else .next s
  | .lput limit d a v =>
    if !Warp.uncommitted c.warp limit (fun _ => true) then
      .next (Ctx.advance c 1 (Ctx.on c s (lputWrite c.frag.mask d a v)))
    else .next s
  | .pset limit a p =>
    if !Warp.uncommitted c.warp limit (fun _ => true) then
      .next (Ctx.advance c 1 (Ctx.on c s (psetWrite c.frag.mask a p)))
    else .next s
  | .counter p n => if Warp.counterOk c.warp p n then .next (Ctx.advance c 1 s) else .next s
  | .levelRuns lev => again (Warp.levelDone c.warp lev)
  | .svc _ _ => .next s
  | .stagePut => again ((stageOf s c.warp).length < 16)
  | .stageGet => again (!(stageOf s c.warp).isEmpty && State.firstGet s c.warp.team = some (c.w, c.slot))
  | .command => again (State.commands s (State.coreOf s c.warp) < 32)
  | .ordered sp x n limit => again (!State.localPending s c.warp sp x n limit)
  | .cpyw d sp off => Ctx.cpyw c s d sp off
  | .thbind d h x limit => Ctx.thbind c s d h x limit
  | .stbind d k x limit => Ctx.stbind c s d k x limit
  | .scopeset d k x limit => Ctx.scopeset c s d k x limit
  | .save load va limit => Ctx.save c s load va limit
  | .fence scope set mask runs reqs => Ctx.fence c s scope set mask runs reqs
  | .barrier _ _ _ _ _ => .next s
  | .woken d v => Ctx.answer c d v s
  | .macq _ => .next s
  | .matrixRoom => again ((State.array s (State.coreOf s c.warp)).ops.length < 64)
  | .mwait b => Ctx.mwait (Ctx.awake c) s b
  | .waitv d sp x v eq => Ctx.waitv c s d sp x v eq
  | .ctxRuns op limit seq => Ctx.pub c s op limit seq
  | .ctx _ _ => .next s
  | .ctxRes _ => .next s
  | .trapping cause tval write => Ctx.lateTrap c s cause (dword tval) write
  | .maskwait d x v => Ctx.maskwait c s d x v false
  | .fquiet runs => Ctx.fquiet c s runs
  | .fack r => again ((AMap.get? c.warp.mrecs r).all fun m => m.done)
  | .fgrp _ _ _ _ _ => .next s
  | .fmc d g src off len limit => Ctx.fmc c s d g src off len limit
  | .grids => again (State.liveGrids s < 4096)

/-- FRAGMENT_WAKE: the condition of a waiting fragment of a resident warp holds, and its instruction completes
or issues again (R111). -/
def execFragmentWake (w slot : Nat) (s : State) : Out State :=
  match State.fragCtx? s w slot with
  | none => .next s
  | some c => if State.active s c.warp && Ctx.mayGoOn c then Ctx.wakeUp c s else .next s

end Sys2Proof.Machine
end

