-- ==== Sys2Proof/Machine/Dispatch.lean ====
section
/-! DEFINITION. The one dispatch from an instruction or event to its meaning. -/
namespace Sys2Proof.Machine

/-- The effect of an instruction or event (one arm per row of spec/opcode_table.json). -/
def exec (i : Instr) (s : State) : Host.Outcome State Fault Refusal :=
  match i with
  | .add d a b => Sys2Proof.Machine.execAdd d a b s
  | .sub d a b => Sys2Proof.Machine.execSub d a b s
  | .and d a b => Sys2Proof.Machine.execAnd d a b s
  | .or d a b => Sys2Proof.Machine.execOr d a b s
  | .xor d a b => Sys2Proof.Machine.execXor d a b s
  | .shl d a b => Sys2Proof.Machine.execShl d a b s
  | .shr d a b => Sys2Proof.Machine.execShr d a b s
  | .sra d a b => Sys2Proof.Machine.execSra d a b s
  | .min d a b => Sys2Proof.Machine.execMin d a b s
  | .max d a b => Sys2Proof.Machine.execMax d a b s
  | .minn d a b => Sys2Proof.Machine.execMinn d a b s
  | .maxn d a b => Sys2Proof.Machine.execMaxn d a b s
  | .slt d a b => Sys2Proof.Machine.execSlt d a b s
  | .sltn d a b => Sys2Proof.Machine.execSltn d a b s
  | .seq d a b => Sys2Proof.Machine.execSeq d a b s
  | .sne d a b => Sys2Proof.Machine.execSne d a b s
  | .mul d a b => Sys2Proof.Machine.execMul d a b s
  | .mulh d a b => Sys2Proof.Machine.execMulh d a b s
  | .mulhn d a b => Sys2Proof.Machine.execMulhn d a b s
  | .div d a b => Sys2Proof.Machine.execDiv d a b s
  | .divn d a b => Sys2Proof.Machine.execDivn d a b s
  | .rem d a b => Sys2Proof.Machine.execRem d a b s
  | .remn d a b => Sys2Proof.Machine.execRemn d a b s
  | .lea d a b sh => Sys2Proof.Machine.execLea d a b sh s
  | .popc d a => Sys2Proof.Machine.execPopc d a s
  | .clz d a => Sys2Proof.Machine.execClz d a s
  | .ctz d a => Sys2Proof.Machine.execCtz d a s
  | .brev d a => Sys2Proof.Machine.execBrev d a s
  | .selnz d a b => Sys2Proof.Machine.execSelnz d a b s
  | .extb d a pos len sx => Sys2Proof.Machine.execExtb d a pos len sx s
  | .insb d a pos len => Sys2Proof.Machine.execInsb d a pos len s
  | .addi d a imm => Sys2Proof.Machine.execAddi d a imm s
  | .andi d a imm => Sys2Proof.Machine.execAndi d a imm s
  | .ori d a imm => Sys2Proof.Machine.execOri d a imm s
  | .xori d a imm => Sys2Proof.Machine.execXori d a imm s
  | .shli d a sh => Sys2Proof.Machine.execShli d a sh s
  | .shri d a sh => Sys2Proof.Machine.execShri d a sh s
  | .srai d a sh => Sys2Proof.Machine.execSrai d a sh s
  | .slti d a imm => Sys2Proof.Machine.execSlti d a imm s
  | .sltni d a imm => Sys2Proof.Machine.execSltni d a imm s
  | .seqi d a imm => Sys2Proof.Machine.execSeqi d a imm s
  | .movhi d imm => Sys2Proof.Machine.execMovhi d imm s
  | .movi d imm => Sys2Proof.Machine.execMovi d imm s
  | .movl d lit => Sys2Proof.Machine.execMovl d lit s
  | .fadd d a b => Sys2Proof.Machine.execFadd d a b s
  | .fsub d a b => Sys2Proof.Machine.execFsub d a b s
  | .fmul d a b => Sys2Proof.Machine.execFmul d a b s
  | .fmin d a b => Sys2Proof.Machine.execFmin d a b s
  | .fmax d a b => Sys2Proof.Machine.execFmax d a b s
  | .feq d a b => Sys2Proof.Machine.execFeq d a b s
  | .flt d a b => Sys2Proof.Machine.execFlt d a b s
  | .fle d a b => Sys2Proof.Machine.execFle d a b s
  | .fcvti d a => Sys2Proof.Machine.execFcvti d a s
  | .fcvtf d a => Sys2Proof.Machine.execFcvtf d a s
  | .fabs d a => Sys2Proof.Machine.execFabs d a s
  | .ffma d a b => Sys2Proof.Machine.execFfma d a b s
  | .sld d a off => Sys2Proof.Machine.execSld d a off s
  | .sst d a off => Sys2Proof.Machine.execSst d a off s
  | .xld d a off => Sys2Proof.Machine.execXld d a off s
  | .xst d a off => Sys2Proof.Machine.execXst d a off s
  | .spush a => Sys2Proof.Machine.execSpush a s
  | .spop d => Sys2Proof.Machine.execSpop d s
  | .br off => Sys2Proof.Machine.execBr off s
  | .beqz a off => Sys2Proof.Machine.execBeqz a off s
  | .bnez a off => Sys2Proof.Machine.execBnez a off s
  | .bltz a off => Sys2Proof.Machine.execBltz a off s
  | .bgez a off => Sys2Proof.Machine.execBgez a off s
  | .call a off => Sys2Proof.Machine.execCall a off s
  | .jr a => Sys2Proof.Machine.execJr a s
  | .brv neg p off join => Sys2Proof.Machine.execBrv neg p off join s
  | .exit => Sys2Proof.Machine.execExit s
  | .yield => Sys2Proof.Machine.execYield s
  | .loop a off => Sys2Proof.Machine.execLoop a off s
  | .lrun run await n x0 x1 x2 x3 => Sys2Proof.Machine.execLrun run await n x0 x1 x2 x3 s
  | .lwait mask => Sys2Proof.Machine.execLwait mask s
  | .lget d a v => Sys2Proof.Machine.execLget d a v s
  | .lput d a v => Sys2Proof.Machine.execLput d a v s
  | .pget d p => Sys2Proof.Machine.execPget d p s
  | .pset a p => Sys2Proof.Machine.execPset a p s
  | .waitp a path => Sys2Proof.Machine.execWaitp a path s
  | .rdcnt d path => Sys2Proof.Machine.execRdcnt d path s
  | .fence scope mask => Sys2Proof.Machine.execFence scope mask s
  | .barInit d a b => Sys2Proof.Machine.execBarInit d a b s
  | .barArr d a => Sys2Proof.Machine.execBarArr d a s
  | .barWait d a => Sys2Proof.Machine.execBarWait d a s
  | .barArrwait d a => Sys2Proof.Machine.execBarArrwait d a s
  | .barInv d a => Sys2Proof.Machine.execBarInv d a s
  | .barTest d a => Sys2Proof.Machine.execBarTest d a s
  | .waitvEqSh d a b => Sys2Proof.Machine.execWaitvEqSh d a b s
  | .waitvNeSh d a b => Sys2Proof.Machine.execWaitvNeSh d a b s
  | .waitvEqSc d a b => Sys2Proof.Machine.execWaitvEqSc d a b s
  | .waitvNeSc d a b => Sys2Proof.Machine.execWaitvNeSc d a b s
  | .scopeset d k b => Sys2Proof.Machine.execScopeset d k b s
  | .cpyLin a => Sys2Proof.Machine.execCpyLin a s
  | .cpyTile a => Sys2Proof.Machine.execCpyTile a s
  | .cpyRing a => Sys2Proof.Machine.execCpyRing a s
  | .cpyw d a off => Sys2Proof.Machine.execCpyw d a off s
  | .thbind d h b => Sys2Proof.Machine.execThbind d h b s
  | .cqput a => Sys2Proof.Machine.execCqput a s
  | .cqget d => Sys2Proof.Machine.execCqget d s
  | .lxferRestrict a add => Sys2Proof.Machine.execLxferRestrict a add s
  | .lxferProlong a add => Sys2Proof.Machine.execLxferProlong a add s
  | .lxferInject a add => Sys2Proof.Machine.execLxferInject a add s
  | .stbind d k b => Sys2Proof.Machine.execStbind d k b s
  | .cpyprog d => Sys2Proof.Machine.execCpyprog d s
  | .macqSingle d n => Sys2Proof.Machine.execMacqSingle d n s
  | .macqPair d n => Sys2Proof.Machine.execMacqPair d n s
  | .macqTry d n => Sys2Proof.Machine.execMacqTry d n s
  | .mrel => Sys2Proof.Machine.execMrel s
  | .mldRow t a => Sys2Proof.Machine.execMldRow t a s
  | .mldCol t a => Sys2Proof.Machine.execMldCol t a s
  | .mst t a => Sys2Proof.Machine.execMst t a s
  | .mmaTile acc t slot fmt => Sys2Proof.Machine.execMmaTile acc t slot fmt s
  | .mmaHandle acc h slot fmt => Sys2Proof.Machine.execMmaHandle acc h slot fmt s
  | .mblShared slot a off => Sys2Proof.Machine.execMblShared slot a off s
  | .mblHandle slot a => Sys2Proof.Machine.execMblHandle slot a s
  | .mfence d => Sys2Proof.Machine.execMfence d s
  | .mwait a => Sys2Proof.Machine.execMwait a s
  | .mopf => Sys2Proof.Machine.execMopf s
  | .mdrainShared acc a fmt => Sys2Proof.Machine.execMdrainShared acc a fmt s
  | .mdrainTile acc t fmt => Sys2Proof.Machine.execMdrainTile acc t fmt s
  | .mzero t => Sys2Proof.Machine.execMzero t s
  | .mprog d => Sys2Proof.Machine.execMprog d s
  | .eqOpen d n b => Sys2Proof.Machine.execEqOpen d n b s
  | .eqClose d n => Sys2Proof.Machine.execEqClose d n s
  | .eqSnap d n => Sys2Proof.Machine.execEqSnap d n s
  | .eqUndo d n => Sys2Proof.Machine.execEqUndo d n s
  | .eqKeep d n => Sys2Proof.Machine.execEqKeep d n s
  | .eqStat d n page => Sys2Proof.Machine.execEqStat d n page s
  | .eqrelRoot a => Sys2Proof.Machine.execEqrelRoot a s
  | .eqrelDense a => Sys2Proof.Machine.execEqrelDense a s
  | .eqrelSum a => Sys2Proof.Machine.execEqrelSum a s
  | .eqrelMin a => Sys2Proof.Machine.execEqrelMin a s
  | .eqrelMax a => Sys2Proof.Machine.execEqrelMax a s
  | .ctxRes d a b => Sys2Proof.Machine.execCtxRes d a b s
  | .ctxPub d a b => Sys2Proof.Machine.execCtxPub d a b s
  | .ctxAcq d a b => Sys2Proof.Machine.execCtxAcq d a b s
  | .ctxAbn d a b => Sys2Proof.Machine.execCtxAbn d a b s
  | .ctxStat d a b => Sys2Proof.Machine.execCtxStat d a b s
  | .tempc d a => Sys2Proof.Machine.execTempc d a s
  | .maskwait d a b => Sys2Proof.Machine.execMaskwait d a b s
  | .toksend d a b => Sys2Proof.Machine.execToksend d a b s
  | .fmc d a b lenm1 => Sys2Proof.Machine.execFmc d a b lenm1 s
  | .fquiet => Sys2Proof.Machine.execFquiet s
  | .fgrpSet d a b => Sys2Proof.Machine.execFgrpSet d a b s
  | .fgrpOr d a b => Sys2Proof.Machine.execFgrpOr d a b s
  | .fgrpClear d a b => Sys2Proof.Machine.execFgrpClear d a b s
  | .fack d a page => Sys2Proof.Machine.execFack d a page s
  | .trap k => Sys2Proof.Machine.execTrap k s
  | .tret => Sys2Proof.Machine.execTret s
  | .rdsr d r => Sys2Proof.Machine.execRdsr d r s
  | .wrsr a r => Sys2Proof.Machine.execWrsr a r s
  | .launch a => Sys2Proof.Machine.execLaunch a s
  | .svcPagein d a => Sys2Proof.Machine.execSvcPagein d a s
  | .svcNote d a => Sys2Proof.Machine.execSvcNote d a s
  | .evsel k b => Sys2Proof.Machine.execEvsel k b s
  | .evrd d k => Sys2Proof.Machine.execEvrd d k s
  | .ssave a => Sys2Proof.Machine.execSsave a s
  | .srest a => Sys2Proof.Machine.execSrest a s
  | .lnop o => Sys2Proof.Machine.execLnop o s
  | .trail o => Sys2Proof.Machine.execTrail o s
  | .laneAdd o => Sys2Proof.Machine.execLaneAdd o s
  | .laneSub o => Sys2Proof.Machine.execLaneSub o s
  | .laneMul o => Sys2Proof.Machine.execLaneMul o s
  | .laneMulh o => Sys2Proof.Machine.execLaneMulh o s
  | .mad o => Sys2Proof.Machine.execMad o s
  | .laneDiv o => Sys2Proof.Machine.execLaneDiv o s
  | .laneRem o => Sys2Proof.Machine.execLaneRem o s
  | .laneMin o => Sys2Proof.Machine.execLaneMin o s
  | .laneMax o => Sys2Proof.Machine.execLaneMax o s
  | .abs o => Sys2Proof.Machine.execAbs o s
  | .neg o => Sys2Proof.Machine.execNeg o s
  | .laneAnd o => Sys2Proof.Machine.execLaneAnd o s
  | .laneOr o => Sys2Proof.Machine.execLaneOr o s
  | .laneXor o => Sys2Proof.Machine.execLaneXor o s
  | .not o => Sys2Proof.Machine.execNot o s
  | .laneShl o => Sys2Proof.Machine.execLaneShl o s
  | .laneShr o => Sys2Proof.Machine.execLaneShr o s
  | .laneSra o => Sys2Proof.Machine.execLaneSra o s
  | .rot o => Sys2Proof.Machine.execRot o s
  | .lanePopc o => Sys2Proof.Machine.execLanePopc o s
  | .laneClz o => Sys2Proof.Machine.execLaneClz o s
  | .bfe o => Sys2Proof.Machine.execBfe o s
  | .bfi o => Sys2Proof.Machine.execBfi o s
  | .sad o => Sys2Proof.Machine.execSad o s
  | .laneFadd o => Sys2Proof.Machine.execLaneFadd o s
  | .laneFsub o => Sys2Proof.Machine.execLaneFsub o s
  | .laneFmul o => Sys2Proof.Machine.execLaneFmul o s
  | .laneFfma o => Sys2Proof.Machine.execLaneFfma o s
  | .laneFmin o => Sys2Proof.Machine.execLaneFmin o s
  | .laneFmax o => Sys2Proof.Machine.execLaneFmax o s
  | .laneFabs o => Sys2Proof.Machine.execLaneFabs o s
  | .fneg o => Sys2Proof.Machine.execFneg o s
  | .frcp o => Sys2Proof.Machine.execFrcp o s
  | .frsq o => Sys2Proof.Machine.execFrsq o s
  | .fsqrt o => Sys2Proof.Machine.execFsqrt o s
  | .fdiv o => Sys2Proof.Machine.execFdiv o s
  | .fexp2 o => Sys2Proof.Machine.execFexp2 o s
  | .fexp o => Sys2Proof.Machine.execFexp o s
  | .flog2 o => Sys2Proof.Machine.execFlog2 o s
  | .fsin o => Sys2Proof.Machine.execFsin o s
  | .fcos o => Sys2Proof.Machine.execFcos o s
  | .ftanh o => Sys2Proof.Machine.execFtanh o s
  | .fclass o => Sys2Proof.Machine.execFclass o s
  | .cvt o => Sys2Proof.Machine.execCvt o s
  | .cvtsr o => Sys2Proof.Machine.execCvtsr o s
  | .qnt o => Sys2Proof.Machine.execQnt o s
  | .dqn o => Sys2Proof.Machine.execDqn o s
  | .pack o => Sys2Proof.Machine.execPack o s
  | .unpk o => Sys2Proof.Machine.execUnpk o s
  | .rng4 o => Sys2Proof.Machine.execRng4 o s
  | .setp o => Sys2Proof.Machine.execSetp o s
  | .plog o => Sys2Proof.Machine.execPlog o s
  | .sel o => Sys2Proof.Machine.execSel o s
  | .mov o => Sys2Proof.Machine.execMov o s
  | .movp o => Sys2Proof.Machine.execMovp o s
  | .perm o => Sys2Proof.Machine.execPerm o s
  | .shfl o => Sys2Proof.Machine.execShfl o s
  | .vote o => Sys2Proof.Machine.execVote o s
  | .red o => Sys2Proof.Machine.execRed o s
  | .scan o => Sys2Proof.Machine.execScan o s
  | .matchLanes o => Sys2Proof.Machine.execMatchLanes o s
  | .lds o => Sys2Proof.Machine.execLds o s
  | .sts o => Sys2Proof.Machine.execSts o s
  | .ldx o => Sys2Proof.Machine.execLdx o s
  | .stx o => Sys2Proof.Machine.execStx o s
  | .ldk o => Sys2Proof.Machine.execLdk o s
  | .stk o => Sys2Proof.Machine.execStk o s
  | .ats o => Sys2Proof.Machine.execAts o s
  | .atx o => Sys2Proof.Machine.execAtx o s
  | .gath o => Sys2Proof.Machine.execGath o s
  | .scat o => Sys2Proof.Machine.execScat o s
  | .faxLd o => Sys2Proof.Machine.execFaxLd o s
  | .faxLdg o => Sys2Proof.Machine.execFaxLdg o s
  | .faxSt o => Sys2Proof.Machine.execFaxSt o s
  | .faxUnite o => Sys2Proof.Machine.execFaxUnite o s
  | .faxFind o => Sys2Proof.Machine.execFaxFind o s
  | .faxAtomic o => Sys2Proof.Machine.execFaxAtomic o s
  | .unite o => Sys2Proof.Machine.execUnite o s
  | .find o => Sys2Proof.Machine.execFind o s
  | .macqGrant core => Sys2Proof.Machine.execMacqGrant core s
  | .eqrelRun w id g => Sys2Proof.Machine.execEqrelRun w id g s
  | .ctxReservationGrant ctx => Sys2Proof.Machine.execCtxReservationGrant ctx s
  | .maskwaitTimeout w slot => Sys2Proof.Machine.execMaskwaitTimeout w slot s
  | .tokenInboxWrite msg => Sys2Proof.Machine.execTokenInboxWrite msg s
  | .tokenReply w id status => Sys2Proof.Machine.execTokenReply w id status s
  | .uniteServe w id => Sys2Proof.Machine.execUniteServe w id s
  | .findServe w id => Sys2Proof.Machine.execFindServe w id s
  | .runStart w => Sys2Proof.Machine.execRunStart w s
  | .runCommit w => Sys2Proof.Machine.execRunCommit w s
  | .resultLands w id lane => Sys2Proof.Machine.execResultLands w id lane s
  | .requestRetires w id => Sys2Proof.Machine.execRequestRetires w id s
  | .fragmentWake w slot => Sys2Proof.Machine.execFragmentWake w slot s
  | .warpEnd w => Sys2Proof.Machine.execWarpEnd w s
  | .asyncTrapTaken w => Sys2Proof.Machine.execAsyncTrapTaken w s
  | .copyGranule w id g => Sys2Proof.Machine.execCopyGranule w id g s
  | .copyComplete w id => Sys2Proof.Machine.execCopyComplete w id s
  | .lxferPoint w id => Sys2Proof.Machine.execLxferPoint w id s
  | .matrixOpUnit core turn => Sys2Proof.Machine.execMatrixOpUnit core turn s
  | .scanRequest req => Sys2Proof.Machine.execScanRequest req s
  | .preempt team => Sys2Proof.Machine.execPreempt team s
  | .teamResume team core => Sys2Proof.Machine.execTeamResume team core s
  | .stallHint port peer => Sys2Proof.Machine.execStallHint port peer s
  | .stallHintLapse port peer => Sys2Proof.Machine.execStallHintLapse port peer s
  | .parkedSwapOut team => Sys2Proof.Machine.execParkedSwapOut team s
  | .shootRange => Sys2Proof.Machine.execShootRange s
  | .shootAsid => Sys2Proof.Machine.execShootAsid s
  | .flushad => Sys2Proof.Machine.execFlushad s
  | .create die => Sys2Proof.Machine.execCreate die s
  | .delete die => Sys2Proof.Machine.execDelete die s
  | .abandonq die => Sys2Proof.Machine.execAbandonq die s
  | .ctxReportRead die => Sys2Proof.Machine.execCtxReportRead die s
  | .faxHomeServe pkt => Sys2Proof.Machine.execFaxHomeServe pkt s
  | .faxResponse w id resp => Sys2Proof.Machine.execFaxResponse w id resp s
  | .multicastReplicate w rec chip => Sys2Proof.Machine.execMulticastReplicate w rec chip s
  | .multicastLineServe line => Sys2Proof.Machine.execMulticastLineServe line s
  | .multicastAggregate w rec dev reason => Sys2Proof.Machine.execMulticastAggregate w rec dev reason s
  | .portFailure port => Sys2Proof.Machine.execPortFailure port s
  | .linkTraining port version dev => Sys2Proof.Machine.execLinkTraining port version dev s
  | .lateRequest w id => Sys2Proof.Machine.execLateRequest w id s
  | .laterepRead => Sys2Proof.Machine.execLaterepRead s
  | .resetNotice peer q rcnt => Sys2Proof.Machine.execResetNotice peer q rcnt s
  | .resetNoticeAck peer q => Sys2Proof.Machine.execResetNoticeAck peer q s
  | .keyInstall port => Sys2Proof.Machine.execKeyInstall port s
  | .keyAlarm port => Sys2Proof.Machine.execKeyAlarm port s
  | .keyExhausted port => Sys2Proof.Machine.execKeyExhausted port s
  | .writeWindow => Sys2Proof.Machine.execWriteWindow s
  | .revoke => Sys2Proof.Machine.execRevoke s
  | .revokeComplete => Sys2Proof.Machine.execRevokeComplete s
  | .doorbell q wptr => Sys2Proof.Machine.execDoorbell q wptr s
  | .queueReset q => Sys2Proof.Machine.execQueueReset q s
  | .resume q => Sys2Proof.Machine.execResume q s
  | .disable q => Sys2Proof.Machine.execDisable q s
  | .resetComplete q => Sys2Proof.Machine.execResetComplete q s
  | .packetPrefetch q => Sys2Proof.Machine.execPacketPrefetch q s
  | .nopPacket q => Sys2Proof.Machine.execNopPacket q s
  | .resetPacket q => Sys2Proof.Machine.execResetPacket q s
  | .fetchfence q => Sys2Proof.Machine.execFetchfence q s
  | .signal q => Sys2Proof.Machine.execSignal q s
  | .waitsig q => Sys2Proof.Machine.execWaitsig q s
  | .waitsigTimeout q => Sys2Proof.Machine.execWaitsigTimeout q s
  | .ib q => Sys2Proof.Machine.execIb q s
  | .ibret q => Sys2Proof.Machine.execIbret q s
  | .launchPacket q => Sys2Proof.Machine.execLaunchPacket q s
  | .nlaunch q => Sys2Proof.Machine.execNlaunch q s
  | .copyPacket q => Sys2Proof.Machine.execCopyPacket q s
  | .harvest q => Sys2Proof.Machine.execHarvest q s
  | .queueWaitEnd q => Sys2Proof.Machine.execQueueWaitEnd q s
  | .hubCopyBlock id g => Sys2Proof.Machine.execHubCopyBlock id g s
  | .hubCopyComplete id => Sys2Proof.Machine.execHubCopyComplete id s
  | .teamPlace grid => Sys2Proof.Machine.execTeamPlace grid s
  | .nbhdPlace grid => Sys2Proof.Machine.execNbhdPlace grid s
  | .gridRetire grid => Sys2Proof.Machine.execGridRetire grid s
  | .boot slots => Sys2Proof.Machine.execBoot slots s
  | .spare die => Sys2Proof.Machine.execSpare die s
  | .attest => Sys2Proof.Machine.execAttest s
  | .extend => Sys2Proof.Machine.execExtend s
  | .evgrant => Sys2Proof.Machine.execEvgrant s
  | .raisemin => Sys2Proof.Machine.execRaisemin s
  | .hkey => Sys2Proof.Machine.execHkey s
  | .elogRead die => Sys2Proof.Machine.execElogRead die s
  | .hbmScrub => Sys2Proof.Machine.execHbmScrub s
  | .heartbeatSend => Sys2Proof.Machine.execHeartbeatSend s
  | .heartbeatReceive peer => Sys2Proof.Machine.execHeartbeatReceive peer s
  | .partnerSilent peer => Sys2Proof.Machine.execPartnerSilent peer s
  | .quorumResetMessage msg => Sys2Proof.Machine.execQuorumResetMessage msg s
  | .thermalWarning => Sys2Proof.Machine.execThermalWarning s
  | .thermalTrip => Sys2Proof.Machine.execThermalTrip s
  | .registerWrite pa v => Sys2Proof.Machine.execRegisterWrite pa v s
  | .eqServe w id => Sys2Proof.Machine.execEqServe w id s
  | .ctxServe w slot => Sys2Proof.Machine.execCtxServe w slot s
  | .supervisorReply r => Sys2Proof.Machine.execSupervisorReply r s
  | .generalCoreStore place bytes => Sys2Proof.Machine.execGeneralCoreStore place bytes s
  | .hostMemoryWrite pa bytes => Sys2Proof.Machine.execHostMemoryWrite pa bytes s
  | .groupTableUpdate w slot chip ack => Sys2Proof.Machine.execGroupTableUpdate w slot chip ack s
  | .softError err => Sys2Proof.Machine.execSoftError err s
  | .powerLoss standby => Sys2Proof.Machine.execPowerLoss standby s

end Sys2Proof.Machine
end

