-- ==== Sys2Proof/Machine/Step.lean ====
section
/-! DEFINITION. One step of the device: the agent whose turn it is acts (log 1). -/
namespace Sys2Proof.Machine

/-- The scalar stream of the fragment at State.cur executes its next instruction (R97); a pending
trap is taken first (R315), and a fetch fault is a trap at the address itself (R73). DESIGN CHOICE: log 81. -/
def stepScalar (s : State) : Out State :=
  match nextScalar s with
  | .idle => .next s
  | .pending => .next ((takePending s s.cur.1).getD s)
  | .fault f va => withFrag s fun c => Ctx.fetchFault c s (causeCode 2 0) f va
  | .instr i s => exec i s
  | .bad r => .refused (.notInstruction r)

/-- The run of the warp at State.laneCur executes its next instruction (R119). -/
def stepLane (s : State) : Out State :=
  match nextLane s with
  | none => (State.lostSlot s).getD (.next s)
  | some (.ok i) => exec i s
  | some (.error r) => .refused (.notInstruction r)

/-- One step: the next turn is taken from the agenda, or from the arbiter's order (R111); an agenda
entry that is no event, and a turn that nothing can take, pass without effect: a fragment's is one that its
core's arbiter does not give it. Before BOOT the island alone acts (R356). DESIGN CHOICE: log 8. -/
def step (s : State) : Host.Outcome State Fault Refusal :=
  match State.nextTurn s with
  | none => .next s
  | some (t, s) =>
    if !State.acts s t then .next s
    else match t with
      | .event i => if i.kind = .event then exec i s else .next s
      | .scalar w slot =>
        if State.chosen s (w, slot) then stepScalar { State.issueTo s w slot with cur := (w, slot) } else .next s
      | .lane w => stepLane { s with laneCur := w }

/-- The state in which the next step fetches and runs exactly the instruction of a table word.
DESIGN CHOICE: log 6. -/
def State.withFetchWord (s : State) (nbits w : Nat) : State :=
  State.placeCode s (tableBytes nbits w) (64 < nbits)

end Sys2Proof.Machine
end

