-- ==== Sys2Proof/Safety.lean ====
section
/-! DEFINITION. What counts as a safe run, and the terms in which claims about one instruction are
stated: the bytes that programs can address, what an instruction of a fragment or of a run changes,
and that it changes nothing else. -/
namespace Sys2Proof.Machine

/-! ### Safe runs -/

/-- A run of `n` steps that meets no fault and no refusal. -/
def safeRun (n : Nat) (s : State) : Prop := ∃ t, Host.Core.run Sys2Proof.core n s = .next t

/-- The canonical form of the device's main memory. -/
def State.canonical (s : State) : Prop := Memory.wf s.main = true

/-! ### Bytes that programs address -/

/-- A byte of main memory, of a team's shared memory, of a grid's scratchpad region on a die, or of a
warp's spill stack. -/
inductive Loc where
  | main (a : Nat)
  | shared (t a : Nat)
  | scratch (g die a : Nat)
  | spill (w a : Nat)
  deriving DecidableEq, Repr

/-- The byte there; 0 where the storage does not exist. -/
def State.byteAt (s : State) : Loc → Byte
  | .main a => Memory.byte s.main a
  | .shared t a =>
    match s.teams[t]? with
    | some T => Memory.byte T.shm a
    | none => 0
  | .scratch g die a =>
    match (s.grids[g]?).bind fun G => G.scr[die]? with
    | some m => Memory.byte m a
    | none => 0
  | .spill w a =>
    match s.warps[w]? with
    | some W => UMem.byte W.spill a
    | none => 0

/-- Every byte reads as before. -/
def sameBytes (s t : State) : Prop := ∀ l, State.byteAt t l = State.byteAt s l

/-- Whether a byte lies among the `n` bytes at a place of warp w. -/
def Place.covers (p : Place) (w n : Nat) (l : Loc) : Prop :=
  match p, l with
  | .team t off, .shared t' a => t' = t ∧ off ≤ a ∧ a < off + n
  | .scratch g die off, .scratch g' die' a => g' = g ∧ die' = die ∧ off ≤ a ∧ a < off + n
  | .spill off, .spill w' a => w' = w ∧ off ≤ a ∧ a < off + n
  | _, _ => False

/-- Every byte outside the `n` bytes at a place reads as before. -/
def sameBytesBut (s t : State) (w : Nat) (p : Place) (n : Nat) : Prop :=
  ∀ l, ¬ Place.covers p w n l → State.byteAt t l = State.byteAt s l

/-- Whether the storage of a place exists. -/
def Place.present (p : Place) (s : State) (w : Nat) : Prop :=
  match p with
  | .team t _ => t < s.teams.length
  | .scratch g die _ => ∃ G, s.grids[g]? = some G ∧ die < G.scr.length
  | .spill _ => w < s.warps.length

/-- Whether a byte lies among the `n` bytes where an end lies, for warp w. -/
def Where.covers (p : Where) (w n : Nat) (l : Loc) : Prop :=
  match p, l with
  | .chip p, l => Place.covers p w n l
  | .main pa, .main a => pa ≤ a ∧ a < pa + n
  | _, _ => False

/-- Whether the storage where an end lies exists. -/
def Where.present (p : Where) (s : State) (w : Nat) : Prop :=
  match p with
  | .chip p => Place.present p s w
  | .main _ => True

/-- Where an end of a copy lies for a warp, when the TLB of its core holds the translation of a main
memory address with the rights that the access needs (R328). -/
def State.lies (s : State) (W : Warp) (e : End) (write : Bool) : Option Where :=
  match e with
  | .chip sp off => some (.chip (State.placeOf s W sp off))
  | .main va =>
    match State.tlbHit s (.core (State.coreOf s W)) (State.asidOf s W) va with
    | some x =>
      if rightsAllow x.r x.w x.x (if write then .write else .read) then some (.main (x.pa + (va - x.va))) else none
    | none => none

/-! ### Instructions of a fragment -/

/-- State `t` is state `s` with the executing fragment's warp, and nothing else, become `V`. -/
def onlyWarp (s t : State) (w : Nat) (V : Warp) : Prop := t = { s with warps := s.warps.set w V }

/-- Of a warp only the registers of `ds` and the fragments differ, and for a register of `ds` who has still to write it
(R97). -/
def Warp.onlyRegs (W V : Warp) (ds : List Nat) : Prop :=
  V = { W with sregs := V.sregs, frags := V.frags, owed := V.owed } ∧
  ∀ r, r ∉ ds → Warp.s V r = Warp.s W r ∧ AMap.get? V.owed r = AMap.get? W.owed r

/-- The frame of an instruction of `n` words that completes and writes scalar registers: of the warp, only
the registers of `ds` and the fragments differ, and the fragments are those in which the executing one
has arrived at the next instruction; nothing else of the device differs; every byte reads as before. -/
def scalarFrame (s t : State) (c : Ctx) (n : Nat) (ds : List Nat) (V : Warp) : Prop :=
  onlyWarp s t c.w V ∧
  Warp.onlyRegs c.warp V ds ∧
  V.frags = (Warp.arrive c.warp c.slot (c.frag.pc + word (4 * n))).frags ∧
  sameBytes s t

/-- An instruction of `n` words completes with a value in S[d]; a write to s0 is discarded. -/
def yields (o : Out State) (s : State) (c : Ctx) (n d : Nat) (v : Word) : Prop :=
  ∃ t V, o = .next t ∧ scalarFrame s t c n [d] V ∧ Warp.s V d = if d = 0 then 0 else v

/-- An instruction of `n` words completes and writes no register. -/
def passes (o : Out State) (s : State) (c : Ctx) (n : Nat) : Prop :=
  ∃ t V, o = .next t ∧ scalarFrame s t c n [] V

/-- The executing fragment waits at its instruction for `k`, with nothing else changed but that the registers which the
instruction will write are its to write (R97). -/
def waits (o : Out State) (s : State) (c : Ctx) (k : Wait) : Prop :=
  o = .next (State.setWarp s c.w (Warp.await c.warp c.slot k))

/-- No later instruction has overtaken the write of a register by the instruction in which a fragment waits (R97). -/
def Ctx.owns (c : Ctx) (d : Nat) : Prop :=
  Wait.dests c.frag.wait ≠ [] ∧ (d ≠ 0 → Writer.frag c.slot ∈ Warp.writers c.warp d)

/-- An instruction of `n` words completes with a value in S[d], and besides changes its warp by `f`: the
next state is that of `yields`, had the warp been changed by `f` first. -/
def yieldsOn (o : Out State) (s : State) (c : Ctx) (n d : Nat) (v : Word) (f : Warp → Warp) : Prop :=
  yields o (State.setWarp s c.w (f c.warp)) { c with warp := f c.warp } n d v

/-- An instruction of `n` words completes, writes no register, and besides changes its warp by `f`. -/
def passesOn (o : Out State) (s : State) (c : Ctx) (n : Nat) (f : Warp → Warp) : Prop :=
  passes o (State.setWarp s c.w (f c.warp)) { c with warp := f c.warp } n

/-- A fragment's instruction transfers control to a scalar-section offset and writes the registers of
`ds`: `u` is the state after the target's check, which has gathered the translation (R73, R329). -/
def branches (o : Out State) (s u : State) (c : Ctx) (target : Word) (ds : List Nat) (V : Warp) : Prop :=
  o = .next (State.setWarp u c.w V) ∧ u = { s with tlb := u.tlb } ∧
  Warp.onlyRegs c.warp V ds ∧
  V.frags = (Warp.arrive c.warp c.slot target).frags ∧
  sameBytes s (State.setWarp u c.w V)

/-- The check of a target of a control transfer of a fragment (R73). -/
def Ctx.target (c : Ctx) (s : State) (t : Word) : Except FetchFault (State × Nat) :=
  State.checkStart s (.core (State.coreOf s c.warp)) (State.asidOf s c.warp)
    (State.scalarVA s c.warp t) false

/-- A fragment's instruction does nothing but take a precise trap (R118, R317). -/
def traps (o : Out State) (s : State) (c : Ctx) (cause : Nat) (tval : DWord) (write : Bool := false) :
    Prop :=
  o = .next (takeTrap s c.w (some c.slot)
    { kind := .scalar, cause := cause, mask := c.frag.mask, tval := tval, write := write, run := none })

/-- Whether a trap of a fragment's instruction is taken at once: no run of the warp executes and no other trap of it is
due (R315, R317). -/
def Ctx.mayTrap (c : Ctx) : Prop :=
  c.warp.exec = none ∧ c.warp.laneTrap = none ∧ Warp.dueAsync c.warp = none

/-! ### Requests of fragments and steps of events -/

/-- A warp with a request issued, numbered after its earlier ones. -/
def Warp.issued (W : Warp) (r : Req) : Warp :=
  { W with reqs := W.reqs ++ [{ r with id := W.nextReq }], nextReq := W.nextReq + 1 }

/-- A request of a fragment on a path, as it stands at its issue. -/
def Warp.newReq (W : Warp) (p : Path) (op : ReqOp) : Req :=
  { id := 0, path := p, op := op, todo := [], land := [], done := false, run := none, token := 0,
    lev := W.tlev }

/-- A fragment's instruction issues a request, whose registers are its to write (R97), and waits for it at its
instruction. -/
def awaits (o : Out State) (s : State) (c : Ctx) (r : Req) : Prop :=
  o = .next (State.setWarp s c.w (Warp.onFrag
    (Warp.issued (Warp.owe c.warp (.req c.warp.nextReq) (ReqOp.sdests r.op)) r) c.slot fun f =>
      { f with wait := .mem c.warp.nextReq }))

/-- A fragment's instruction of one word issues a request and completes; it writes no register. -/
def posts (o : Out State) (s : State) (c : Ctx) (r : Req) : Prop :=
  passesOn o s c 1 fun W => Warp.issued W r

/-- A command that has passed its checks issues as one request and completes the instruction, once its path has
room and, on CP, the copy unit a place; else the instruction waits, with nothing changed (R117, R168). `u` is the
state with a barrier's PEND raised. -/
def issuesCommand (o : Out State) (s u : State) (c : Ctx) (p : Path) (k : CopyCmd) : Prop :=
  let held := (c.warp.reqs.filter fun q => q.path = p).length
  let full : Prop := p = .cp ∧ 32 ≤ State.commands s (State.coreOf s c.warp)
  (held < 4095 → ¬ full → posts o u c (Warp.newReq c.warp p (.copy k))) ∧
  (4095 ≤ held → waits o s c (.room p)) ∧
  (held < 4095 → full → waits o s c .command)

/-- The end of a command's issue, by its completion word (R170, R226): no record, a slot, or a slot whose ARRIVE word
names an initialised object, whose PEND rises by 1; a word that fails traps. -/
def issuesCopy (o : Out State) (s : State) (c : Ctx) (p : Path) (work : CopyWork) (mode cw : Nat) : Prop :=
  let W := c.warp
  let cmd (slot : Option (Space × Nat)) (bar : Option Nat) : CopyCmd :=
    { work := work, mode := mode, slot := slot, bar := bar, stop := .running }
  let space := bits cw 31 28
  let off := bits cw 27 0 - bits cw 27 0 % 64
  (space = 15 → bits cw 5 0 = 0 → issuesCommand o s s c p (cmd none none)) ∧
  (Ctx.mayTrap c → bits cw 4 0 ≠ 0 ∨ (cw.testBit 5 = true ∧ space = 15) ∨ space ∉ [0, 1, 15] →
    traps o s c (4 * 64) (dword cw)) ∧
  ∀ sp, (space = 0 ∧ sp = Space.shared ∨ space = 1 ∧ sp = .scratch) → bits cw 4 0 = 0 →
    (∀ cause, Ctx.mayTrap c → State.chipRange s W sp off 64 = some cause → traps o s c cause (dword cw)) ∧
    (State.chipRange s W sp off 64 = none →
      (cw.testBit 5 = false → issuesCommand o s s c p (cmd (some (sp, off)) none)) ∧
      ∀ x, cw.testBit 5 = true → W.mtouch = [] → State.localPending s W sp (off + 60) 4 W.nextReq = false →
        State.badPlace s c.w (State.placeOf s W sp (off + 60)) 4 = false →
        State.readPlace s c.w (State.placeOf s W sp (off + 60)) 4 = x →
        (Ctx.mayTrap c → x % 8 ≠ 0 → traps o s c (3 * 64 + 5) (dword x)) ∧
        ∀ t a len, x % 8 = 0 → State.sharedAt s W x = some (t, a, len) →
          State.badPlace s c.w (.team t a) 8 = false →
          let b := State.bar s t a
          (Ctx.mayTrap c → len < a + 8 → traps o s c (3 * 64) (dword x)) ∧
          (Ctx.mayTrap c → a + 8 ≤ len → b.count = 0 → traps o s c (4 * 64) (dword x)) ∧
          (a + 8 ≤ len → b.count ≠ 0 → issuesCommand o s (State.setBar s t a { b with pend := b.pend + 1 }) c p
            (cmd (some (sp, off)) (some x))))

/-- A fragment stands in an entry of a warp's split table. -/
def Ctx.stands (c : Ctx) (s : State) : Prop :=
  s.warps[c.w]? = some c.warp ∧ Warp.frag? c.warp c.slot = some c.frag

/-- The element that `k` parents up from e leads to (R231). -/
def State.climb (s : State) (F : Forest) : (k e : Nat) → Nat
  | 0, e => e
  | k + 1, e => State.climb s F k (State.entry s F e).1

/-- The element e of a forest reaches the root r along k parents (R231, R241). -/
def State.reaches (s : State) (F : Forest) (k e r : Nat) : Prop :=
  State.climb s F k e = r ∧ (State.entry s F r).1 = r

/-! ### Instructions of a run -/

/-- The run after one instruction that collects write-backs and requests and leaves a latch. -/
def RunExec.after (e : RunExec) (latch : List DWord) (wbs : List WriteBack) (reqs : List Req) : RunExec :=
  { e with idx := e.idx + 1, latch := e.latch ++ [latch], wbs := e.wbs ++ wbs, reqs := e.reqs ++ reqs }

/-- The frame of an instruction of a run that completes: of its warp only the run differs, which holds
its latch and what it collects for the commit; of the device besides only the event counters; every
byte reads as before. -/
def runFrame (s t : State) (c : LaneCtx) (latch : List DWord) (wbs : List WriteBack)
    (reqs : List Req) : Prop :=
  t = { s with warps := s.warps.set c.w { c.warp with exec := some (RunExec.after c.ex latch wbs reqs) },
               events := t.events } ∧
  sameBytes s t

/-- The latch of a lane instruction: the value in each lane that takes part, zero in the others (R119). -/
def latchOf (c : LaneCtx) (o : LaneOp) (f : Nat → Nat) : List DWord :=
  (List.range 32).map fun L => if LaneCtx.part c o L then dword (f L) else 0

/-- The write-backs of a value of 32 or 64 bits to d, or d and d + 1, in the lanes that take part; none
with nw set. -/
def regWrites (c : LaneCtx) (o : LaneOp) (wide : Bool) (f : Nat → Nat) : List WriteBack :=
  if o.nw then [] else
    (List.range 32).flatMap fun L =>
      if LaneCtx.part c o L then
        WriteBack.vreg L o.d (word (f L)) ::
          (if wide then [WriteBack.vreg L (o.d + 1) (word (f L / 2 ^ 32))] else [])
      else []

/-- An instruction of a run completes and gives each lane that takes part a value. -/
def laneGives (o : Out State) (s : State) (c : LaneCtx) (i : LaneOp) (wide : Bool) (f : Nat → Nat) :
    Prop :=
  ∃ t, o = .next t ∧ runFrame s t c (latchOf c i f) (regWrites c i wide f) []

/-- An instruction of a run completes and gives each lane that takes part a truth value, for predicate
d. -/
def laneDecides (o : Out State) (s : State) (c : LaneCtx) (i : LaneOp) (f : Nat → Bool) : Prop :=
  ∃ t, o = .next t ∧
    runFrame s t c (latchOf c i fun L => if f L then 1 else 0)
      (if i.nw then [] else (List.range 32).flatMap fun L =>
        if LaneCtx.part c i L then [WriteBack.preg L i.d (f L)] else []) []

/-- An instruction of a run meets a trapping condition: the run is discarded and stands as its warp's lane
trap, which is taken as soon as it can be (R20, R315, R317). -/
def laneTraps (o : Out State) (s : State) (c : LaneCtx) (cause : Nat) (m : Word) (tval : DWord)
    (write : Bool := false) : Prop :=
  let due : Pending :=
    { id := 0, token := none, cause := cause, mask := m, tval := tval, write := write, lev := c.warp.tlev,
      run := some c.ex.entry }
  let W : Warp := { c.warp with exec := none, laneTrap := some due }
  ∃ u, u = { s with warps := s.warps.set c.w W, events := u.events } ∧
    o = .next ((takePending u c.w).getD u)

/-- An instruction of a run completes, its latch zero, with requests collected for the commit. -/
def laneAsks (o : Out State) (s : State) (c : LaneCtx) (reqs : List Req) : Prop :=
  ∃ t, o = .next t ∧ runFrame s t c (List.replicate 32 0) [] reqs

end Sys2Proof.Machine
end

