-- ==== Sys2Proof/Certificates/Slice0/Obligations.lean ====
section
/-! DEFINITION. The statements for the provers. -/
open Sys2Proof Sys2Proof.Machine

/-- The sixteen register-register ALU instructions write the table's result to S[d] and change nothing
else. For every state with an executing fragment and every d, a, b: ADD, SUB, AND, OR, XOR, SHL,
SHR, SRA, MIN, MAX, MINN, MAXN, SLT, SLTN, SEQ and SNE answer a next state in which S[d] holds the
result of the table (0 where d is s0), the fragment has arrived at the next word, and every other
register, flag, special register and byte is unchanged. (R98) -/
def Obligations.ScalarAluWritesResult : Prop :=
  ∀ (s : State) (c : Ctx) (d a b : Nat), State.ctx? s = some c →
    let A := Warp.s c.warp a
    let B := Warp.s c.warp b
    yields (exec (.add d a b) s) s c 1 d (BitVec.ofNat 32 (A.toNat + B.toNat)) ∧
    yields (exec (.sub d a b) s) s c 1 d (BitVec.ofInt 32 (A.toNat - B.toNat)) ∧
    yields (exec (.and d a b) s) s c 1 d (A &&& B) ∧
    yields (exec (.or d a b) s) s c 1 d (A ||| B) ∧
    yields (exec (.xor d a b) s) s c 1 d (A ^^^ B) ∧
    yields (exec (.shl d a b) s) s c 1 d (BitVec.ofNat 32 (A.toNat * 2 ^ (B.toNat % 32))) ∧
    yields (exec (.shr d a b) s) s c 1 d (BitVec.ofNat 32 (A.toNat / 2 ^ (B.toNat % 32))) ∧
    yields (exec (.sra d a b) s) s c 1 d (BitVec.ofInt 32 (A.toInt / 2 ^ (B.toNat % 32))) ∧
    yields (exec (.min d a b) s) s c 1 d (BitVec.ofInt 32 (min A.toInt B.toInt)) ∧
    yields (exec (.max d a b) s) s c 1 d (BitVec.ofInt 32 (max A.toInt B.toInt)) ∧
    yields (exec (.minn d a b) s) s c 1 d (BitVec.ofNat 32 (min A.toNat B.toNat)) ∧
    yields (exec (.maxn d a b) s) s c 1 d (BitVec.ofNat 32 (max A.toNat B.toNat)) ∧
    yields (exec (.slt d a b) s) s c 1 d (if A.toInt < B.toInt then 1 else 0) ∧
    yields (exec (.sltn d a b) s) s c 1 d (if A.toNat < B.toNat then 1 else 0) ∧
    yields (exec (.seq d a b) s) s c 1 d (if A = B then 1 else 0) ∧
    yields (exec (.sne d a b) s) s c 1 d (if A = B then 0 else 1)

/-- The scalar multiply, divide and immediate instructions write the stated value. MUL, MULH and MULHN
write the named half of the product. DIV, DIVN, REM and REMN, when the divisor is not zero or
TCTL.DZ is clear, write the quotient truncated toward zero or the remainder with the dividend's
sign; a zero divisor gives all ones as quotient and the dividend as remainder, and the most negative
number divided by -1 gives itself. With TCTL.DZ set and a zero divisor each of the four, with no run
executing and no trap due, traps with DIVZ, TVAL the dividend, and does nothing else. Otherwise
nothing else changes. ADDI, ANDI, ORI, XORI, SHLI, SHRI, SRAI, SLTI, SLTNI, SEQI, MOVHI, MOVI and
MOVL write the table's result to S[d]; MOVL completes at the word after its literal; a write to s0
is discarded; nothing else changes. (R99, R95, R96, R101, R56, R369, 06_scalar_stream.md) -/
def Obligations.ScalarMultiplyDivideAndImmediateResults : Prop :=
  (∀ (s : State) (c : Ctx) (d a b : Nat), State.ctx? s = some c →
      let A := Warp.s c.warp a
      let B := Warp.s c.warp b
      yields (exec (.mul d a b) s) s c 1 d (BitVec.ofInt 32 (A.toInt * B.toInt)) ∧
      yields (exec (.mulh d a b) s) s c 1 d (((A.signExtend 64 * B.signExtend 64) >>> 32).setWidth 32) ∧
      yields (exec (.mulhn d a b) s) s c 1 d (((A.setWidth 64 * B.setWidth 64) >>> 32).setWidth 32) ∧
      (B ≠ 0 ∨ c.warp.tctl.getLsbD 0 = false →
        yields (exec (.div d a b) s) s c 1 d
          (if B = 0 then BitVec.allOnes 32 else BitVec.ofInt 32 (Int.tdiv A.toInt B.toInt)) ∧
        yields (exec (.divn d a b) s) s c 1 d
          (if B = 0 then BitVec.allOnes 32 else BitVec.ofNat 32 (A.toNat / B.toNat)) ∧
        yields (exec (.rem d a b) s) s c 1 d
          (if B = 0 then A else BitVec.ofInt 32 (Int.tmod A.toInt B.toInt)) ∧
        yields (exec (.remn d a b) s) s c 1 d
          (if B = 0 then A else BitVec.ofNat 32 (A.toNat % B.toNat))) ∧
      (B = 0 → c.warp.tctl.getLsbD 0 = true → Ctx.mayTrap c →
        ∀ i, i ∈ [Instr.div d a b, .divn d a b, .rem d a b, .remn d a b] →
          traps (exec i s) s c (1 * 64 + 0) (dword A.toNat))) ∧
  (∀ (s : State) (c : Ctx) (d a sh : Nat) (imm : Int) (lit : Word), State.ctx? s = some c → sh < 32 →
      let A := Warp.s c.warp a
      let I : Word := BitVec.ofInt 32 imm
      yields (exec (.addi d a imm) s) s c 1 d (BitVec.ofInt 32 (A.toInt + imm)) ∧
      yields (exec (.andi d a imm) s) s c 1 d (A &&& I) ∧
      yields (exec (.ori d a imm) s) s c 1 d (A ||| I) ∧
      yields (exec (.xori d a imm) s) s c 1 d (A ^^^ I) ∧
      yields (exec (.shli d a sh) s) s c 1 d (BitVec.ofNat 32 (A.toNat * 2 ^ sh)) ∧
      yields (exec (.shri d a sh) s) s c 1 d (BitVec.ofNat 32 (A.toNat / 2 ^ sh)) ∧
      yields (exec (.srai d a sh) s) s c 1 d (BitVec.ofInt 32 (A.toInt / 2 ^ sh)) ∧
      (-1024 ≤ imm → imm < 1024 →
        yields (exec (.slti d a imm) s) s c 1 d (if A.toInt < imm then 1 else 0)) ∧
      yields (exec (.sltni d a imm) s) s c 1 d (if A.toNat < I.toNat then 1 else 0) ∧
      (-1024 ≤ imm → imm < 1024 →
        yields (exec (.seqi d a imm) s) s c 1 d (if A.toInt = imm then 1 else 0)) ∧
      yields (exec (.movhi d imm) s) s c 1 d (BitVec.ofInt 32 (imm * 2 ^ 14)) ∧
      yields (exec (.movi d imm) s) s c 1 d I ∧
      yields (exec (.movl d lit) s) s c 2 d lit)

/-- LEA, the bit instructions and the field instructions write the stated bits. LEA adds a shifted
operand; POPC counts one bits; CLZ and CTZ count leading and trailing zeros, 32 for zero; BREV
reverses; SELNZ writes S[a] when S[b] is not zero and otherwise writes nothing; EXTB extracts len
bits at pos, bits above 31 reading 0, sign-extended from bit len - 1 when sx is set; INSB replaces
the bits pos to pos + len - 1 that exist. Nothing else changes. (R100) -/
def Obligations.ScalarBitFieldWritesResult : Prop :=
  ∀ (s : State) (c : Ctx) (d a b : Nat), State.ctx? s = some c →
    let A := Warp.s c.warp a
    let B := Warp.s c.warp b
    (∀ sh, sh < 16 → yields (exec (.lea d a b sh) s) s c 1 d (BitVec.ofNat 32 (A.toNat + B.toNat * 2 ^ sh))) ∧
    yields (exec (.popc d a) s) s c 1 d
      (BitVec.ofNat 32 (((List.range 32).filter fun i => A.getLsbD i).length)) ∧
    (∃ n, yields (exec (.clz d a) s) s c 1 d (BitVec.ofNat 32 n) ∧ n ≤ 32 ∧
      (∀ i, i < n → A.getLsbD (31 - i) = false) ∧ (n < 32 → A.getLsbD (31 - n) = true)) ∧
    (∃ n, yields (exec (.ctz d a) s) s c 1 d (BitVec.ofNat 32 n) ∧ n ≤ 32 ∧
      (∀ i, i < n → A.getLsbD i = false) ∧ (n < 32 → A.getLsbD n = true)) ∧
    (∃ v : Word, yields (exec (.brev d a) s) s c 1 d v ∧ ∀ i, i < 32 → v.getLsbD i = A.getLsbD (31 - i)) ∧
    (B ≠ 0 → yields (exec (.selnz d a b) s) s c 1 d A) ∧
    (B = 0 → passes (exec (.selnz d a b) s) s c 1) ∧
    (∀ pos len (sx : Bool), pos < 32 → 1 ≤ len → len ≤ 32 →
      ∃ v : Word, yields (exec (.extb d a pos len sx) s) s c 1 d v ∧
        ∀ i, i < 32 → v.getLsbD i =
          if i < len then A.getLsbD (pos + i) else sx && A.getLsbD (pos + len - 1)) ∧
    (∀ pos len, pos < 32 → 1 ≤ len → len ≤ 32 →
      ∃ v : Word, yields (exec (.insb d a pos len) s) s c 1 d v ∧
        ∀ i, i < 32 → v.getLsbD i =
          if pos ≤ i ∧ i < pos + len then A.getLsbD (i - pos) else (Warp.s c.warp d).getLsbD i)

/-- The scalar float instructions write one rounding of the exact result, and never trap. FADD, FSUB,
FMUL and FFMA write the round-to-nearest encoding of the exact sum, difference, product or fused sum
of the decoded operands; FMIN and FMAX the chosen operand's bits, -0 lying below +0, the other
operand where one is NaN and 0x7FC00000 where both are; FEQ, FLT and FLE a truth value, false with a
NaN; FCVTI the nearest integer clamped to i32, 0 for NaN; FCVTF the nearest binary32; FABS the
operand with bit 31 clear. Nothing else changes. (R102, R85, R87, 06_scalar_stream.md) -/
def Obligations.ScalarFloatWritesResult : Prop :=
  ∀ (s : State) (c : Ctx) (d a b : Nat), State.ctx? s = some c →
    let A := Warp.s c.warp a
    let B := Warp.s c.warp b
    let x := decodeF Fmt.f32 A.toNat
    let y := decodeF Fmt.f32 B.toNat
    let z := decodeF Fmt.f32 (Warp.s c.warp d).toNat
    let R (v : Ext) : Word := BitVec.ofNat 32 (encodeF Fmt.f32 (roundF Fmt.f32 .rne v))
    yields (exec (.fadd d a b) s) s c 1 d (R (Ext.add .rne x y)) ∧
    yields (exec (.fsub d a b) s) s c 1 d (R (Ext.add .rne x (Ext.negate y))) ∧
    yields (exec (.fmul d a b) s) s c 1 d (R (Ext.mul x y)) ∧
    yields (exec (.ffma d a b) s) s c 1 d (R (Ext.add .rne (Ext.mul x y) z)) ∧
    (∃ v w : Word, yields (exec (.fmin d a b) s) s c 1 d v ∧ yields (exec (.fmax d a b) s) s c 1 d w ∧
      (x = .nan → y = .nan → v = 0x7FC00000#32 ∧ w = 0x7FC00000#32) ∧
      (x = .nan → y ≠ .nan → v = B ∧ w = B) ∧ (x ≠ .nan → y = .nan → v = A ∧ w = A) ∧
      (Ext.lt x y = true → v = A ∧ w = B) ∧ (Ext.lt y x = true → v = B ∧ w = A) ∧
      (x = .zero true → y = .zero false → v = A ∧ w = B) ∧
      (x = .zero false → y = .zero true → v = B ∧ w = A) ∧
      (A = B → x ≠ .nan → v = A ∧ w = A)) ∧
    yields (exec (.feq d a b) s) s c 1 d (if Ext.eq x y then 1 else 0) ∧
    yields (exec (.flt d a b) s) s c 1 d (if Ext.lt x y then 1 else 0) ∧
    yields (exec (.fle d a b) s) s c 1 d (if Ext.lt x y ∨ Ext.eq x y = true then 1 else 0) ∧
    (∃ v : Word, yields (exec (.fcvti d a) s) s c 1 d v ∧
      (x = .nan → v = 0) ∧ (x = .inf false → v.toInt = 2 ^ 31 - 1) ∧ (x = .inf true → v.toInt = -(2 ^ 31)) ∧
      (∀ neg, x = .zero neg → v = 0) ∧
      (∀ neg n m, x = .fin neg n m →
        v.toInt = max (-(2 ^ 31)) (min (if neg then -(nearest n m : Int) else (nearest n m : Int)) (2 ^ 31 - 1)))) ∧
    yields (exec (.fcvtf d a) s) s c 1 d (R (Ext.ofInt A.toInt)) ∧
    yields (exec (.fabs d a) s) s c 1 d (A &&& 0x7FFFFFFF#32)

/-- A code that is no NaN decodes to a value that rounds to itself and encodes to that code. For
binary64, binary32, binary16, bfloat16, E5M2 and E4M3, and every code of the format that is no NaN,
rounding the decoded value to the format under any mode gives that value, and encoding it gives the
code; a NaN encodes as the format's canonical NaN, which decodes to NaN. (R79, R80, R82,
05_number_formats.md) -/
def Obligations.FloatCodesRoundTrip : Prop :=
  ∀ f, f ∈ [Fmt.f64, Fmt.f32, Fmt.f16, Fmt.bf16, Fmt.e5m2, Fmt.e4m3] →
    (decodeF f f.nan = .nan ∧ encodeF f .nan = f.nan) ∧
    ∀ b, b < 2 ^ f.bits → decodeF f b ≠ .nan →
      encodeF f (decodeF f b) = b ∧ ∀ m, roundF f m (decodeF f b) = decodeF f b

/-- A fragment that arrives at an instruction is ready there, and at its innermost join it waits or
fuses. Where the innermost split of a fragment does not join at pc (or it has none), Warp.arrive
leaves it ready at pc with its mask, joins, handler level and mark, and leaves every other entry of
the split table alone. An address that is the join of an outer split only does not stop it. Take two
different entries of a 32-entry split table whose fragments have the same join list, the first split
of which joins at J, and let no third fragment wait at that split. When the first waits there and
the second arrives at J: if the union of the two masks with the exited lanes of the origin mask is
the origin mask, the lower of the two entries holds the fused fragment, with the union as its mask
and the join list popped, ready at J unless J is also the join of the next split, and the higher is
free; if it is not, both wait. (R97, R110, 06_scalar_stream.md) -/
def Obligations.ArrivingAtAnInstruction : Prop :=
  (∀ (W : Warp) (slot : Nat) (f : Frag) (pc : Word), slot < W.frags.length → Warp.frag? W slot = some f →
      (∀ sp, f.joins.head? = some sp → sp.join ≠ pc) →
      Warp.frag? (Warp.arrive W slot pc) slot = some { f with pc := pc, wait := .ready } ∧
      ∀ i, i ≠ slot → Warp.frag? (Warp.arrive W slot pc) i = Warp.frag? W i) ∧
  (∀ (W : Warp) (i j : Nat) (f g : Frag) (sp : Split) (rest : List Split),
      W.frags.length = 32 → i < 32 → j < 32 → i ≠ j →
      Warp.frag? W i = some f → Warp.frag? W j = some g →
      f.joins = sp :: rest → g.joins = sp :: rest → f.wait = .atJoin → g.wait = .ready →
      (∀ k h, k ≠ i → Warp.frag? W k = some h → h.wait = .atJoin → h.joins.head? ≠ some sp) →
      (∀ o, rest.head? = some o → o.join ≠ sp.join) →
      let V := Warp.arrive W j sp.join
      let U := f.mask ||| g.mask
      let lo := if i < j then f else g
      if U ||| (W.exited &&& sp.origin) = sp.origin then
        Warp.frag? V (min i j) = some { lo with mask := U, pc := sp.join, joins := rest, wait := .ready } ∧
        Warp.frag? V (max i j) = none ∧ ∀ k, k ≠ i → k ≠ j → Warp.frag? V k = Warp.frag? W k
      else
        Warp.frag? V i = some f ∧ Warp.frag? V j = some { g with pc := sp.join, wait := .atJoin } ∧
        ∀ k, k ≠ i → k ≠ j → Warp.frag? V k = Warp.frag? W k)

/-- SLD, XLD and SPOP deliver the word at the address checked, and SST, XST and SPUSH write it there and
nowhere else. For a resident warp with no earlier request outstanding and an address whose check
passes, the instruction issues one request and its fragment waits; the request is performed, its
result lands and the fragment wakes, and then S[d] holds the four bytes at the address (0 where d is
s0), the fragment has arrived at the next word, SPOP has raised SPTR by 4, and every other register,
special register and byte is as it was. For a warp with no earlier request outstanding and an
address whose check passes, the instruction completes with one request issued, its fragment at the
next word, memory unchanged and SPUSH's SPTR lowered by 4; the request is then performed and
retires: the four bytes at the address read as the stored word, every byte outside them is as
before, and no register changes. (R103, R104, R105, 06_scalar_stream.md) -/
def Obligations.ScalarLoadsAndStoresReachMemory : Prop :=
  (∀ (s : State) (c : Ctx) (d a : Nat) (off : Int), State.ctx? s = some c →
      State.active s c.warp = true → c.warp.reqs = [] → c.warp.mtouch = [] →
      ∀ (i : Instr) (sp : Space) (x sptr : Nat),
        (i = .sld d a off ∧ sp = .shared ∧ x = scalarAddr c.warp a off ∧ sptr = c.warp.sptr.toNat) ∨
        (i = .xld d a off ∧ sp = .scratch ∧ x = scalarAddr c.warp a off ∧ sptr = c.warp.sptr.toNat) ∨
        (i = .spop d ∧ sp = .spill ∧ x = c.warp.sptr.toNat ∧ sptr = c.warp.sptr.toNat + 4) →
      ∀ p, State.checkLocal s c.warp sp false x 4 = .ok p → State.badPlace s c.w p 4 = false →
      ∃ t1 t2 t3 t V, exec i s = .next t1 ∧
        exec (.requestRetires c.w c.warp.nextReq) t1 = .next t2 ∧
        exec (.resultLands c.w c.warp.nextReq 0) t2 = .next t3 ∧
        exec (.fragmentWake c.w c.slot) t3 = .next t ∧
        onlyWarp s t c.w V ∧
        V = { c.warp with sregs := V.sregs, frags := V.frags, owed := V.owed, sptr := word sptr,
                          nextReq := c.warp.nextReq + 1 } ∧
        Warp.s V d = (if d = 0 then 0 else word (State.readPlace s c.w p 4)) ∧
        (∀ r, r ≠ d → Warp.s V r = Warp.s c.warp r ∧ AMap.get? V.owed r = AMap.get? c.warp.owed r) ∧
        V.frags = (Warp.arrive c.warp c.slot (c.frag.pc + 4)).frags ∧ sameBytes s t) ∧
  (∀ (s : State) (c : Ctx) (d a : Nat) (off : Int), State.ctx? s = some c →
      c.warp.reqs = [] → c.warp.mtouch = [] →
      ∀ (i : Instr) (sp : Space) (x sptr : Nat) (v : Word),
        (i = .sst d a off ∧ sp = .shared ∧ x = scalarAddr c.warp a off ∧ sptr = c.warp.sptr.toNat ∧
          v = Warp.s c.warp d) ∨
        (i = .xst d a off ∧ sp = .scratch ∧ x = scalarAddr c.warp a off ∧ sptr = c.warp.sptr.toNat ∧
          v = Warp.s c.warp d) ∨
        (i = .spush a ∧ sp = .spill ∧ 4 ≤ c.warp.sptr.toNat ∧ x = c.warp.sptr.toNat - 4 ∧ sptr = x ∧
          v = Warp.s c.warp a) →
      ∀ p, State.checkLocal s c.warp sp true x 4 = .ok p → Place.present p s c.w →
      ∃ t1 t U V, exec i s = .next t1 ∧ onlyWarp s t1 c.w U ∧ sameBytes s t1 ∧
        U = { c.warp with frags := U.frags, sptr := word sptr, reqs := U.reqs,
                          nextReq := c.warp.nextReq + 1 } ∧
        U.frags = (Warp.arrive c.warp c.slot (c.frag.pc + 4)).frags ∧
        exec (.requestRetires c.w c.warp.nextReq) t1 = .next t ∧
        sameBytesBut s t c.w p 4 ∧ State.readPlace t c.w p 4 = v.toNat ∧
        t.warps[c.w]? = some V ∧ V = { U with reqs := [], spill := V.spill } ∧
        t = { s with warps := t.warps, teams := t.teams, grids := t.grids })

/-- A scalar access that fails a check traps with the first failed check's cause and the address, and
does nothing else. With no run executing: SLD, SST, XLD and XST at an address that is no multiple of
4 trap with ALIGN; within the team's own window, SLD and SST past the team's allocation trap with
SHBOUND; XLD and XST past the grid's scratchpad allocation trap with SCBOUND, and an XST that meets
a .const range that is not empty with SCRO; SPUSH and SPOP check SPTR in their order and trap with
ALIGN, SPOVF, SPBOUND or SPUNF. TVAL is the address, or SPTR. (R103, R105, R118,
06_scalar_stream.md) -/
def Obligations.ScalarAccessChecksTrap : Prop :=
  ∀ (s : State) (c : Ctx) (d a : Nat) (off : Int) (T : Team) (G : Grid), State.ctx? s = some c →
    Ctx.mayTrap c → s.teams[c.warp.team]? = some T → s.grids[T.grid]? = some G →
    let x := scalarAddr c.warp a off
    let p := c.warp.sptr.toNat
    (x % 4 ≠ 0 → ∀ i, i ∈ [Instr.sld d a off, .sst d a off, .xld d a off, .xst d a off] →
      traps (exec i s) s c (causeCode 3 5) (dword x)) ∧
    (x % 4 = 0 → x < 0x01000000 → T.shLen < x + 4 → ∀ i, i ∈ [Instr.sld d a off, .sst d a off] →
      traps (exec i s) s c (causeCode 3 0) (dword x)) ∧
    (x % 4 = 0 → G.scrLen < x + 4 → ∀ i, i ∈ [Instr.xld d a off, .xst d a off] →
      traps (exec i s) s c (causeCode 3 1) (dword x)) ∧
    (x % 4 = 0 → x + 4 ≤ G.scrLen → G.constLo < G.constHi → x < G.constHi → G.constLo < x + 4 →
      traps (exec (.xst d a off) s) s c (causeCode 3 2) (dword x)) ∧
    (p % 4 ≠ 0 → traps (exec (.spush a) s) s c (causeCode 3 5) (dword p) ∧
      traps (exec (.spop d) s) s c (causeCode 3 5) (dword p)) ∧
    (p % 4 = 0 → p < 4 → traps (exec (.spush a) s) s c (causeCode 3 3) (dword p)) ∧
    (p % 4 = 0 → 4 ≤ p → c.warp.spillLen < p → traps (exec (.spush a) s) s c (causeCode 3 6) (dword p)) ∧
    (p % 4 = 0 → c.warp.spillLen < p + 4 → traps (exec (.spop d) s) s c (causeCode 3 4) (dword p))

/-- The scalar control transfers go to a tagged start, and trap when their target is none. Where the
target is a tagged start that can be fetched: BR, BEQZ, BNEZ, BLTZ, BGEZ on a true condition, CALL,
JR and a LOOP whose new count is not 0 continue at the target, CALL with the offset of the next word
in S[a] and LOOP with its count lowered by 1 modulo 2^32, and nothing else changes but the gathered
translation. On a false condition, and for a LOOP whose new count is 0, the fragment continues at
the next word. A LOOP on s0 counts as one whose new count is 0xFFFFFFFF (log 11, the model's
reading). With no run executing, each of these eight transfers, when it is taken and its target lies
in no executable mapping of the context and in no page whose scan has not ended, traps with XFETCH,
whatever the target's low bits (log 87); one whose target lies in a mapping without being a tagged
start of a scalar section, a JR target that is no multiple of 4 among them, traps with NOSTART; one
whose target's page cannot be translated for a fetch traps with the translation fault's cause, or,
at level 0 of a team launched as idempotent, aborts the team; an uncorrectable entry that the
translation's walk met is counted and logged before. TVAL is the target's virtual address. (R106,
R73, R118, 06_scalar_stream.md) -/
def Obligations.BranchesGoToTaggedStarts : Prop :=
  (∀ (s : State) (c : Ctx) (a : Nat) (off : Int), State.ctx? s = some c →
      let A := Warp.s c.warp a
      let T := c.frag.pc + BitVec.ofInt 32 (4 * off)
      (∀ u pa, Ctx.target c s T = .ok (u, pa) →
        (∃ V, branches (exec (.br off) s) s u c T [] V) ∧
        (A = 0 → ∃ V, branches (exec (.beqz a off) s) s u c T [] V) ∧
        (A ≠ 0 → ∃ V, branches (exec (.bnez a off) s) s u c T [] V) ∧
        (A.toInt < 0 → ∃ V, branches (exec (.bltz a off) s) s u c T [] V) ∧
        (0 ≤ A.toInt → ∃ V, branches (exec (.bgez a off) s) s u c T [] V) ∧
        (∃ V, branches (exec (.call a off) s) s u c T [a] V ∧
          Warp.s V a = if a = 0 then 0 else c.frag.pc + 4) ∧
        (A ≠ 1 → ∃ V, branches (exec (.loop a off) s) s u c T [a] V ∧
          Warp.s V a = if a = 0 then 0 else A - 1)) ∧
      (∀ u pa, Ctx.target c s A = .ok (u, pa) → ∃ V, branches (exec (.jr a) s) s u c A [] V) ∧
      (A ≠ 0 → passes (exec (.beqz a off) s) s c 1) ∧
      (A = 0 → passes (exec (.bnez a off) s) s c 1) ∧
      (0 ≤ A.toInt → passes (exec (.bltz a off) s) s c 1) ∧
      (A.toInt < 0 → passes (exec (.bgez a off) s) s c 1) ∧
      (A = 1 → yields (exec (.loop a off) s) s c 1 a 0)) ∧
  (∀ (s : State) (c : Ctx) (a : Nat) (off : Int) (i : Instr) (t : Word), State.ctx? s = some c →
      Ctx.mayTrap c →
      let A := Warp.s c.warp a
      let T := c.frag.pc + BitVec.ofInt 32 (4 * off)
      let va := State.scalarVA s c.warp t
      let asid := State.asidOf s c.warp
      ((i = .br off ∧ t = T) ∨ (i = .beqz a off ∧ A = 0 ∧ t = T) ∨ (i = .bnez a off ∧ A ≠ 0 ∧ t = T) ∨
        (i = .bltz a off ∧ A.toInt < 0 ∧ t = T) ∨ (i = .bgez a off ∧ 0 ≤ A.toInt ∧ t = T) ∨
        (i = .call a off ∧ t = T) ∨ (i = .loop a off ∧ A ≠ 1 ∧ t = T) ∨ (i = .jr a ∧ t = A)) →
      (State.mapping? s asid va = none → State.scanned s asid va = false →
        traps (exec i s) s c (causeCode 2 2) (dword va)) ∧
      (∀ m, State.mapping? s asid va = some m →
        m.lane = true ∨ (va - m.va) % 4 ≠ 0 ∨ (va - m.va) / 4 ∉ m.starts →
        traps (exec i s) s c (causeCode 2 0) (dword va)) ∧
      ∀ x, Ctx.target c s t = .error (.xlate x) →
        (Warp.aborts c.warp = false → traps (exec i s) (State.walked s x) c (XlFault.code x) (dword va)) ∧
        (Warp.aborts c.warp = true →
          exec i s = .next (idemAbort (State.walked s x) c.warp.team (XlFault.code x) va)))

/-- BRV goes with all of its lanes, passes with none, and otherwise splits the fragment in two. Let T be
the fragment's lanes in which the predicate, negated where the bit says so, is true. If T is the
whole mask the fragment continues at the target; if T is empty, two words on; otherwise, where
neither the target nor the word after is the join, the lowest free entry holds a new ready fragment
with mask T at the target, the executing one keeps the other lanes two words on, both with the split
pushed on a copy of the join list, every other entry and register is unchanged, and the new fragment
comes last in the round-robin order: its place there is the model's choice, of which no rule speaks
(log 90, DESIGN CHOICE). The forms whose target or whose next word is the join, and a target that
fails its check, are not stated here. (R109, R110, 06_scalar_stream.md) -/
def Obligations.BrvSplitsOnPredicate : Prop :=
  ∀ (s : State) (c : Ctx) (neg : Bool) (p : Nat) (off join : Int), State.ctx? s = some c →
    c.warp.frags.length = 32 → c.slot < 32 →
    let M := c.frag.mask
    let P := Warp.p c.warp p
    let T := M &&& (if neg then ~~~P else P)
    let J := c.frag.pc + BitVec.ofInt 32 (4 * join)
    let target := c.frag.pc + BitVec.ofInt 32 (4 * off)
    (T ≠ M → T = 0 → passes (exec (.brv neg p off join) s) s c 2) ∧
    ∀ u pa, Ctx.target c s target = .ok (u, pa) →
      (T = M → ∃ V, branches (exec (.brv neg p off join) s) s u c target [] V) ∧
      ∀ g, T ≠ M → T ≠ 0 → Warp.frag? c.warp g = none → g < 32 →
        (∀ k, k < g → Warp.frag? c.warp k ≠ none) → J ≠ target → J ≠ c.frag.pc + 8 →
        ∃ V, exec (.brv neg p off join) s =
            .next { State.setWarp u c.w V with rr := s.rr ++ [(c.w, g)] } ∧
          u = { s with tlb := u.tlb } ∧ V = { c.warp with frags := V.frags } ∧
          Warp.frag? V g = some { c.frag with mask := T, pc := target, wait := .ready,
                                              joins := ⟨J, M⟩ :: c.frag.joins } ∧
          Warp.frag? V c.slot = some { c.frag with mask := M &&& ~~~T, pc := c.frag.pc + 8, wait := .ready,
                                                   joins := ⟨J, M⟩ :: c.frag.joins } ∧
          ∀ k, k ≠ g → k ≠ c.slot → Warp.frag? V k = Warp.frag? c.warp k

/-- EXIT frees the fragment's entry, makes its lanes inactive for good, and lets a waiting sibling fuse
alone. With no fragment of the warp waiting at a join, EXIT adds the mask to the exited lanes, frees
the entry and changes no other entry, register, queue or byte. With one sibling waiting at its
innermost split, whose origin mask is its own lanes and exited lanes, those of the exiting fragment
included, the sibling becomes ready at the join with the split popped. Nothing else happens, unless
the team has become stalled on its stage queue, which is reported once until the queue changes (log
93, DESIGN CHOICE). (R107, R110, R176, 06_scalar_stream.md) -/
def Obligations.ExitEndsFragment : Prop :=
  ∀ (s : State) (c : Ctx), State.ctx? s = some c → c.warp.frags.length = 32 → c.slot < 32 →
    let X := c.warp.exited ||| c.frag.mask
    ∃ V u t, u = { State.setWarp s c.w V with rr := s.rr.filter fun e => !(e.1 = c.w && e.2 = c.slot) } ∧
      exec .exit s = .next t ∧ (s.teams[c.warp.team]? = none → t = u) ∧
      (∀ T, s.teams[c.warp.team]? = some T → t = if State.stalled u T = true ∧ T.told = false then
        { u with reports := s.reports ++ [⟨.stalledTeam, [c.warp.team]⟩],
                 teams := s.teams.set c.warp.team { T with told := true } } else u) ∧
      V = { c.warp with exited := X, frags := V.frags } ∧
      ((∀ k h, k ≠ c.slot → Warp.frag? c.warp k = some h → h.wait ≠ .atJoin) →
        V.frags = c.warp.frags.set c.slot none) ∧
      (∀ k h sp rest, k < 32 → k ≠ c.slot → Warp.frag? c.warp k = some h → h.wait = .atJoin →
        h.joins = sp :: rest → h.pc = sp.join →
        (∀ j g, j ≠ c.slot → j ≠ k → Warp.frag? c.warp j = some g → g.wait ≠ .atJoin) →
        (∀ o, rest.head? = some o → o.join ≠ sp.join) →
        h.mask ||| (X &&& sp.origin) = sp.origin →
        Warp.frag? V k = some { h with pc := sp.join, joins := rest, wait := .ready })

/-- YIELD places its fragment last in the round-robin order and does nothing else. YIELD answers a next
state in which the fragment has arrived at the next word and comes last in the round-robin order; no
register, flag, special register, other fragment or byte changes. Fragments of both priority levels
are held in one order, from which the arbiter takes those of handlers first. (R108) -/
def Obligations.YieldRotates : Prop :=
  ∀ (s : State) (c : Ctx), State.ctx? s = some c →
    ∃ V, exec .yield s = .next { State.setWarp s c.w V with
        rr := (s.rr.filter fun e => !(e.1 = c.w && e.2 = c.slot)) ++ [(c.w, c.slot)] } ∧
      V = { c.warp with frags := V.frags } ∧
      V.frags = (Warp.arrive c.warp c.slot (c.frag.pc + 4)).frags ∧
      sameBytes s (State.setWarp s c.w V)

/-- LRUN appends its run with the arguments as they then read, waits while four runs stand in the queue,
and traps at an address that is no run start. With room in the run queue, a tagged run start and
slots that can be fetched, LRUN completes two words on with the entry appended: run, await tokens,
the fragment's mask, the registers named as arguments and 0 beyond their number; no register, memory
byte or other entry changes. The entry keeps the slots as they were fetched at the LRUN (log 9, the
model's reading). With four runs queued or executing it waits. With no run executing, a run address
outside every mapping of the context and outside every page whose scan has not ended traps with
XFETCH, and one that lies in a mapping and is no run start with NORUN, TVAL its virtual address; a
slot outside every mapping and outside every page whose scan has not ended traps with XFETCH, TVAL
its address; a translation fault of the start or of a slot traps with its cause and its address, or,
at level 0 of a team launched as idempotent, aborts the team, and an uncorrectable entry that its
walk met is counted and logged before. (R112, R73, 06_scalar_stream.md) -/
def Obligations.LrunEnqueues : Prop :=
  ∀ (s : State) (c : Ctx) (run await n x0 x1 x2 x3 : Nat), State.ctx? s = some c →
    let W := c.warp
    let i := Instr.lrun run await n x0 x1 x2 x3
    let va := State.runVA s W run
    let core := Agent.core (State.coreOf s W)
    let arg (k x : Nat) : Word := if k < n then Warp.s W x else 0
    (W.queue.length + (if W.exec = none then 0 else 1) < 4 →
      (∀ u pa u2 code, State.checkStart s core (State.asidOf s W) va true = .ok (u, pa) →
        fetchSlots u core (State.asidOf s W) 24 va = .ok (u2, code) →
        ∃ V, exec i s = .next (State.setWarp u2 c.w V) ∧ u2 = { s with tlb := u2.tlb } ∧
          V = { W with frags := V.frags, nextRun := W.nextRun + 1, queue := W.queue ++
                  [{ run := run, code := code, await := await, mask := c.frag.mask,
                     args := [arg 0 x0, arg 1 x1, arg 2 x2, arg 3 x3], seq := W.nextRun, lev := W.tlev }] } ∧
          V.frags = (Warp.arrive W c.slot (c.frag.pc + 8)).frags ∧ sameBytes s (State.setWarp u2 c.w V)) ∧
      (Ctx.mayTrap c → State.mapping? s (State.asidOf s W) va = none →
        State.scanned s (State.asidOf s W) va = false →
        traps (exec i s) s c (causeCode 2 2) (dword va)) ∧
      (Ctx.mayTrap c → ∀ x, State.checkStart s core (State.asidOf s W) va true = .error (.xlate x) →
        (Warp.aborts W = false → traps (exec i s) (State.walked s x) c (XlFault.code x) (dword va)) ∧
        (Warp.aborts W = true → exec i s = .next (idemAbort (State.walked s x) W.team (XlFault.code x) va))) ∧
      (Ctx.mayTrap c → ∀ u pa x a, State.checkStart s core (State.asidOf s W) va true = .ok (u, pa) →
        fetchSlots u core (State.asidOf s W) 24 va = .error (.xlate x, a) →
        (Warp.aborts W = false → traps (exec i s) (State.walked u x) c (XlFault.code x) (dword a)) ∧
        (Warp.aborts W = true → exec i s = .next (idemAbort (State.walked u x) W.team (XlFault.code x) a))) ∧
      (Ctx.mayTrap c → ∀ u pa a, State.checkStart s core (State.asidOf s W) va true = .ok (u, pa) →
        fetchSlots u core (State.asidOf s W) 24 va = .error (.outside, a) →
        traps (exec i s) u c (causeCode 2 2) (dword a)) ∧
      (Ctx.mayTrap c → ∀ m, State.mapping? s (State.asidOf s W) va = some m →
        m.lane = false ∨ (va - m.va) % 12 ≠ 0 ∨ (va - m.va) / 12 ∉ m.starts →
        traps (exec i s) s c (causeCode 2 1) (dword va))) ∧
    (4 ≤ W.queue.length + (if W.exec = none then 0 else 1) → waits (exec i s) s c .runQueue)

/-- LGET, LPUT, PGET and PSET move lane state, RDCNT reads a path counter, and WAITP and LWAIT pass
exactly when what they wait for is done. LGET reads any lane of a vector register that the warp has;
PGET reads a predicate as a mask, all ones for p0. With no run queued or executing and no lane trap
due, LPUT writes one lane of a register if the lane is the fragment's, and PSET the fragment's lanes
of a predicate; no other lane, register or byte changes. With a run queued or executing they wait.
With no run executing, a vector register beyond the warp's count traps with VRANGE, TVAL its number.
RDCNT writes the number of the warp's unretired requests on the path. WAITP passes when that number
is at most S[a] (and, on FB, no FXNACK trap is due), and else waits, with the threshold as S[a] read
when it issued (log 89, DESIGN CHOICE: no rule says when a waiting WAITP reads it). LWAIT passes
when no run queued, executing or discarded by a lane trap that is still due, and no outstanding
result of a run, has a token of the mask, and waits when a queued run, the executing one or an
outstanding result has one; with mask 0 it passes at once. (R114, R115, R113, R116, R117,
06_scalar_stream.md) -/
def Obligations.LaneStateMovesCountersAndTokens : Prop :=
  (∀ (s : State) (c : Ctx) (d a v p : Nat), State.ctx? s = some c → 1 ≤ p → p < 8 →
     let W := c.warp
     let L := (Warp.s W a).toNat % 32
     (v < W.nv → yields (exec (.lget d a v) s) s c 1 d (Warp.v W v L)) ∧
     yields (exec (.pget d p) s) s c 1 d (Warp.p W p) ∧
     yields (exec (.pget d 0) s) s c 1 d (BitVec.allOnes 32) ∧
     (Ctx.mayTrap c → W.nv ≤ v → traps (exec (.lget d a v) s) s c (causeCode 2 3) (dword v) ∧
       traps (exec (.lput d a v) s) s c (causeCode 2 3) (dword v)) ∧
     (W.queue = [] → W.exec = none → W.laneTrap = none → v < W.nv → ∃ t V, exec (.lput d a v) s = .next t ∧ onlyWarp s t c.w V ∧
       V = { W with vregs := V.vregs, frags := V.frags } ∧
       (∀ r l, l < 32 → Warp.v V r l =
         if r = v ∧ l = L ∧ c.frag.mask.getLsbD L = true then Warp.s W d else Warp.v W r l) ∧
       V.frags = (Warp.arrive W c.slot (c.frag.pc + 4)).frags ∧ sameBytes s t) ∧
     (W.queue = [] → W.exec = none → W.laneTrap = none → ∃ t V, exec (.pset a p) s = .next t ∧ onlyWarp s t c.w V ∧
       V = { W with preds := V.preds, frags := V.frags } ∧
       (∀ i, i < 32 → (Warp.p V p).getLsbD i =
         if c.frag.mask.getLsbD i then (Warp.s W a).getLsbD i else (Warp.p W p).getLsbD i) ∧
       (∀ n, n ≠ p → Warp.p V n = Warp.p W n) ∧
       V.frags = (Warp.arrive W c.slot (c.frag.pc + 4)).frags ∧ sameBytes s t) ∧
     (∀ e, e ∈ W.queue ∨ (∃ x, W.exec = some x ∧ x.entry = e) → e.seq < W.nextRun →
       (v < W.nv → waits (exec (.lput d a v) s) s c (.lput W.nextRun d a v)) ∧
       waits (exec (.pset a p) s) s c (.pset W.nextRun a p))) ∧
  (∀ (s : State) (c : Ctx) (d a path mask : Nat), State.ctx? s = some c →
     let W := c.warp
     let n := (W.reqs.filter fun r => r.path = pathOfCode path).length
     yields (exec (.rdcnt d path) s) s c 1 d (BitVec.ofNat 32 n) ∧
     (n ≤ (Warp.s W a).toNat → (pathOfCode path = .fb → W.async = []) →
       passes (exec (.waitp a path) s) s c 1) ∧
     ((Warp.s W a).toNat < n →
       waits (exec (.waitp a path) s) s c (.counter (pathOfCode path) (Warp.s W a).toNat)) ∧
     ((∀ e, e ∈ W.queue → mask.testBit (RunEntry.token e) = false) →
       (∀ x, W.exec = some x → mask.testBit (RunEntry.token x.entry) = false) →
       (∀ p e, W.laneTrap = some p → p.run = some e → mask.testBit (RunEntry.token e) = false) →
       (∀ r, r ∈ W.reqs → r.run = none ∨ Req.pendingResults r = false ∨ mask.testBit r.token = false) →
       passes (exec (.lwait mask) s) s c 1) ∧
     (∀ e, e ∈ W.queue ∨ (∃ x, W.exec = some x ∧ x.entry = e) → e.seq < W.nextRun →
       mask.testBit (RunEntry.token e) = true → waits (exec (.lwait mask) s) s c (.runs mask W.nextRun)) ∧
     (∀ r n, r ∈ W.reqs → r.run = some n → n < W.nextRun → Req.pendingResults r = true →
       mask.testBit r.token = true → waits (exec (.lwait mask) s) s c (.runs mask W.nextRun)) ∧
     passes (exec (.lwait 0) s) s c 1)

/-- A trap is taken or kills, TRAP enters the handler with its cause, and TRET traps, waits or returns.
At level 0 or 1, with a handler set and a trap fragment that waits in nothing, taking a trap writes
TCAUSE with its kind, TRET with the fragment's pc, the two halves of TVAL, and TMASK into the bank
of the next level; its TRQ holds the queued runs in order, behind the discarded run of a lane trap
marked TRAPPED; the run queue is empty, TLEV is raised, a cause of class 10 also sets SVCH, a cause
that reports a matrix failure (5:5, 5:6) also takes it from the warp and leaves its matrix
operations to retire without effect, and the fragment stands at TVEC as a handler of the new level;
that the bank keeps the fragment's entry and its handler level before the trap is the model's (log
10). The bank of the other level, every scalar, vector and predicate register, every other warp and
every byte is unchanged, and so is every other fragment, but that one which has met a trap of its
own and not taken it executes its instruction again; the instruction that the fragment stands at has
no register still to write. Where TLEV is 2 or TVEC is 0xFFFFFFFF, taking a trap leaves the warp
killed with run queue and TRQ banks empty and its requests outstanding, takes such a matrix failure
likewise, appends a fatal trap report with the new cause, TVAL, TMASK and both banks, and halts the
queue of the warp's grid with reason 0x0A; no other warp, team, grid or byte changes. With no run
executing, TRAP k takes a scalar trap with cause 0:k and TVAL 0, and TRET at level 0 one with cause
TRETLV. At level 1 or 2, with no run or result of the level outstanding and a return address that is
a tagged start, TRET queues the bank's valid entries that are not skipped, in order, lowers TLEV by
one, and continues at TRET with the handler level that the fragment had before the trap (log 10),
without the marks of instructions that it does not return to; no register is restored and no byte
written. While a run of its level stands in the queue, executes or has a result outstanding it
waits. (R317, R313, R314, R319, R354, R320, R318, 21_traps_and_translation.md) -/
def Obligations.TrapsAreTakenAndReturnedFrom : Prop :=
  ((∀ (s : State) (w slot : Nat) (W : Warp) (f : Frag) (t : Trap), s.warps[w]? = some W →
       Warp.frag? W slot = some f → f.wait = .ready → W.tlev < 2 → W.tvec ≠ BitVec.allOnes 32 →
       t.cause < 2 ^ 10 →
       let matrix : Bool := t.cause = 5 * 64 + 5 || t.cause = 5 * 64 + 6
       let u : State := if matrix then
         { s with arrays := s.arrays.map fun a => (a.1, { a.2 with ops := a.2.ops.map fun o =>
             if o.w = w then { o with dead := true } else o }) } else s
       let k := W.tlev + 1
       let B : Bank :=
         { tcause := BitVec.ofNat 32 (t.cause +
             (match t.kind with | .scalar => 0 | .lane => 1 | .async => 2) * 2 ^ 18 +
             (if t.write = true ∧ t.cause / 64 = 10 then 2 ^ 20 else 0)),
           tret := f.pc, tval := BitVec.ofNat 32 t.tval.toNat, tvalh := BitVec.ofNat 32 (t.tval.toNat / 2 ^ 32),
           tmask := t.mask,
           trq := (match t.run with | some e => [⟨true, false, true, e⟩] | none => []) ++
             W.queue.map fun e => ⟨true, false, false, e⟩,
           slot := slot, prev := f.hlev }
       ∃ V, takeTrap s w (some slot) t = State.setWarp u w V ∧
         V = { W with tlev := k, queue := [], frags := V.frags, owed := (Warp.disown W (.frag slot)).owed,
                      bank1 := if k = 1 then B else W.bank1, bank2 := if k = 1 then W.bank2 else B,
                      svch := if t.cause / 64 = 10 then B.tvalh else W.svch,
                      mfail := if matrix then none else W.mfail } ∧
         Warp.frag? V slot = some { f with pc := W.tvec, hlev := k } ∧
         (∀ i, i ≠ slot → Warp.frag? V i = (Warp.frag? W i).map Frag.untrap) ∧
         sameBytes s (takeTrap s w (some slot) t)) ∧
   (∀ (s : State) (w slot : Nat) (W : Warp) (f : Frag) (t : Trap) (g : Grid) (q : Nat), s.warps[w]? = some W →
       Warp.frag? W slot = some f → (W.tlev ≥ 2 ∨ W.tvec = BitVec.allOnes 32) →
       State.gridOf? s W = some g → g.queue = some q →
       (State.queue s q).state ≠ .resetting →
       let matrix : Bool := t.cause = 5 * 64 + 5 || t.cause = 5 * 64 + 6
       let u := takeTrap s w (some slot) t
       let banks := Bank.words W.bank1 ++ Bank.words W.bank2
       let K : Warp :=
         { W with killed := true, queue := [], exec := none, laneTrap := none,
                  mfail := if matrix then none else W.mfail,
                  bank1 := { W.bank1 with trq := [] }, bank2 := { W.bank2 with trq := [] } }
       u.warps = s.warps.set w K ∧
       u.reports = s.reports ++ [⟨.fatalTrap, [w, t.cause, t.tval.toNat, t.mask.toNat] ++ banks⟩,
         ⟨.queueFault, [q, 0x0A, g.packet]⟩] ∧
       State.queue u q = { State.queue s q with state := .halted, reason := 0x0A, fault := g.packet } ∧
       (∀ q', q' ≠ q → State.queue u q' = State.queue s q') ∧
       u.arrays = (if matrix then s.arrays.map fun a => (a.1, { a.2 with ops := a.2.ops.map fun o =>
         if o.w = w then { o with dead := true } else o }) else s.arrays) ∧
       u = { s with warps := u.warps, reports := u.reports, queues := u.queues, arrays := u.arrays } ∧
       sameBytes s u)) ∧
  (∀ (s : State) (c : Ctx), State.ctx? s = some c →
     let W := c.warp
     let b := if W.tlev = 1 then W.bank1 else W.bank2
     (Ctx.mayTrap c → ∀ k, k < 64 → traps (exec (.trap k) s) s c k 0) ∧
     (Ctx.mayTrap c → W.tlev = 0 → traps (exec .tret s) s c (11 * 64) 0) ∧
     (1 ≤ W.tlev → W.tlev ≤ 2 → (∀ e, e ∈ W.queue → e.lev ≠ W.tlev) → W.exec = none →
       (∀ r, r ∈ W.reqs → r.lev ≠ W.tlev ∨ r.run = none ∨ Req.pendingResults r = false) →
       let lev := if c.slot = b.slot then b.prev else W.tlev - 1
       let keeps (m : Mark) : Bool := m.lev < lev || (m.lev = lev && m.pc = b.tret)
       ∀ u pa, Ctx.target c s b.tret = .ok (u, pa) →
       ∃ V, exec .tret s = .next (State.setWarp u c.w V) ∧ u = { s with tlb := u.tlb } ∧
         V = { W with tlev := W.tlev - 1, frags := V.frags,
                      queue := W.queue ++ (b.trq.filter fun e => e.valid && !e.skip).map fun e => e.entry } ∧
         V.frags = (Warp.arrive (Warp.onFrag W c.slot fun f =>
           { f with hlev := lev, marks := f.marks.filter keeps }) c.slot b.tret).frags ∧
         sameBytes s (State.setWarp u c.w V)) ∧
     (1 ≤ W.tlev → (∃ e, (e ∈ W.queue ∨ ∃ x, W.exec = some x ∧ x.entry = e) ∧ e.lev = W.tlev) ∨
         (∃ r, r ∈ W.reqs ∧ r.lev = W.tlev ∧ r.run ≠ none ∧ Req.pendingResults r = true) →
       waits (exec .tret s) s c (.levelRuns W.tlev)))

/-- The run-queue head starts on the lanes that have not exited; a run at its TRAIL commits all
write-backs and issues all requests in one step. RUN_START, for a resident warp without an executing
run and without a lane trap or asynchronous trap that is due, starts the head of the queue, when no
result of a run with a token that it awaits is outstanding, on its mask without the exited lanes.
While an asynchronous trap is due that some fragment can take, the head does not start. RUN_COMMIT,
for a run at its TRAIL with room on every counter, leaves in each register lane and predicate lane
the last write-back aimed at it and every other one as it was, appends the collected requests
numbered in instruction order, and ends the run; no scalar register, other warp or byte changes, and
no packet leaves or waits to leave unless the run has a FAX request to another device. (R19, R26,
R112, R121, R30, 07_lane_arithmetic.md) -/
def Obligations.RunStartsAndCommits : Prop :=
  (∀ (s : State) (w : Nat) (W : Warp) (e : RunEntry) (rest : List RunEntry), s.warps[w]? = some W →
    State.active s W = true → W.queue = e :: rest → W.exec = none → W.laneTrap = none →
    let x : RunExec :=
      { entry := e, live := e.mask &&& ~~~W.exited, idx := 0, latch := [], wbs := [], reqs := [],
        trail := none }
    ((∀ p, p ∈ W.async → p.lev = 0 ∧ 1 ≤ W.tlev) →
      (∀ r, r ∈ W.reqs → r.run = none ∨ Req.pendingResults r = false ∨ e.await.testBit r.token = false) →
      ∃ t, exec (.runStart w) s = .next t ∧ onlyWarp s t w { W with queue := rest, exec := some x } ∧
        sameBytes s t) ∧
    ((∃ p, p ∈ W.async ∧ (p.lev ≠ 0 ∨ W.tlev = 0)) →
      (∀ i f, Warp.frag? W i = some f → f.wait = .ready) → exec (.runStart w) s = .next s)) ∧
  (∀ (s : State) (w : Nat) (W : Warp) (e : RunExec), s.warps[w]? = some W → W.exec = some e →
    e.trail ≠ none → Warp.roomFor W e.reqs = true → (∀ r, r ∈ W.reqs → r.id < W.nextReq) →
    (∀ L d v, WriteBack.vreg L d v ∈ e.wbs → L < 32) →
    (∀ L p b, WriteBack.preg L p b ∈ e.wbs → L < 32 ∧ p ≠ 0) →
    ∃ t V, exec (.runCommit w) s = .next t ∧ sameBytes s t ∧
      t = { s with warps := s.warps.set w V, events := t.events, sent := t.sent, unsent := t.unsent,
                   seqOut := t.seqOut, ports := t.ports, reports := t.reports } ∧
      ((∀ r peer win op pkts neg, r ∈ e.reqs → r.op = .fax peer win op pkts neg →
          peer = 0x1FF ∨ peer = s.fabid) →
        t.sent = s.sent ∧ t.unsent = s.unsent ∧ t.seqOut = s.seqOut ∧ t.ports = s.ports ∧
        t.reports = s.reports) ∧
      V = { W with exec := none, vregs := V.vregs, preds := V.preds,
                   reqs := W.reqs ++ e.reqs.zipIdx.map fun x => { x.1 with id := W.nextReq + x.2 },
                   nextReq := W.nextReq + e.reqs.length } ∧
      (∀ xs ys L d v, e.wbs = xs ++ WriteBack.vreg L d v :: ys → (∀ v', WriteBack.vreg L d v' ∉ ys) →
        Warp.v V d L = v) ∧
      (∀ L d, L < 32 → (∀ v, WriteBack.vreg L d v ∉ e.wbs) → Warp.v V d L = Warp.v W d L) ∧
      (∀ xs ys L p b, e.wbs = xs ++ WriteBack.preg L p b :: ys → (∀ b', WriteBack.preg L p b' ∉ ys) →
        (Warp.p V p).getLsbD L = b) ∧
      (∀ L p, L < 32 → (∀ b, WriteBack.preg L p b ∉ e.wbs) →
        (Warp.p V p).getLsbD L = (Warp.p W p).getLsbD L))

/-- A lane's load, store or atomic is performed at its address with the value its operation leaves, and
its result lands in the register or pair. For the only request of a warp and every type that local
memory holds, its next lane is performed by REQUEST_RETIRES: a load leaves every byte and collects
the value for the register, or for a 64-bit type the pair, of that lane, i8 and i16 sign-extended to
32 bits; a store writes the low bytes of its datum at the address and no other byte; an atomic
leaves the operation's result there, writes no other byte, and collects the old value unless it is
discarded. RESULT_LANDS writes the collected values of one lane into the register or the pair named,
changes no other register, and takes them from the request. With x and y the data of w bits: on i32,
n32, i64 and n64 an addition leaves the sum modulo 2^w, a minimum or maximum the smaller or larger
by the type's signedness, on f32 an addition the sum rounded to nearest even; on b32 and b64 AND, OR
and XOR leave the bitwise result, XCHG the datum, and CAS the second datum where the old value
equals the first and else the old value. (R153, R156, R157, R122, 08_lanes_and_local_memory.md) -/
def Obligations.LaneRequestsArePerformedAndLand : Prop :=
  ((∀ (s : State) (w : Nat) (W : Warp) (r : Req) (it : LaneItem) (rest : List LaneItem) (sp : Space) (ty : LaneTy)
        (p : Place), s.warps[w]? = some W → W.reqs = [r] → W.mtouch = [] → r.done = false →
      r.todo = it :: rest →
      ty ∈ [LaneTy.i8, .n8, .e4m3, .e5m2, .q8, .i16, .n16, .f16, .bf16, .b32, .i32, .n32, .f32, .b64, .i64, .n64,
        .f64] →
      p = State.placeOf s W sp it.addr.toNat → Place.present p s w → State.badPlace s w p (tyBytes ty) = false →
      let n := tyBytes ty
      let old := State.readPlace s w p n
      let form := if ty = .i8 then ((BitVec.ofNat 8 old).signExtend 32).toNat
        else if ty = .i16 then ((BitVec.ofNat 16 old).signExtend 32).toNat else old
      let lands (d : Nat) : List Land := .vreg it.lane d (word form) ::
        (if n = 8 then [.vreg it.lane (d + 1) (word (form / 2 ^ 32))] else [])
      let after (t : State) (ls : List Land) : Prop := ∃ V, t.warps[w]? = some V ∧
        V = { W with spill := V.spill, reqs :=
          if rest = [] ∧ r.land ++ ls = [] then [] else [{ r with todo := rest, land := r.land ++ ls }] }
      (∀ d, r.op = .load sp ty d → ∃ t, exec (.requestRetires w r.id) s = .next t ∧ sameBytes s t ∧
        after t (lands d)) ∧
      (r.op = .store sp n → ∃ t, exec (.requestRetires w r.id) s = .next t ∧ sameBytesBut s t w p n ∧
        State.readPlace t w p n = it.x.toNat % 256 ^ n ∧ after t []) ∧
      (∀ op d, r.op = .atomic sp op ty d → ∃ t, exec (.requestRetires w r.id) s = .next t ∧
        sameBytesBut s t w p n ∧
        State.readPlace t w p n = atomNew op ty old it.x.toNat it.y.toNat % 256 ^ n ∧
        after t (match d with
          | some d => lands d
          | none => []))) ∧
    (∀ (s : State) (w : Nat) (W : Warp) (r : Req) (L d : Nat) (v : Word) (hi : Option Word),
      s.warps[w]? = some W → W.reqs = [r] → L < 32 →
      r.land.filter (fun l => Land.lane l = L) = .vreg L d v ::
        (match hi with | some u => [.vreg L (d + 1) u] | none => []) →
      ∃ t V, exec (.resultLands w r.id L) s = .next t ∧ onlyWarp s t w V ∧ sameBytes s t ∧
        Warp.v V d L = v ∧ Warp.v V (d + 1) L = hi.getD (Warp.v W (d + 1) L) ∧
        (∀ e l, l < 32 → ¬ ((e = d ∨ e = d + 1) ∧ l = L) → Warp.v V e l = Warp.v W e l) ∧
        V = { W with vregs := V.vregs, reqs := V.reqs, async := V.async } ∧
        ∀ q, q ∈ V.reqs → ∀ l, l ∈ q.land → Land.lane l ≠ L)) ∧
  (∀ ty, ∀ old x y : Nat,
      let w := if ty ∈ [LaneTy.i32, .n32, .b32, .f32] then 32 else 64
      let X := x % 2 ^ w
      let Y := y % 2 ^ w
      old < 2 ^ w →
      let less (a b : Nat) : Prop := if ty = .i32 ∨ ty = .i64 then
        (BitVec.ofNat w a).toInt < (BitVec.ofNat w b).toInt else a < b
      (ty ∈ [LaneTy.i32, .n32, .i64, .n64] →
        atomNew .add ty old x y = (old + X) % 2 ^ w ∧
        (less X old → atomNew .min ty old x y = X) ∧ (¬ less X old → atomNew .min ty old x y = old) ∧
        (less old X → atomNew .max ty old x y = X) ∧ (¬ less old X → atomNew .max ty old x y = old)) ∧
      (ty ∈ [LaneTy.b32, .b64] →
        atomNew .and ty old x y = (BitVec.ofNat w old &&& BitVec.ofNat w X).toNat ∧
        atomNew .or ty old x y = (BitVec.ofNat w old ||| BitVec.ofNat w X).toNat ∧
        atomNew .xor ty old x y = (BitVec.ofNat w old ^^^ BitVec.ofNat w X).toNat ∧
        atomNew .xchg ty old x y = X ∧
        (old = X → atomNew .cas ty old x y = Y) ∧ (old ≠ X → atomNew .cas ty old x y = old)) ∧
      (ty = .f32 → atomNew .add ty old x y = encodeF Fmt.f32 (roundF Fmt.f32 .rne
        (Ext.add .rne (decodeF Fmt.f32 old) (decodeF Fmt.f32 X)))))

/-- A waiting fragment of a resident warp goes on when its condition holds, and stays when it does not.
FRAGMENT_WAKE, for a fragment that no handler of another one holds: a wait for a request ends when
the request is no longer outstanding, and a fragment woken from a barrier completes with the status
that it was woken with, its register being its to write. Where no trap of the warp is due: a wait
for a counter ends when the counter is low enough; a wait for the runs below a number ends when none
of them with a token of its mask is queued, executing or has a result outstanding, and an LPUT and a
PSET when no run is queued or executing; a fragment that waits for a run-queue place, room on a
path, room in the copy unit or the matrix queue, the runs of its level, an operand's earlier
requests or room for a grid issues its instruction again once that is there, one that waits for the
stage queue once that has an entry free, or holds one and the fragment comes first among those that
wait to take it. While its condition does not hold, each stays as it is, and so does each of them,
but those that complete first, while a trap of its warp is due. These are the model's readings: that
a fragment stays while a trap is due (log 36, DEDUCED), that a waiting WAITP compares with the
threshold that it read as it issued (log 89, DESIGN CHOICE), that a wait for room issues its
instruction again, reading its operands anew (log 38, DEDUCED), and that a waiting TRET has not
executed (log 18, DEDUCED). A fragment at its join, of a team that has become stalled, has that
reported (log 93, DESIGN CHOICE), and else stays. (R111, R113, R114, R115, R116, R368,
06_scalar_stream.md) -/
def Obligations.WaitsEnd : Prop :=
  ∀ (s : State) (c : Ctx), s.warps[c.w]? = some c.warp → Warp.frag? c.warp c.slot = some c.frag →
    State.active s c.warp = true → c.warp.tlev ≤ c.frag.hlev →
    let W := c.warp
    let o := exec (.fragmentWake c.w c.slot) s
    let issues : Prop := o = .next (State.setWarp s c.w
      (Warp.onFrag (Warp.disown W (.frag c.slot)) c.slot fun f => { f with wait := .ready }))
    let due : Prop := W.laneTrap ≠ none ∨ ∃ p, p ∈ W.async ∧ (p.lev ≠ 0 ∨ W.tlev = 0)
    let goes (holds : Prop) : Prop := (¬ due → holds → issues) ∧ (¬ holds → o = .next s)
    let held (p : Path) : Nat := (W.reqs.filter fun r => r.path = p).length
    let runs : Nat := W.queue.length + (if W.exec = none then 0 else 1)
    (due → Wait.completesFirst c.frag.wait = false → o = .next s) ∧
    (∀ p n, c.frag.wait = .counter p n →
      (held p ≤ n → ¬ due → passes o s c 1) ∧ (n < held p → o = .next s)) ∧
    (∀ mask limit, c.frag.wait = .runs mask limit →
      let of (e : RunEntry) : Prop := e.seq < limit ∧ mask.testBit (RunEntry.token e) = true
      let busy : Prop := (∃ e, (e ∈ W.queue ∨ ∃ x, W.exec = some x ∧ x.entry = e) ∧ of e) ∨
        ∃ r n, r ∈ W.reqs ∧ r.run = some n ∧ n < limit ∧ Req.pendingResults r = true ∧ mask.testBit r.token = true
      (¬ due → ¬ busy → passes o s c 1) ∧ (busy → o = .next s)) ∧
    (∀ id, c.frag.wait = .mem id → (∀ r, r ∈ W.reqs → r.id ≠ id) → passes o s c 1) ∧
    (∀ limit d a v, c.frag.wait = .lput limit d a v → W.queue = [] → W.exec = none → ¬ due →
      passesOn o s c 1 (lputWrite c.frag.mask d a v)) ∧
    (∀ limit a p, c.frag.wait = .pset limit a p → W.queue = [] → W.exec = none → ¬ due →
      passesOn o s c 1 (psetWrite c.frag.mask a p)) ∧
    (∀ limit d a v, c.frag.wait = .lput limit d a v → (∃ e, e ∈ W.queue ∧ e.seq < limit) → o = .next s) ∧
    (c.frag.wait = .runQueue → goes (runs < 4)) ∧ (∀ p, c.frag.wait = .room p → goes (held p < 4095)) ∧
    (c.frag.wait = .command → goes (State.commands s (State.coreOf s W) < 32)) ∧
    (∀ sp x n limit, c.frag.wait = .ordered sp x n limit → goes (State.localPending s W sp x n limit = false)) ∧
    (∀ T, s.teams[W.team]? = some T →
      (c.frag.wait = .stagePut → goes (T.stage.length < 16)) ∧
      (c.frag.wait = .stageGet → goes (T.stage ≠ [] ∧ State.firstGet s W.team = some (c.w, c.slot)))) ∧
    (∀ lev, c.frag.wait = .levelRuns lev → goes (Warp.levelDone W lev = true)) ∧
    (c.frag.wait = .matrixRoom → goes ((State.array s (State.coreOf s W)).ops.length < 64)) ∧
    (c.frag.wait = .grids → goes (State.liveGrids s < 4096)) ∧
    (∀ d v, c.frag.wait = .woken d v → Ctx.owns c d → yields o s c 1 d v) ∧
    (c.frag.wait = .ready → o = .next s) ∧
    (c.frag.wait = .atJoin → (∀ T, s.teams[W.team]? = some T → State.stalled s T = false ∨ T.told = true) →
      o = .next s)

/-- A due asynchronous trap is taken by the fragment of its lowest lane when no run executes, and a warp
with nothing left ends. ASYNC_TRAP_TAKEN, for a resident warp at level 0 with no run executing, no
lane trap due and a fragment, not inside an instruction that completes first, that holds the lowest
lane of the trap's mask, removes the first pending trap and takes it in that fragment. WARP_END, for
a resident warp of which no fragment, run, request or due trap is left and that owns no array and
has no unreported matrix failure, marks the warp ended, frees its arrival records and takes it from
the round-robin order; no register, multicast record, other warp, array or byte changes, and nothing
is reported but that its team has become stalled on its stage queue (log 93, DESIGN CHOICE), which
one that has ended, or of which a fragment waits for something else, has not. (R315, R316, R107,
21_traps_and_translation.md) -/
def Obligations.AsyncTrapsAndWarpEnd : Prop :=
  (∀ (s : State) (w slot L : Nat) (W : Warp) (f : Frag) (p : Pending) (rest : List Pending),
    s.warps[w]? = some W → State.active s W = true → W.exec = none → W.laneTrap = none → W.tlev = 0 →
    W.async = p :: rest → (∀ q, q ∈ rest → q.id ≠ p.id) →
    L < 32 → p.mask.getLsbD L = true → (∀ l, l < L → p.mask.getLsbD l = false) →
    slot < 32 → Warp.frag? W slot = some f → f.mask.getLsbD L = true → Wait.completesFirst f.wait = false →
    (∀ i g, i < slot → Warp.frag? W i = some g → g.mask.getLsbD L = false) →
    let u : State := State.setWarp s w { W with async := rest }
    exec (.asyncTrapTaken w) s = .next (takeTrap u w (some slot)
      { kind := .async, cause := p.cause, mask := p.mask, tval := p.tval, write := p.write, run := none })) ∧
  (∀ (s : State) (w : Nat) (W : Warp), s.warps[w]? = some W → State.active s W = true →
    (∀ i, i < 32 → Warp.frag? W i = none) → W.queue = [] → W.exec = none → W.reqs = [] →
    (∀ p, p ∈ W.async → p.lev = 0 ∧ 1 ≤ W.tlev) → W.laneTrap = none → W.mfail = none →
    (∀ h, (State.array s (State.coreOf s W)).hold = some h →
      h.w ≠ w ∧ ∃ X, s.warps[h.w]? = some X ∧ X.ended = false) →
    let V : Warp := { W with ended := true, arrivals := [] }
    ∃ t, exec (.warpEnd w) s = .next t ∧ sameBytes s t ∧
      t = { s with rr := s.rr.filter (fun e => e.1 != w), warps := s.warps.set w V, teams := t.teams,
                   reports := t.reports } ∧
      (t.reports = s.reports ∨ t.reports = s.reports ++ [⟨.stalledTeam, [W.team]⟩]) ∧
      (∀ T, s.teams[W.team]? = some T →
        (∀ v X, v ∈ T.warps → v ≠ w → s.warps[v]? = some X → X.ended = true) ∨
        (∃ v X i f, v ∈ T.warps ∧ v ≠ w ∧ s.warps[v]? = some X ∧ X.ended = false ∧ i < 32 ∧
          Warp.frag? X i = some f ∧ f.wait ≠ .stagePut ∧ f.wait ≠ .stageGet ∧ f.wait ≠ .atJoin) →
        t.reports = s.reports) ∧
      (∀ (k : Nat) (T : Team), s.teams[k]? = some T →
        ∃ st told, t.teams[k]? = some { T with status := st, told := told }))

/-- Each source selector of a lane instruction reads what its form names. A register source reads its
register's lane, or a 64-bit type the pair, low word even; a latch source reads the latch of the
named earlier instruction; %lane, %warp and %frag the lane number, the warp's index and whether the
lane is live; a predicate source 1 or 0; a run argument and the immediate at a 32-bit type the word
as it stands, at i64 sign-extended and at n64 zero-extended; a guard reads its predicate, inverted
by pn. (R61, R120, R127, R43, 07_lane_arithmetic.md) -/
def Obligations.LaneSourcesRead : Prop :=
  ∀ (c : LaneCtx) (o : LaneOp) (L r k i p : Nat),
    LaneCtx.src c o .n32 (.v r) L = (Warp.v c.warp r L).toNat ∧
    LaneCtx.src c o .n64 (.v r) L = (Warp.v c.warp r L).toNat + (Warp.v c.warp (r + 1) L).toNat * 2 ^ 32 ∧
    (∀ l q, c.ex.latch[k]? = some l → l[L]? = some q → LaneCtx.src c o .n32 (.q k) L = q.toNat % 2 ^ 32 ∧
      LaneCtx.src c o .n64 (.q k) L = q.toNat) ∧
    LaneCtx.src c o .n32 .lane L = L ∧ LaneCtx.src c o .n32 .warp L = c.warp.index ∧
    LaneCtx.src c o .n32 .frag L = (if c.ex.live.getLsbD L then 1 else 0) ∧
    LaneCtx.src c o .n32 (.pred p) L = (if (Warp.p c.warp p).getLsbD L then 1 else 0) ∧
    LaneCtx.src c o .n32 .w2 L = o.w2.toNat ∧ LaneCtx.src c o .n64 .w2 L = o.w2.toNat ∧
    LaneCtx.src c o .i64 .w2 L = (BitVec.signExtend 64 o.w2).toNat ∧
    (∀ v, c.ex.entry.args[i]? = some v → LaneCtx.src c o .n32 (.arg i) L = v.toNat) ∧
    (LaneCtx.part c o L = true ↔ c.ex.live.getLsbD L = true ∧ (Warp.p c.warp o.pg).getLsbD L ≠ o.pn)

/-- The integer lane instructions give each lane the stated value, and a division by zero traps. With X,
Y and Z the sources' low w bits: ADD, SUB, MUL, MULH, MAD, MIN, MAX, ABS, NEG, AND, OR, XOR, NOT,
SHL, SHR, SRA, ROT, SAD write the stated w-bit value in its written form, POPC and CLZ their count,
BFE and BFI the field; the value goes to the latch and, unless nw is set, is collected for d; the
other lanes' latch is zero; no register, request or byte changes before the commit. With TCTL.DZ
clear, or no lane that takes part dividing by zero, DIV gives the quotient truncated toward zero and
REM the remainder with the dividend's sign, by the type's signedness; a zero divisor gives all ones
and the dividend. With TCTL.DZ set and some lane dividing by zero, the run is discarded and stands
as the warp's lane trap with cause DIVZ, exactly the dividing lanes as its mask and the
instruction's lane-section index as its value, which is taken as soon as it can be. (R129, R130,
R94, R127, R95, R96, R317, 07_lane_arithmetic.md) -/
def Obligations.LaneIntegerAndDivisionResults : Prop :=
  (∀ (s : State) (c : LaneCtx) (o : LaneOp), State.laneCtx? s = some c →
      let w := tyBits o.ty
      let sg : Bool := o.ty = .i8 || o.ty = .i16 || o.ty = .i32 || o.ty = .i64
      let X (L : Nat) : BitVec w := BitVec.ofNat w (LaneCtx.a c o L)
      let Y (L : Nat) : BitVec w := BitVec.ofNat w (LaneCtx.b c o L)
      let Z (L : Nat) : BitVec w := BitVec.ofNat w (LaneCtx.c c o L)
      let less (x y : BitVec w) : Bool := if sg then x.slt y else x.ult y
      let wide (x : BitVec w) : BitVec (w + w) := if sg then x.signExtend (w + w) else x.setWidth (w + w)
      let gives (i : Instr) (f : Nat → BitVec w) : Prop :=
        laneGives (exec i s) s c o (w = 64) fun L => writtenForm o.ty (f L).toNat
      gives (.laneAdd o) (fun L => X L + Y L) ∧ gives (.laneSub o) (fun L => X L - Y L) ∧
      gives (.laneMul o) (fun L => X L * Y L) ∧ gives (.mad o) (fun L => X L * Y L + Z L) ∧
      gives (.laneMulh o) (fun L => ((wide (X L) * wide (Y L)) >>> w).setWidth w) ∧
      gives (.laneMin o) (fun L => if less (Y L) (X L) then Y L else X L) ∧
      gives (.laneMax o) (fun L => if less (X L) (Y L) then Y L else X L) ∧
      gives (.abs o) (fun L => if sg && (X L).msb then -X L else X L) ∧
      gives (.neg o) (fun L => -X L) ∧
      gives (.laneAnd o) (fun L => X L &&& Y L) ∧ gives (.laneOr o) (fun L => X L ||| Y L) ∧
      gives (.laneXor o) (fun L => X L ^^^ Y L) ∧ gives (.not o) (fun L => ~~~X L) ∧
      gives (.laneShl o) (fun L => X L <<< ((Y L).toNat % w)) ∧
      gives (.laneShr o) (fun L => X L >>> ((Y L).toNat % w)) ∧
      gives (.laneSra o) (fun L => (X L).sshiftRight ((Y L).toNat % w)) ∧
      gives (.rot o) (fun L => (X L).rotateLeft ((Y L).toNat % w)) ∧
      gives (.sad o) (fun L => (if less (X L) (Y L) then Y L - X L else X L - Y L) + Z L) ∧
      laneGives (exec (.lanePopc o) s) s c o (w = 64)
        (fun L => ((List.range w).filter fun i => (X L).getLsbD i).length) ∧
      (∃ n : Nat → Nat, laneGives (exec (.laneClz o) s) s c o (w = 64) n ∧ ∀ L, n L ≤ w ∧
        (∀ i, i < n L → (X L).getLsbD (w - 1 - i) = false) ∧
        (n L < w → (X L).getLsbD (w - 1 - n L) = true)) ∧
      (∃ f : Nat → BitVec w, gives (.bfe o) f ∧ ∀ L i, i < w →
        let pos := LaneCtx.b c o L % 256
        let len := min (LaneCtx.c c o L % 256) w
        (f L).getLsbD i = if i < len then (X L).getLsbD (pos + i)
          else sg && decide (0 < len) && (X L).getLsbD (pos + len - 1)) ∧
      (∃ f : Nat → BitVec w, gives (.bfi o) f ∧ ∀ L i, i < w →
        let pos := LaneCtx.c c o L % 256
        let len := min (LaneCtx.c c o L / 256 % 256) w
        (f L).getLsbD i = if pos ≤ i ∧ i < pos + len then (X L).getLsbD (i - pos) else (Y L).getLsbD i)) ∧
  (∀ (s : State) (c : LaneCtx) (o : LaneOp), State.laneCtx? s = some c →
      let w := tyBits o.ty
      let sg : Bool := o.ty = .i8 || o.ty = .i16 || o.ty = .i32 || o.ty = .i64
      let X (L : Nat) : BitVec w := BitVec.ofNat w (LaneCtx.a c o L)
      let Y (L : Nat) : BitVec w := BitVec.ofNat w (LaneCtx.b c o L)
      let gives (i : Instr) (f : Nat → BitVec w) : Prop :=
        laneGives (exec i s) s c o (w = 64) fun L => writtenForm o.ty (f L).toNat
      ((c.warp.tctl.getLsbD 0 = false ∨ ∀ L, L < 32 → LaneCtx.part c o L = true → Y L ≠ 0#w) →
        gives (.laneDiv o) (fun L => if Y L = 0#w then BitVec.allOnes w else if sg then (X L).sdiv (Y L)
          else (X L) / (Y L)) ∧
        gives (.laneRem o) (fun L => if Y L = 0#w then X L else if sg then (X L).srem (Y L)
          else (X L) % (Y L))) ∧
      (∀ L, c.warp.tctl.getLsbD 0 = true → L < 32 → LaneCtx.part c o L = true → Y L = 0#w →
        ∃ m : Word, (∀ l, l < 32 → m.getLsbD l = (LaneCtx.part c o l && Y l == 0#w)) ∧
          laneTraps (exec (.laneDiv o) s) s c (1 * 64) m (dword (c.ex.entry.run + c.ex.idx)) ∧
          laneTraps (exec (.laneRem o) s) s c (1 * 64) m (dword (c.ex.entry.run + c.ex.idx))))

/-- The float lane instructions round the exact result once in the mode of fn. With x, y and z the
decoded sources and m the mode of fn[1:0]: FADD, FSUB, FMUL, FFMA, FRCP, FSQRT and FDIV give the
encoding of one rounding of the exact value; FMIN and FMAX the bits of the smaller and the larger
operand, -0 lying below +0, of the other operand where one is NaN, and the canonical NaN where both
are; FABS and FNEG clear and invert the sign bit; FCLASS the one-bit class mask, in which a finite
value is subnormal where its exponent field is zero. None of them traps or sets a flag. (R131, R133,
R77, R65, 07_lane_arithmetic.md) -/
def Obligations.LaneFloatResults : Prop :=
  ∀ (s : State) (c : LaneCtx) (o : LaneOp), State.laneCtx? s = some c →
    o.ty ∈ [LaneTy.f16, .bf16, .f32, .f64] →
    let w := tyBits o.ty
    let f := fmtOf o.ty
    let A (L : Nat) : Nat := LaneCtx.a c o L % 2 ^ w
    let B (L : Nat) : Nat := LaneCtx.b c o L % 2 ^ w
    let x (L : Nat) : Ext := decodeF f (A L)
    let y (L : Nat) : Ext := decodeF f (B L)
    let z (L : Nat) : Ext := decodeF f (LaneCtx.c c o L % 2 ^ w)
    let m : Rnd := match o.fn % 4 with | 0 => .rne | 1 => .rtz | 2 => .rup | _ => .rdn
    let gives (i : Instr) (g : Nat → Nat) : Prop :=
      laneGives (exec i s) s c o (o.ty = .f64) fun L => g L % 2 ^ w
    let R (v : Nat → Ext) (L : Nat) : Nat := encodeF f (roundF f m (v L))
    gives (.laneFadd o) (R fun L => Ext.add m (x L) (y L)) ∧
    gives (.laneFsub o) (R fun L => Ext.add m (x L) (Ext.negate (y L))) ∧
    gives (.laneFmul o) (R fun L => Ext.mul (x L) (y L)) ∧
    gives (.laneFfma o) (R fun L => Ext.add m (Ext.mul (x L) (y L)) (z L)) ∧
    gives (.frcp o) (R fun L => Ext.div (.fin false 1 1) (x L)) ∧
    gives (.fsqrt o) (R fun L => Ext.sqrt f (x L)) ∧
    gives (.fdiv o) (R fun L => Ext.div (x L) (y L)) ∧
    (∃ v u : Nat → Nat, gives (.laneFmin o) v ∧ gives (.laneFmax o) u ∧ ∀ L,
      (x L = .nan → y L = .nan → v L = f.nan ∧ u L = f.nan) ∧
      (x L = .nan → y L ≠ .nan → v L = B L ∧ u L = B L) ∧ (x L ≠ .nan → y L = .nan → v L = A L ∧ u L = A L) ∧
      (Ext.lt (x L) (y L) = true → v L = A L ∧ u L = B L) ∧
      (Ext.lt (y L) (x L) = true → v L = B L ∧ u L = A L) ∧
      (x L = .zero true → y L = .zero false → v L = A L ∧ u L = B L) ∧
      (x L = .zero false → y L = .zero true → v L = B L ∧ u L = A L) ∧
      (A L = B L → x L ≠ .nan → v L = A L ∧ u L = A L)) ∧
    gives (.laneFabs o) (fun L => A L % 2 ^ (w - 1)) ∧
    gives (.fneg o) (fun L => (BitVec.ofNat w (A L) ^^^ BitVec.twoPow w (w - 1)).toNat) ∧
    ∃ k : Nat → Nat, laneGives (exec (.fclass o) s) s c o (o.ty = .f64) (fun L => 2 ^ k L) ∧
      ∀ L, k L < 9 ∧ (x L = .nan ↔ k L = 8) ∧ (x L = .inf true ↔ k L = 0) ∧ (x L = .inf false ↔ k L = 7) ∧
        (x L = .zero true ↔ k L = 3) ∧ (x L = .zero false ↔ k L = 4) ∧
        ∀ neg n d, x L = .fin neg n d → k L =
          if A L / 2 ^ f.M % 2 ^ f.E = 0 then (if neg then 2 else 5) else (if neg then 1 else 6)

/-- The special functions give one fixed function of the input's value, with the special values and
limits stated. For each of FRSQ, FEXP2, FEXP, FLOG2, FSIN, FCOS and FTANH there is one function of
values, the same in every state and lane, whose rounding to the type each lane receives: NaN gives
NaN; FRSQ, FEXP2, FEXP, FLOG2, FSIN, FCOS and FTANH have the table's values at zeros and infinities;
and for every code of f16, bf16 or f32: FRSQ and FLOG2 of a value below zero are NaN; FEXP2 of an
integer whose power binary32 holds is that power of two exactly, at 128 and above +inf, below -150
+0; FEXP of a value below -13627828 / 2^17, the least binary32 value whose exponential is not below
2^-150, is +0, and of one from 89 on +inf; FLOG2 of a power of two that binary32 holds is its
exponent exactly; FEXP2 and FEXP are never negative and never -0; and FSIN, FCOS and FTANH stay
within 1 in magnitude. R132's error bounds: FRSQ of a positive binary32 value x lies within one ulp
of 1 / sqrt x; every other answer that these cases leave open is, brought to 0 or more for FEXP2 and
FEXP and to magnitude 1 for FSIN, FCOS and FTANH, a value within the table's bound of y, +inf where
y exceeds the largest finite number, or the nearest value of y, where y is the exact result as the
model computes it, in fixed point with 768 fraction bits (log 7, DESIGN CHOICE). What the bound
leaves open is a function that nothing else fixes (log 7). (R132, 07_lane_arithmetic.md) -/
def Obligations.LaneSpecialFunctions : Prop :=
  ∃ F : SpecialFn → Ext → Ext,
    (∀ (s : State) (c : LaneCtx) (o : LaneOp), State.laneCtx? s = some c → o.ty ∈ [LaneTy.f16, .bf16, .f32] →
      let f := fmtOf o.ty
      let gives (i : Instr) (k : SpecialFn) : Prop :=
        laneGives (exec i s) s c o false fun L => encodeF f (roundF f .rne
          (F k (decodeF f (LaneCtx.a c o L % 2 ^ tyBits o.ty)))) % 2 ^ tyBits o.ty
      gives (.frsq o) .rsq ∧ gives (.fexp2 o) .exp2 ∧ gives (.fexp o) .exp ∧ gives (.flog2 o) .log2 ∧
      gives (.fsin o) .sin ∧ gives (.fcos o) .cos ∧ gives (.ftanh o) .tanh) ∧
    (∀ k, F k .nan = .nan) ∧
    (∀ neg, F .rsq (.zero neg) = .inf neg ∧ F .exp2 (.zero neg) = .fin false 1 1 ∧
      F .exp (.zero neg) = .fin false 1 1 ∧ F .log2 (.zero neg) = .inf true ∧ F .sin (.zero neg) = .zero neg ∧
      F .cos (.zero neg) = .fin false 1 1 ∧ F .tanh (.zero neg) = .zero neg ∧
      F .sin (.inf neg) = .nan ∧ F .cos (.inf neg) = .nan ∧ F .tanh (.inf neg) = .fin neg 1 1) ∧
    (F .rsq (.inf false) = .zero false ∧ F .exp2 (.inf false) = .inf false ∧ F .exp2 (.inf true) = .zero false ∧
      F .exp (.inf false) = .inf false ∧ F .exp (.inf true) = .zero false ∧ F .log2 (.inf false) = .inf false) ∧
    ∀ f, f ∈ [Fmt.f16, Fmt.bf16, Fmt.f32] → ∀ code : Nat,
      let x := decodeF f code
      (Ext.lt x (.zero false) = true → F .rsq x = .nan ∧ F .log2 x = .nan) ∧
      (∀ k : Int, -149 ≤ k → k ≤ 127 → k ≠ 0 → Ext.eq x (Ext.ofInt k) = true →
        F .exp2 x = Ext.scaled false 1 k) ∧
      (x ≠ .nan → Ext.lt x (Ext.ofInt 128) = false → F .exp2 x = .inf false) ∧
      (Ext.lt x (Ext.ofInt (-150)) = true → F .exp2 x = .zero false) ∧
      (Ext.lt x (Ext.scaled true 13627828 (-17)) = true → F .exp x = .zero false) ∧
      (x ≠ .nan → Ext.lt x (Ext.ofInt 89) = false → F .exp x = .inf false) ∧
      (∀ k : Int, -149 ≤ k → k ≤ 127 → Ext.eq x (Ext.scaled false 1 k) = true → F .log2 x = Ext.ofInt k) ∧
      (∀ k y, k = SpecialFn.exp2 ∨ k = SpecialFn.exp → F k x = y →
        y ≠ .zero true ∧ y ≠ .inf true ∧ ∀ n d, y = .fin true n d → n = 0 ∨ d = 0) ∧
      (∀ k neg n d, k ∈ [SpecialFn.sin, .cos, .tanh] → F k x = .fin neg n d → n ≤ d) ∧
      (∀ n d, x = .fin false n d → ∃ p q : Nat, F .rsq x = .fin false p q ∧ ∀ e : Int,
        let X : Rat := (n : Rat) / d
        let ulp : Rat := 2 ^ (max e (-126) - 23)
        ((2 : Rat) ^ e) ^ 2 * X ≤ 1 → 1 < ((2 : Rat) ^ (e + 1)) ^ 2 * X →
          ((p : Rat) / q - ulp) ^ 2 * X ≤ 1 ∧ 1 ≤ ((p : Rat) / q + ulp) ^ 2 * X) ∧
      ∀ k neg n d, x = .fin neg n d →
        (k = .exp2 ∧ Ext.lt x (Ext.ofInt 128) = true ∧ Ext.lt x (Ext.ofInt (-150)) = false ∧
            (∀ i : Int, Ext.eq x (Ext.ofInt i) = false)) ∨
          (k = .exp ∧ Ext.lt x (Ext.ofInt 89) = true ∧ Ext.lt x (Ext.scaled true 13627828 (-17)) = false) ∨
          (k = .log2 ∧ neg = false ∧ ∀ i : Int, Ext.eq x (Ext.scaled false 1 i) = false) ∨
          k ∈ [SpecialFn.sin, .cos, .tanh] →
        let y : Int := fxSpecial k x
        let ulp : Int := 2 ^ (max (Nat.log2 y.natAbs) 642 - 23)
        let bound : Int :=
          match k with
          | .rsq => ulp
          | .exp2 => ulp
          | .exp => 2 * ulp
          | .log2 => max (2 * ulp) (2 ^ 746)
          | .sin => max (2 * ulp) (2 ^ 746)
          | .cos => max (2 * ulp) (2 ^ 746)
          | .tanh => 2 * ulp
        ∃ r, F k x = (if k ∈ [SpecialFn.exp2, .exp] then atLeastZero r
            else if k ∈ [SpecialFn.sin, .cos, .tanh] then withinOne r else r) ∧
          (r = roundF Fmt.f32 .rne (fxExt y) ∨ (r = .inf false ∧ (2 ^ 24 - 1) * 2 ^ 104 * 2 ^ 768 < y) ∨
            ∃ z : Int, ((∃ sg, r = .zero sg ∧ z = 0) ∨ ∃ sg a b, r = .fin sg a b ∧
              z = (if sg then -(a : Int) else a) * 2 ^ 768 / b) ∧ ((z - y).natAbs : Int) ≤ bound + 2 ^ 168)

/-- The conversions and quantisations give the stated code. CVT, with S in w2[4:0] and .sat in w2[8] and
its source read at S, a pair where S has 64 bits (log 32, the model's reading), gives for an integer
source and target the integer wrapped, or clamped with .sat; for a float target one nearest rounding
of the value, saturated first with .sat; for a float source and integer target the nearest integer
clamped to the target, 0 for NaN. CVTSR rounds stochastically with b's low 16 bits. QNT gives the
zero point for NaN, the ends for infinities, and the nearest integer plus the zero point, clamped
with .sat and wrapped without; DQN the product of the scale and the difference, rounded to binary32.
(R87, R136, R137, R138, R139, 07_lane_arithmetic.md) -/
def Obligations.LaneConversions : Prop :=
  ∀ (s : State) (c : LaneCtx) (o : LaneOp) (S : LaneTy), State.laneCtx? s = some c →
    let D := o.ty
    let f := fmtOf D
    let sat := o.w2.getLsbD 8
    let raw (L : Nat) : Nat := LaneCtx.src c o S o.a L
    let int (L : Nat) : Int := tyInt S (raw L)
    let val (L : Nat) : Ext := decodeF (fmtOf S) (raw L % 2 ^ tyBits S)
    let gives (i : Instr) (g : Nat → Nat) : Prop :=
      laneGives (exec i s) s c o (tyBits D = 64) fun L => writtenForm D (g L)
    let a32 (L : Nat) : Nat := LaneCtx.src c o .b32 o.a L
    let sc (L : Nat) : Ext := decodeF Fmt.f16 (LaneCtx.src c o .b32 o.b L % 2 ^ 16)
    let lo : Int := if signedTy D then -(2 ^ (tyBits D - 1)) else 0
    let hi : Int := if signedTy D then 2 ^ (tyBits D - 1) - 1 else 2 ^ tyBits D - 1
    let zp (L : Nat) : Nat := LaneCtx.src c o .b32 o.c L % 2 ^ tyBits D
    let top : Nat := if D = .q8 then 255 else 15
    let fl : List LaneTy := [.f16, .bf16, .f32, .f64, .e4m3, .e5m2]
    let ints : List LaneTy := [.i8, .i16, .i32, .i64, .n8, .n16, .n32, .n64]
    (tyOfCode (o.w2.toNat % 32) = some S →
      (D ∈ ints → S ∈ ints → gives (.cvt o) fun L =>
        (BitVec.ofInt (tyBits D) (if sat then max lo (min (int L) hi) else int L)).toNat) ∧
      (D ∈ fl → S ∈ ints → gives (.cvt o) fun L =>
        encodeF f (roundF f .rne (if sat then satF f (Ext.ofInt (int L)) else Ext.ofInt (int L)))) ∧
      (D ∈ fl → S ∈ fl → gives (.cvt o) fun L =>
        encodeF f (roundF f .rne (if sat then satF f (val L) else val L))) ∧
      (D ∈ ints → S ∈ fl → gives (.cvt o) fun L =>
        (BitVec.ofInt (tyBits D) (toIntClamp (val L) lo hi)).toNat)) ∧
    (D ∈ [LaneTy.bf16, .f16] → gives (.cvtsr o) fun L => encodeF f (roundSR f (decodeF Fmt.f32 (a32 L))
      (LaneCtx.src c o .b32 o.b L % 2 ^ 16))) ∧
    (D ∈ [LaneTy.q8, .q4] → ∃ q : Nat → Nat, gives (.qnt o) q ∧ ∀ L,
      let y := Ext.div (decodeF Fmt.f32 (a32 L)) (sc L)
      let near (neg : Bool) (n d : Nat) : Int := (if neg then -(nearest n d : Int) else nearest n d) + zp L
      (y = .nan → q L = zp L) ∧ (y = .inf false → q L = top) ∧ (y = .inf true → q L = 0) ∧
      (∀ neg, y = .zero neg → q L = zp L) ∧
      (∀ neg n d, y = .fin neg n d → (q L : Int) =
        if o.fn % 2 = 1 then min (max (near neg n d) 0) top else near neg n d % (top + 1))) ∧
    (D ∈ [LaneTy.q8, .q4] → laneGives (exec (.dqn o) s) s c o false fun L =>
      encodeF Fmt.f32 (roundF Fmt.f32 .rne
        (Ext.mul (sc L) (Ext.ofInt ((a32 L % 2 ^ tyBits D : Nat) - (zp L : Int))))))

/-- The predicate, select, move, pack and random lane instructions give each lane the stated value. SETP
compares by the signedness of an integer type, or by decoded value for a float type, where every
comparison with a NaN is false but .ne and .unord; PLOG combines two condition sources; MOVP tests a
for non-zero; SEL and MOV copy their source in its written form; LNOP collects nothing; TRAIL leaves
the run at its end with its token, nothing written and no request issued. PACK replaces element b
mod n of the word in c, by a nearest rounding of the binary32 value for a float type and by the low
bits for an integer type, and leaves the other bits; UNPK extends element b mod n to 32 bits: a
float to binary32, i8 and i16 by their sign, other integers by zeros, and the E2M1 escape as -0.
RNG4 writes the words of Philox-4x32-10 under key (a, b) and counter (c + lane, w2, 0, 0) to d to d
+ 3, the first to the latch. (R134, R135, R126, R140, R141, R142, 07_lane_arithmetic.md) -/
def Obligations.LanePredicatesMovesPacksAndRandom : Prop :=
  (∀ (s : State) (c : LaneCtx) (o : LaneOp), State.laneCtx? s = some c →
      let w := tyBits o.ty
      let A (L : Nat) : BitVec w := BitVec.ofNat w (LaneCtx.a c o L)
      let B (L : Nat) : BitVec w := BitVec.ofNat w (LaneCtx.b c o L)
      let x (L : Nat) : Ext := decodeF (fmtOf o.ty) (A L).toNat
      let y (L : Nat) : Ext := decodeF (fmtOf o.ty) (B L).toNat
      let decides (i : Instr) (f : Nat → Bool) : Prop := laneDecides (exec i s) s c o f
      let cond (v : Src) (L : Nat) : Bool := (LaneCtx.src c o o.ty v L).testBit 0
      (o.ty ∈ [LaneTy.f16, .bf16, .f32, .f64] →
        (o.fn = 0 → decides (.setp o) fun L => Ext.eq (x L) (y L)) ∧
        (o.fn = 1 → decides (.setp o) fun L => !Ext.eq (x L) (y L)) ∧
        (o.fn = 2 → decides (.setp o) fun L => Ext.lt (x L) (y L)) ∧
        (o.fn = 3 → decides (.setp o) fun L => Ext.lt (x L) (y L) || Ext.eq (x L) (y L)) ∧
        (o.fn = 4 → decides (.setp o) fun L => Ext.lt (y L) (x L)) ∧
        (o.fn = 5 → decides (.setp o) fun L => Ext.lt (y L) (x L) || Ext.eq (x L) (y L)) ∧
        (o.fn = 6 → decides (.setp o) fun L => x L = .nan || y L = .nan)) ∧
      (o.ty ∈ [LaneTy.i8, .i16, .i32, .i64, .n8, .n16, .n32, .n64, .b32, .b64] →
        let less (p q : BitVec w) : Bool :=
          if o.ty ∈ [LaneTy.i8, .i16, .i32, .i64] then p.slt q else p.ult q
        (o.fn = 0 → decides (.setp o) fun L => A L == B L) ∧
        (o.fn = 1 → decides (.setp o) fun L => A L != B L) ∧
        (o.fn = 2 → decides (.setp o) fun L => less (A L) (B L)) ∧
        (o.fn = 3 → decides (.setp o) fun L => !less (B L) (A L)) ∧
        (o.fn = 4 → decides (.setp o) fun L => less (B L) (A L)) ∧
        (o.fn = 5 → decides (.setp o) fun L => !less (A L) (B L))) ∧
      (o.fn = 0 → decides (.plog o) fun L => cond o.a L && cond o.b L) ∧
      (o.fn = 1 → decides (.plog o) fun L => cond o.a L || cond o.b L) ∧
      (o.fn = 2 → decides (.plog o) fun L => cond o.a L != cond o.b L) ∧
      decides (.movp o) (fun L => LaneCtx.a c o L ≠ 0) ∧
      laneGives (exec (.sel o) s) s c o (w = 64)
        (fun L => writtenForm o.ty (if cond o.c L then LaneCtx.a c o L else LaneCtx.b c o L)) ∧
      laneGives (exec (.mov o) s) s c o (w = 64) (fun L => writtenForm o.ty (LaneCtx.a c o L)) ∧
      (∃ t, exec (.lnop o) s = .next t ∧ runFrame s t c (List.replicate 32 0) [] []) ∧
      (∃ t, exec (.trail o) s = .next t ∧ sameBytes s t ∧
        onlyWarp s t c.w { c.warp with exec := some { c.ex with idx := c.ex.idx + 1, trail := some (o.fn % 8) } })) ∧
  (∀ (s : State) (c : LaneCtx) (o : LaneOp), State.laneCtx? s = some c →
      let a (L : Nat) : Nat := LaneCtx.src c o .b32 o.a L
      let b (L : Nat) : Nat := LaneCtx.src c o .b32 o.b L
      let z (L : Nat) : Nat := LaneCtx.src c o .b32 o.c L
      let w := tyBits o.ty
      let n := 32 / w
      (w ∈ [4, 8, 16] →
        (∃ f : Nat → Word, laneGives (exec (.pack o) s) s c o false (fun L => (f L).toNat) ∧ ∀ L i, i < 32 →
          let e := if floatTy o.ty then encodeF (fmtOf o.ty) (roundF (fmtOf o.ty) .rne (decodeF Fmt.f32 (a L)))
            else a L
          (f L).getLsbD i = if i / w = b L % n then e.testBit (i % w) else (z L).testBit i) ∧
        (∃ f : Nat → Nat, laneGives (exec (.unpk o) s) s c o false f ∧ ∀ L,
          let e := a L / 2 ^ (b L % n * w) % 2 ^ w
          (o.ty = .e2m1 → e = 8 → f L = 0x80000000) ∧
          (floatTy o.ty = true → ¬ (o.ty = .e2m1 ∧ e = 8) →
            f L = encodeF Fmt.f32 (decodeF (fmtOf o.ty) e)) ∧
          (floatTy o.ty = false → o.ty ∈ [LaneTy.i8, .i16] →
            f L = ((BitVec.ofNat w e).signExtend 32).toNat) ∧
          (o.ty ∈ [LaneTy.n8, .n16, .q8, .q4] → f L = e))) ∧
      (∃ t, exec (.rng4 o) s = .next t ∧
        let x (L : Nat) : Nat × Nat × Nat × Nat := philox 10 ((z L + L) % 2 ^ 32, o.w2.toNat, 0, 0) (a L) (b L)
        runFrame s t c (latchOf c o fun L => (x L).1)
          (if o.nw then [] else (List.range 32).flatMap fun L => if LaneCtx.part c o L then
            [WriteBack.vreg L o.d (word (x L).1), .vreg L (o.d + 1) (word (x L).2.1),
             .vreg L (o.d + 2) (word (x L).2.2.1), .vreg L (o.d + 3) (word (x L).2.2.2)] else []) []))

/-- The cross-lane instructions collect one request whose results go to the member lanes and come from
member lanes only. PERM acts over the lanes that take part, the others over those whose bit of the
member mask is set. PERM gives each lane the value of the lane it names, or its fallback; SHFL that
of the lane at an index, distance or xor, or its own; VOTE all, any or the ballot; RED the
combination of the members by the fixed tree, which for integers is the combination in any order;
SCAN the running combination in lane order, inclusive or exclusive; MATCH the mask of the members
with the same bits, with zero in the odd register of a pair for b64 (log 33, the model's reading).
The combination is the sum modulo 2^w, the smaller or larger by the type's signedness, AND, OR or
XOR, and for a float type the sum rounded to nearest even or the minimum or maximum of FMIN and
FMAX; its identity is 0, the largest or smallest value of the type, all ones, 0, 0, and for a float
type -0, +inf or -inf; a NaN result is the canonical one (log 34). A lane outside the set gets
nothing. (R143, R145, R146, R147, R148, R149, R150, 08_lanes_and_local_memory.md) -/
def Obligations.CrossLaneExchanges : Prop :=
  ∀ (s : State) (c : LaneCtx) (o : LaneOp), State.laneCtx? s = some c →
    let all := (List.range 32).filter fun L => LaneCtx.part c o L
    let E := all.filter fun L => (LaneCtx.src c o .b32 o.c L).testBit L
    let a (L : Nat) : Nat := LaneCtx.a c o L
    let b (L : Nat) : Nat := LaneCtx.b c o L % 2 ^ 32
    let w := tyBits o.ty
    let sends (i : Instr) (ls : List Land) : Prop := laneAsks (exec i s) s c
      (if all = [] then [] else [LaneCtx.request c .sh .cross [] ls])
    let gives (i : Instr) (F : List Nat) (f : Nat → Nat) : Prop := sends i (F.flatMap fun L =>
      .vreg L o.d (word (f L)) :: (if w = 64 then [.vreg L (o.d + 1) (word (f L / 2 ^ 32))] else []))
    let I (x : Nat) : Int := if o.ty = .i32 ∨ o.ty = .i64 then (BitVec.ofNat w x).toInt else x
    let F := fmtOf o.ty
    let real : Bool := o.ty = .f32 || o.ty = .f64
    let comb (x y : Nat) : Nat :=
      match o.fn % 8 with
      | 0 => if real then encodeF F (roundF F .rne (Ext.add .rne (decodeF F x) (decodeF F y))) else (x + y) % 2 ^ w
      | 1 => if real then minMaxF F false x y else if I y < I x then y else x
      | 2 => if real then minMaxF F true x y else if I x < I y then y else x
      | 3 => (BitVec.ofNat w x &&& BitVec.ofNat w y).toNat
      | 4 => (BitVec.ofNat w x ||| BitVec.ofNat w y).toNat
      | _ => (BitVec.ofNat w x ^^^ BitVec.ofNat w y).toNat
    let sg : Bool := o.ty = .i32 || o.ty = .i64
    let ident : Nat :=
      match o.fn % 8 with
      | 0 => if real then encodeF F (.zero true) else 0
      | 1 => if real then encodeF F (.inf false) else if sg then 2 ^ (w - 1) - 1 else 2 ^ w - 1
      | 2 => if real then encodeF F (.inf true) else if sg then 2 ^ (w - 1) else 0
      | 3 => 2 ^ w - 1
      | _ => 0
    let canon (x : Nat) : Nat := if real = true ∧ decodeF F x = .nan then F.nan else x
    let typed : Prop := (o.fn % 8 ≤ 2 ∧ o.ty ∈ [LaneTy.i32, .n32, .i64, .n64, .f32, .f64]) ∨
      (3 ≤ o.fn % 8 ∧ o.fn % 8 ≤ 5 ∧ o.ty ∈ [LaneTy.b32, .b64])
    gives (.perm o) all (fun L => if b L ∈ all then a (b L) else LaneCtx.c c o L) ∧
    (o.fn = 0 → gives (.shfl o) E fun L => if b L ∈ E then a (b L) else a L) ∧
    (o.fn = 1 → gives (.shfl o) E fun L => if b L ≤ L ∧ L - b L ∈ E then a (L - b L) else a L) ∧
    (o.fn = 2 → gives (.shfl o) E fun L => if L + b L ∈ E then a (L + b L) else a L) ∧
    (o.fn = 3 → gives (.shfl o) E fun L => if L ^^^ b L ∈ E then a (L ^^^ b L) else a L) ∧
    (o.fn = 0 → sends (.vote o) (E.map fun L => .preg L o.d (E.all fun k => LaneCtx.cond c o o.a k))) ∧
    (o.fn = 1 → sends (.vote o) (E.map fun L => .preg L o.d (E.any fun k => LaneCtx.cond c o o.a k))) ∧
    (o.fn = 2 → o.ty = .b32 → ∃ m : Word, gives (.vote o) E (fun _ => m.toNat) ∧
      ∀ i, i < 32 → m.getLsbD i = (E.contains i && LaneCtx.cond c o o.a i)) ∧
    (o.fn < 6 → typed → ∃ r, gives (.red o) E (fun _ => r) ∧
      (real = false → r = (E.map fun L => a L % 2 ^ w).foldl comb ident) ∧
      ∃ T : Nat → Nat → Option Nat,
        (∀ i, i < 32 → T 0 i = if i ∈ E then some (a i % 2 ^ w) else none) ∧
        (∀ k i, T (k + 1) i = match T k (2 * i), T k (2 * i + 1) with
          | some x, some y => some (comb x y)
          | some x, none => some x
          | none, y => y) ∧
        r = canon ((T 5 0).getD ident)) ∧
    (typed → ∃ f : Nat → Nat, gives (.scan o) E f ∧ ∀ xs L ys, E = xs ++ L :: ys →
      f L = canon (match (if 8 ≤ o.fn then xs else xs ++ [L]).map fun k => a k % 2 ^ w with
        | [] => ident
        | x :: rest => rest.foldl comb x)) ∧
    (∃ m : Nat → Word, gives (.matchLanes o) E (fun L => (m L).toNat) ∧
      ∀ L i, i < 32 → (m L).getLsbD i = (E.contains i && a i == a L))

/-- The lane loads, stores and atomics check every lane and collect one request, or trap the run. LDS,
STS, LDX, STX, LDK, STK, ATS and ATX address base plus offset modulo 2^32. Where every lane that
takes part passes its checks, the instruction collects one request on its path with each of those
lanes' address and data, a CAS with the register or pair after the one that it names as its second
operand, and none where no lane takes part; where some lane fails, the run is discarded and the lane
trap has the first failed check's cause, exactly the lanes that fail it, and the lowest one's
address. (R153, R154, R155, R157, R123, 08_lanes_and_local_memory.md) -/
def Obligations.LaneMemoryIssues : Prop :=
  ∀ (s : State) (c : LaneCtx) (o : LaneOp), State.laneCtx? s = some c →
    let ls := (List.range 32).filter fun L => LaneCtx.part c o L
    let addr (L : Nat) : Nat := (LaneCtx.src c o .b32 o.a L + o.w2.toNat) % 2 ^ 32
    let n := tyBytes o.ty
    let at_ : Option Nat := if o.nw then none else some o.d
    let op := atomOfFn o.fn
    ∀ i sp wr k, (i, sp, wr, k) ∈ ([
        (.lds o, .shared, false, .load .shared o.ty o.d), (.sts o, .shared, true, .store .shared n),
        (.ldx o, .scratch, false, .load .scratch o.ty o.d), (.stx o, .scratch, true, .store .scratch n),
        (.ldk o, .spill, false, .load .spill o.ty o.d), (.stk o, .spill, true, .store .spill n),
        (.ats o, .shared, true, .atomic .shared op o.ty at_),
        (.atx o, .scratch, true, .atomic .scratch op o.ty at_)] : List (Instr × Space × Bool × ReqOp)) →
      let fails (L cause : Nat) : Prop := State.checkLocal s c.warp sp wr (addr L) n = .fault cause
      ((∀ L, L ∈ ls → ∀ cause, ¬ fails L cause) →
        ∃ y : Nat → DWord, laneAsks (exec i s) s c (if ls = [] then [] else
          [LaneCtx.request c (Space.path sp) k (ls.map fun L => ⟨L, dword (addr L),
            if wr then dword (LaneCtx.c c o L) else 0, y L, []⟩) []]) ∧
          ((∃ sp, k = .atomic sp .cas o.ty at_) → ∀ r, o.c = .v r → ∀ L, L ∈ ls → y L =
            if n = 8 then dword ((Warp.v c.warp (r + 2) L).toNat + (Warp.v c.warp (r + 3) L).toNat * 2 ^ 32)
            else dword (Warp.v c.warp (r + 1) L).toNat)) ∧
      ((∃ L cause, L ∈ ls ∧ fails L cause) → ∃ cause lo, ∃ m : Word,
        laneTraps (exec i s) s c cause m (dword (addr lo)) ∧ lo ∈ ls ∧ fails lo cause ∧
        (∀ L, L < 32 → (m.getLsbD L = true ↔ L ∈ ls ∧ fails L cause)) ∧
        (∀ L, L ∈ ls → fails L cause → lo ≤ L) ∧
        (∀ L k, L ∈ ls → fails L k → checkOrder cause ≤ checkOrder k))

/-- GATH and SCAT translate each lane's granule and collect one request on CP, or trap the run by the
first check that fails. With a bound handle and offsets that are multiples of 32 whose pages the TLB
holds with the right that the access needs, GATH and SCAT collect one request on CP: each lane that
takes part with its virtual and physical address and, for SCAT, its eight registers; nothing of the
translation is changed. An unbound handle traps the run with CPHANDLE, and an offset that is no
multiple of 32 with CPALIGN in the lanes where it stands, TVAL the instruction's lane-section index
(log 21, the model's reading of R324). Where some page lacks the right, or no TLB entry covers it
and the context has no tables, the run traps with the cause of the lowest such lane, in all lanes
with that cause, TVAL the lowest one's virtual address; for a run of level 0 of a team launched as
idempotent the team is aborted instead. With no lane taking part nothing is collected. (R169, R123,
R328, R330, 09_copies.md) -/
def Obligations.GatherAndScatter : Prop :=
  ∀ (s : State) (c : LaneCtx) (o : LaneOp), State.laneCtx? s = some c →
    let ls := (List.range 32).filter fun L => LaneCtx.part c o L
    let off (L : Nat) : Nat := LaneCtx.src c o (if o.ty = .b64 then .n64 else .n32) o.b L
    let h := LaneCtx.src c o .n32 o.a 0
    let agent := Agent.core (State.coreOf s c.warp)
    let asid := State.asidOf s c.warp
    (ls = [] → laneAsks (exec (.gath o) s) s c [] ∧ laneAsks (exec (.scat o) s) s c []) ∧
    (ls ≠ [] → (64 ≤ h ∨ State.handle? s c.warp h = none) → ∃ m : Word,
      (∀ L, L < 32 → (m.getLsbD L = true ↔ L ∈ ls)) ∧
      laneTraps (exec (.gath o) s) s c (4 * 64 + 1) m (dword (LaneCtx.index c)) ∧
      laneTraps (exec (.scat o) s) s c (4 * 64 + 1) m (dword (LaneCtx.index c))) ∧
    (∀ b, h < 64 → State.handle? s c.warp h = some b →
      ((∃ L, L ∈ ls ∧ off L % 32 ≠ 0) → ∃ m : Word,
        (∀ L, L < 32 → (m.getLsbD L = true ↔ L ∈ ls ∧ off L % 32 ≠ 0)) ∧
        laneTraps (exec (.gath o) s) s c (4 * 64 + 3) m (dword (LaneCtx.index c)) ∧
        laneTraps (exec (.scat o) s) s c (4 * 64 + 3) m (dword (LaneCtx.index c))) ∧
      (ls ≠ [] → (∀ L, L ∈ ls → off L % 32 = 0) →
        let va (L : Nat) : Nat := b.base + off L
        (∀ pa : Nat → Nat,
          (∀ L, L ∈ ls → ∃ e, State.tlbHit s agent asid (va L) = some e ∧
            e.r = true ∧ (e.x && e.w) = false ∧ pa L = e.pa + (va L - e.va)) →
          laneAsks (exec (.gath o) s) s c [LaneCtx.request c .cp (.gath o.d []) (ls.map fun L =>
            ⟨L, dword (va L), dword (pa L), 0, []⟩) []]) ∧
        (∀ (pa : Nat → Nat) r, o.c = .v r →
          (∀ L, L ∈ ls → ∃ e, State.tlbHit s agent asid (va L) = some e ∧
            e.w = true ∧ e.x = false ∧ pa L = e.pa + (va L - e.va)) →
          laneAsks (exec (.scat o) s) s c [LaneCtx.request c .cp .scat (ls.map fun L =>
            ⟨L, dword (va L), dword (pa L), 0,
             (List.range 8).map fun k => Warp.v c.warp (r + k) L⟩) []]) ∧
        (∀ (i : Instr) (wr : Bool), (i = .gath o ∧ wr = false) ∨ (i = .scat o ∧ wr = true) →
          ∀ cause? : Nat → Option Nat,
          (∀ L, L ∈ ls → (∃ e, State.tlbHit s agent asid (va L) = some e ∧
              cause? L = if (if wr then e.w && !e.x else e.r && !(e.x && e.w)) then none else some (10 * 64 + 1)) ∨
            (State.tlbHit s agent asid (va L) = none ∧ AMap.get? s.roots asid = none ∧
              cause? L = some (10 * 64))) →
          ∀ lo cause, lo ∈ ls → cause? lo = some cause → (∀ L, L ∈ ls → L < lo → cause? L = none) →
          (c.warp.idem = true → c.ex.entry.lev = 0 →
            exec i s = .next (idemAbort s c.warp.team cause (va lo))) ∧
          ((c.warp.idem = false ∨ c.ex.entry.lev ≠ 0) → ∃ m : Word,
            (∀ L, L < 32 → (m.getLsbD L = true ↔ L ∈ ls ∧ cause? L = some cause)) ∧
            laneTraps (exec i s) s c cause m (dword (va lo)) wr))))

/-- UNITE, FIND and the FAX forms collect their requests, FAX one for each distinct peer word in
ascending order, or trap the run by the first check that fails. UNITE and FIND collect one request
on EQ with the operands of each lane that takes part. FAX, with peer words of which no reserved bit
is set, offsets that are multiples of the access size (data forms only), and, for a sub-operation
that an idempotent team may not issue, no such team, collects one request on FB for each distinct
peer word of those lanes, in strictly ascending order, with exactly the lanes that name it; its
packets hold each of these lanes, no packet holds lanes of two 256-byte blocks (data forms), and
none more than 256 bytes of data; a CAS has as its second operand the register or pair after the one
that it names. Otherwise the run is discarded and traps with FXPEER, ALIGN or FXIDEM, checked in
this order, in exactly the lanes that fail. (R240, R294, R295, R287, R289, R123, 19_fabric.md) -/
def Obligations.FabricAndForestLanesIssue : Prop :=
  ∀ (s : State) (c : LaneCtx) (o : LaneOp), State.laneCtx? s = some c →
    let ls := (List.range 32).filter fun L => LaneCtx.part c o L
    let at_ : Option Nat := if o.nw then none else some o.d
    let f := LaneCtx.src c o .n32 o.c 0
    let eq (op : ReqOp) (y : Nat → Nat) : List Req := [LaneCtx.request c .eq op
      (ls.map fun L => ⟨L, dword (LaneCtx.src c o .n32 o.a L), dword (y L), 0, []⟩) []]
    laneAsks (exec (.unite o) s) s c
      (if ls = [] then [] else eq (.unite f o.d) fun L => LaneCtx.src c o .n32 o.b L) ∧
    laneAsks (exec (.find o) s) s c (if ls = [] then [] else eq (.find f o.d) fun _ => 0) ∧
    ∀ i op data once, (i, op, data, once) ∈ ([
        (.faxLd o, .ld o.ty o.d, false, false), (.faxLdg o, .ldg o.d, false, false),
        (.faxSt o, .st (tyBytes o.ty), true, false), (.faxUnite o, .unite o.d, true, true),
        (.faxFind o, .find o.d, false, false),
        (.faxAtomic o, .atomic (atomOfFn (o.fn - 8)) o.ty at_, true, true)] :
        List (Instr × FaxOp × Bool × Bool)) →
      let peer (L : Nat) : Nat := LaneCtx.src c o .b32 o.a L
      let off (L : Nat) : Nat := LaneCtx.src c o .b32 o.b L
      let odd (L : Nat) : Prop := bits (peer L) 15 9 ≠ 0 ∨ bits (peer L) 31 24 ≠ 0
      let skew (L : Nat) : Prop := FaxOp.onForest op = false ∧ off L % FaxOp.size op ≠ 0
      let exactly (m : Word) (p : Nat → Prop) : Prop := ∀ L, L < 32 → (m.getLsbD L = true ↔ L ∈ ls ∧ p L)
      ((∃ L, L ∈ ls ∧ odd L) → ∃ m, exactly m odd ∧
        laneTraps (exec i s) s c (9 * 64 + 1) m (dword (LaneCtx.index c))) ∧
      ((∀ L, L ∈ ls → ¬ odd L) → (∃ L, L ∈ ls ∧ skew L) → ∃ m lo, exactly m skew ∧ lo ∈ ls ∧ skew lo ∧
        (∀ L, L ∈ ls → skew L → lo ≤ L) ∧ laneTraps (exec i s) s c (3 * 64 + 5) m (dword (off lo))) ∧
      ((∀ L, L ∈ ls → ¬ odd L ∧ ¬ skew L) →
        (once = true → c.warp.idem = true → ls ≠ [] → ∃ m, exactly m (fun _ => True) ∧
          laneTraps (exec i s) s c (9 * 64 + 5) m (dword (LaneCtx.index c))) ∧
        (once = false ∨ c.warp.idem = false →
          ∀ ps : List Nat, ps.Pairwise (· < ·) → (∀ p, p ∈ ps ↔ ∃ L, L ∈ ls ∧ peer L = p) →
          ∃ (pk : Nat → List (List Nat)) (y : Nat → DWord),
            laneAsks (exec i s) s c (ps.map fun p =>
              LaneCtx.request c .fb (.fax (p % 512) (p / 2 ^ 16) op (pk p) [])
                ((ls.filter fun L => peer L = p).map fun L =>
                  ⟨L, dword (off L), if data then dword (LaneCtx.c c o L) else 0, y L, []⟩) []) ∧
            (∀ r, op = .atomic .cas o.ty at_ → o.c = .v r → ∀ L, L ∈ ls → y L =
              if tyBytes o.ty = 8 then
                dword ((Warp.v c.warp (r + 2) L).toNat + (Warp.v c.warp (r + 3) L).toNat * 2 ^ 32)
              else dword (Warp.v c.warp (r + 1) L).toNat) ∧
            ∀ p, p ∈ ps → (∀ L, L ∈ (pk p).flatten ↔ L ∈ ls ∧ peer L = p) ∧
              ∀ k, k ∈ pk p → k.length * FaxOp.payload op ≤ 256 ∧
                (FaxOp.onForest op = false → ∀ L M, L ∈ k → M ∈ k → off L / 256 = off M / 256)))

/-- FIND answers an element's root and keeps every element's root; UNITE joins two classes under the
root the rule names and changes no other class. For the only request of a warp, on a forest open in
its context whose entries are correctable with parents below the forest's size: FIND_SERVE answers
the lane with the root that its element reaches and leaves every element reaching the root that it
reached. UNITE_SERVE on elements with different roots (in a snapshot, with room in the log) answers
the root that the rule names (the larger class by size, on a tie or without sizes the smaller index)
and OK; every element that reached either root then reaches that one, and every other element the
root it reached; CLASSES falls by one, LSIZE and LROOT become the new class's size and root where it
is larger than LSIZE, and LROOT the smaller root where it equals it; in a snapshot the log receives
the root and the child. On elements with one root it answers that root and SAME. Each service passes
over, once more, the accepted packets that wait for the forest, and its engine counts it (logs 29,
96: the model's choice of which events and which packets count). While one of these packets that
could be served has been passed over by 4,095 operations, neither serves anything. (R231, R233,
R241, R242, R237, R239, 13_equivalence.md) -/
def Obligations.ForestOperationsAnswer : Prop :=
  (∀ (s : State) (w : Nat) (W : Warp) (r : Req) (it : LaneItem) (rest : List LaneItem) (f d : Nat),
    s.warps[w]? = some W → W.reqs = [r] → r.todo = it :: rest → r.op = .unite f d ∨ r.op = .find f d →
    (∃ h t, h ∈ s.homes ∧ State.homeForest s h = some f ∧ 4095 ≤ h.passed ∧ t ∈ h.todo ∧
      State.homeFree s h t = true) →
    exec (.findServe w r.id) s = .next s ∧ exec (.uniteServe w r.id) s = .next s) ∧
  ∀ (s : State) (w : Nat) (W : Warp) (r : Req) (it : LaneItem) (rest : List LaneItem) (f d : Nat) (F : Forest),
    s.warps[w]? = some W → W.reqs = [r] → r.done = false → r.todo = it :: rest →
    AMap.get? s.forests f = some F → F.ctx = State.asidOf s W →
    State.opening s w r.id f = false → State.forestHeld s f = false →
    State.forestTurn s f (fun _ => true) = true →
    (∀ e, e < F.n → State.entryBad s F e = false ∧ (State.entry s F e).1 < F.n) →
    let x := it.addr.toNat
    let y := it.x.toNat
    let p := State.passOwn s f
    let landed (t : State) (vs : List Word) : Prop := ∃ V, t.warps[w]? = some V ∧
      V = { W with reqs := [{ r with todo := rest, land := r.land ++
        (vs.zipIdx.map fun v => Land.vreg it.lane (d + v.2) v.1) }] }
    x < F.n →
    (∀ rx k, r.op = .find f d → k ≤ F.n → State.reaches s F k x rx →
      ∃ t G, exec (.findServe w r.id) s = .next t ∧ landed t [word rx] ∧
        t = { p with forests := AMap.set s.forests f G, warps := t.warps } ∧
        G = { F with entries := G.entries } ∧
        ∀ e q, e < F.n → (∃ j, State.reaches s F j e q) → ∃ j, State.reaches t G j e q) ∧
    (∀ rx ry k l, r.op = .unite f d → y < F.n → k ≤ F.n → l ≤ F.n →
      State.reaches s F k x rx → State.reaches s F l y ry →
      (rx = ry → ∃ t G, exec (.uniteServe w r.id) s = .next t ∧ landed t [word rx, 1] ∧
        t = { p with forests := AMap.set s.forests f G, warps := t.warps } ∧
        G = { F with entries := G.entries } ∧
        ∀ e q, e < F.n → (∃ j, State.reaches s F j e q) → ∃ j, State.reaches t G j e q) ∧
      (rx ≠ ry → (F.snap = true → F.fill ≠ F.cap) →
        let sx := (State.entry s F rx).2
        let sy := (State.entry s F ry).2
        let q := if F.bySize = false ∨ sx = sy then (if rx < ry then rx else ry)
          else if sy < sx then rx else ry
        let other := if q = rx then ry else rx
        ∃ t G, exec (.uniteServe w r.id) s = .next t ∧ landed t [word q, 0] ∧
          t = { p with forests := AMap.set s.forests f G, warps := t.warps } ∧
          G.classes = (F.classes + 2 ^ 32 - 1) % 2 ^ 32 ∧ G.unions = (F.unions + 1) % 2 ^ 64 ∧
          (State.entry t G q).2 = (sx + sy) % 2 ^ 32 ∧ G.n = F.n ∧
          (let z := (sx + sy) % 2 ^ 32
           (F.lsize < z → G.lsize = z ∧ G.lroot = q) ∧ (z = F.lsize → G.lsize = z ∧ G.lroot = min F.lroot q) ∧
           (z < F.lsize → G.lsize = F.lsize ∧ G.lroot = F.lroot)) ∧
          (if F.snap then G.fill = F.fill + 1 ∧ AMap.get? G.logs F.fill = some (q, other)
            else G.fill = F.fill ∧ G.logs = F.logs) ∧
          ∀ e m, e < F.n → (∃ j, State.reaches s F j e m) →
            ∃ j, State.reaches t G j e (if m = rx ∨ m = ry then q else m)))

/-- The scalar forest instructions issue one request, whose service answers its status and changes the
forest as stated. With room on EQ, EQ.CLOSE, EQ.SNAP, EQ.UNDO, EQ.KEEP and EQ.STAT issue one request
on their forest and wait for it; without room they wait for it. EQ.OPEN does the same with the
descriptor of 32 bytes that it reads at its offset, whatever earlier stores of the warp wait there
(log 26, DEDUCED), which is a multiple of 32 inside the grid's scratchpad allocation, or without it
where it is uncorrectable, which the die counts; at another offset, with no run executing, it traps
with ALIGN or SCBOUND, TVAL the offset. For the only request of a warp, to forest f, whose registers
are its to write, with no OPEN, no held EQREL and no packet that has been passed over too often in
its way; each service passes over the accepted packets that wait for the forest, and its engine
counts it, once for an OPEN (logs 29, 96, DESIGN CHOICE). Not open in the context: CLOSE, SNAP, UNDO
and KEEP answer 7, STAT four words of ones; an OPEN of a free slot answers 6 where its descriptor is
uncorrectable, 3 where the descriptor breaks a rule of R235, whose reserved bits do not count (log
79, DEDUCED), and with a sound one asks for its pages, and with these pinned and resident and INIT
set answers 0 and opens n singletons; without INIT, over an array without uncorrectable data, it
answers 5 and opens nothing where some PARENT is N or more, and else answers 0 with the array's
entries, CLASSES the number of roots, and LSIZE and LROOT the largest SIZE of a root and its
smallest root. Open: STAT answers the page of registers; SNAP answers 0 and begins a snapshot with
an empty log, or 8 inside one; KEEP and UNDO answer 9 outside one; KEEP answers 0 and ends it; UNDO
of an empty log answers 0, ends it and restores LSIZE and LROOT; UNDO of a log of correctable unions
takes them back, the last first, the child a root again and its size taken from the root's, and
restores CLASSES and UNIONS; CLOSE answers 8 inside one and else 0, and the slot is free; OPEN
answers 2 in its own context and 1 in another. (R234, R235, R239, R117, R233, R236, R237, R238,
13_equivalence.md) -/
def Obligations.ForestCommandsIssueAndAnswer : Prop :=
  (∀ (s : State) (c : Ctx) (d n b page : Nat) (G : Grid), State.ctx? s = some c →
      State.gridOf? s c.warp = some G →
      let W := c.warp
      let x := (Warp.s W b).toNat
      let p := State.placeOf s W .scratch x
      let ask (i : Instr) (op : EqOp) : Prop :=
        ((W.reqs.filter fun r => r.path = .eq).length < 4095 →
          awaits (exec i s) s c (Warp.newReq W .eq (.eq n d op))) ∧
        (4095 ≤ (W.reqs.filter fun r => r.path = .eq).length → waits (exec i s) s c (.room .eq))
      ask (.eqClose d n) .close ∧ ask (.eqSnap d n) .snap ∧ ask (.eqUndo d n) .undo ∧
      ask (.eqKeep d n) .keep ∧ ask (.eqStat d n page) (.stat page) ∧
      (x % 32 = 0 → x + 32 ≤ G.scrLen → W.mtouch = [] →
        (State.badPlace s c.w p 32 = false →
          ask (.eqOpen d n b) (.open_ (some (State.readPlace s c.w p 32)) false none)) ∧
        (State.badPlace s c.w p 32 = true → (W.reqs.filter fun r => r.path = .eq).length < 4095 →
          awaits (exec (.eqOpen d n b) s) (State.metPlace s c.w p) c
            (Warp.newReq W .eq (.eq n d (.open_ none false none))))) ∧
      (Ctx.mayTrap c → x % 32 ≠ 0 → traps (exec (.eqOpen d n b) s) s c (3 * 64 + 5) (dword x)) ∧
      (Ctx.mayTrap c → x % 32 = 0 → G.scrLen < x + 32 →
        traps (exec (.eqOpen d n b) s) s c (3 * 64 + 1) (dword x))) ∧
  (∀ (s : State) (w : Nat) (W : Warp) (r : Req) (f d : Nat) (op : EqOp),
      s.warps[w]? = some W → W.reqs = [r] → r.done = false → r.op = .eq f d op →
      State.opening s w r.id f = false → State.forestHeld s f = false →
      State.forestTurn s f (fun _ => true) = true →
      (∀ q, q ∈ ReqOp.sdests r.op → q ≠ 0 → Writer.req r.id ∈ Warp.writers W q) →
      let p : State := match op with | .open_ _ true _ => s | _ => State.passOwn s f
      let o := exec (.eqServe w r.id) s
      let answers (u : State) (vs : List Word) : Prop := ∃ V, o = .next (State.setWarp u w V) ∧
        u = { p with main := u.main, forests := u.forests, freeCount := u.freeCount } ∧
        V = { W with reqs := [], sregs := V.sregs, owed := V.owed } ∧
        (∀ k v, vs[k]? = some v → Warp.s V (d + k) = if d + k = 0 then 0 else v) ∧
        (∀ q, q < d ∨ d + vs.length ≤ q → Warp.s V q = Warp.s W q ∧ AMap.get? V.owed q = AMap.get? W.owed q)
      let sound (x : Nat) : Prop := bits x 191 128 % 8 = 0 ∧ bits x 191 128 < 2 ^ 57 ∧ bits x 127 96 ≠ 0 ∧
        bits x 95 64 ≤ 2 ^ 28 ∧ (bits x 95 64 = 0 ∨ (bits x 255 192 % 8 = 0 ∧ bits x 255 192 < 2 ^ 57))
      let stays (v : Word) : Prop := answers p [v]
      let becomes (v : Word) (G : Forest) : Prop :=
        answers { p with forests := AMap.set s.forests f G } [v]
      (∀ e, op ≠ .open_ e true none) →
      (AMap.get? s.forests f = none →
        (op = .close ∨ op = .snap ∨ op = .undo ∨ op = .keep → stays 7) ∧
        (∀ page, op = .stat page → answers p (List.replicate 4 0xFFFFFFFF)) ∧
        (∀ a k, op = .open_ none a k → stays 6) ∧
        (∀ x a k, op = .open_ (some x) a k → ¬ sound x → stays 3) ∧
        (∀ x, op = .open_ (some x) false none → sound x → ∃ t data V, o = .next t ∧
          t = { p with reports := s.reports ++ [⟨.eqPin, [w, r.id, f, State.asidOf s W] ++ data⟩],
                       warps := s.warps.set w V } ∧
          data = [bits x 191 128, bits x 127 96, bits x 255 192, bits x 95 64] ∧
          V = { W with reqs := [{ r with op := .eq f d (.open_ (some x) true none) }] }) ∧
        (∀ x, op = .open_ (some x) true (some false) → sound x → stays 4) ∧
        (∀ x a b, op = .open_ (some x) true (some true) → sound x → bits x 1 1 = 1 →
          State.pin s (State.asidOf s W) (bits x 191 128) (8 * bits x 127 96) = some a →
          State.pin s (State.asidOf s W) (bits x 255 192) (8 * bits x 95 64) = some b →
          (∀ F e, State.entryBad s F e = false) →
          ∃ u G, answers u [0] ∧ AMap.get? u.forests f = some G ∧ G.ctx = State.asidOf s W ∧
            G.n = bits x 127 96 ∧ G.classes = G.n ∧ G.lsize = 1 ∧ G.lroot = 0 ∧ G.unions = 0 ∧
            G.snap = false ∧ G.bySize = decide (bits x 0 0 = 1) ∧ G.cap = bits x 95 64 ∧
            ∀ e, State.entry u G e = (e, 1)) ∧
        (∀ (x : Nat) (a b : List (Nat × Nat × Nat)) (E : Nat → Nat × Nat),
          op = .open_ (some x) true (some true) → sound x → bits x 1 1 = 0 →
          State.pin s (State.asidOf s W) (bits x 191 128) (8 * bits x 127 96) = some a →
          State.pin s (State.asidOf s W) (bits x 255 192) (8 * bits x 95 64) = some b →
          let n := bits x 127 96
          (∀ e, e < n → (E e).1 < 2 ^ 32 ∧ (E e).2 < 2 ^ 32 ∧ ∃ pa,
            State.physOf s (State.asidOf s W) (bits x 191 128 + 8 * e) = some pa ∧
            Memory.uncorrectable s.main pa 8 = false ∧ Memory.read s.main pa 8 = (E e).1 + (E e).2 * 2 ^ 32) →
          let roots := (List.range n).filter fun e => (E e).1 = e
          ((∃ e, e < n ∧ n ≤ (E e).1) → stays 5) ∧
          ((∀ e, e < n → (E e).1 < n) →
            ∃ u G, answers u [0] ∧ u.main = s.main ∧ AMap.get? u.forests f = some G ∧ G.ctx = State.asidOf s W ∧
              G.n = n ∧ G.classes = roots.length ∧ G.unions = 0 ∧ G.fill = 0 ∧ G.snap = false ∧ G.fails = 0 ∧
              G.cap = bits x 95 64 ∧ (∀ e, e < n → State.entry u G e = E e) ∧
              (roots ≠ [] → G.lroot ∈ roots ∧ G.lsize = (E G.lroot).2 ∧
                ∀ e, e ∈ roots → (E e).2 ≤ G.lsize ∧ ((E e).2 = G.lsize → G.lroot ≤ e))))) ∧
      (∀ F, AMap.get? s.forests f = some F →
        (F.ctx ≠ State.asidOf s W →
          (op = .close ∨ op = .snap ∨ op = .undo ∨ op = .keep → stays 7) ∧
          (∀ page, op = .stat page → answers p (List.replicate 4 0xFFFFFFFF)) ∧
          (∀ x a k, op = .open_ x a k → stays 1)) ∧
        (F.ctx = State.asidOf s W →
          (∀ x a k, op = .open_ x a k → stays 2) ∧
          (∀ page, op = .stat page → answers p (Forest.page F page)) ∧
          (op = .snap → F.snap = false →
            becomes 0 { F with snap := true, fill := 0, ls0 := F.lsize, lr0 := F.lroot }) ∧
          (op = .snap → F.snap = true → stays 8) ∧
          (op = .close → F.snap = true → stays 8) ∧
          (op = .close → F.snap = false → ∃ u, answers u [0] ∧ AMap.get? u.forests f = none ∧
            ∀ g, g ≠ f → AMap.get? u.forests g = AMap.get? s.forests g) ∧
          (op = .keep → F.snap = true → becomes 0 { F with snap := false, fill := 0 }) ∧
          (op = .keep ∨ op = .undo → F.snap = false → stays 9) ∧
          (op = .undo → F.snap = true → F.fill = 0 →
            becomes 0 { F with snap := false, lsize := F.ls0, lroot := F.lr0 }) ∧
          (∀ E : Nat → Nat → Nat × Nat, op = .undo → F.snap = true → F.classes + F.fill < 2 ^ 32 →
            F.fill ≤ F.unions → F.unions < 2 ^ 64 → (∀ e, E F.fill e = State.entry s F e) →
            (∀ i, i < F.fill →
              let q := (State.logEntry s F i).1
              let child := (State.logEntry s F i).2
              q ≠ child ∧ State.forestBad s F (F.log + 8 * i) = false ∧ State.entryBad s F q = false ∧
                State.entryBad s F child = false ∧ E i child = (child, (E (i + 1) child).2) ∧
                E i q = ((E (i + 1) q).1, ((E (i + 1) q).2 + 2 ^ 32 - (E (i + 1) child).2) % 2 ^ 32) ∧
                ∀ e, e ≠ q → e ≠ child → E i e = E (i + 1) e) →
            ∃ G, becomes 0 G ∧ G.snap = false ∧ G.fill = 0 ∧ G.lsize = F.ls0 ∧ G.lroot = F.lr0 ∧
              G.classes = F.classes + F.fill ∧ G.unions = F.unions - F.fill ∧
              ∀ (t : State) (e : Nat), t.main = s.main → State.entry t G e = E 0 e))))

/-- A copy whose checks pass issues one request on CP, raising PEND of the barrier it is to arrive at,
and waits where there is no room for it. CPY.LIN, CPY.TILE and CPY.RING whose operands keep the
conditions of the check table complete with one command issued: its ends, units and slot as the
words say, with no completion record where the word names none. With BAR set, whose ARRIVE word
names an initialised object, PEND of that object also rises by 1. An operand, a completion word or
an ARRIVE word that fails a check traps, when no run executes, with the first failed check of the
table, whether or not there is room (log 38, the model's reading): for LIN and TILE the spaces and
the zero fields, the handle of a side in main memory, the one side in main memory and the tile's
index, the alignments, the ranges, and the .const range. Which word of one row TVAL names, the
destination's first, and which where the row's failure is of no one word, is the model's choice (log
108). A LIN copy of size 0 passes the range checks. Where the checks pass and CP has no room, or the
core's copy unit holds 32 commands, the instruction waits with nothing changed. CPYPROG gives the
progress of the oldest command of the warp on CP, all ones without one. (R161, R166, R167, R168,
R170, R178, R226, 09_copies.md) -/
def Obligations.CopiesIssue : Prop :=
  ∀ (s : State) (c : Ctx) (a d : Nat), State.ctx? s = some c →
    let W := c.warp
    let r (k : Nat) : Nat := (Warp.s W (a + k)).toNat
    let dw := r 0
    let sw := r 1
    let hw := r 2
    let cw := r 3
    let main := bits dw 31 28 = 2 ∨ bits sw 31 28 = 2
    let issues (i : Instr) (work : CopyWork) (mode : Nat) : Prop := issuesCopy (exec i s) s c .cp work mode cw
    (∀ base, (main → ∃ b, State.handle? s W (bits hw 29 24) = some b ∧ b.base = base) →
      (¬ main → bits hw 29 24 = 0 ∧ base = 0) →
      bits dw 31 28 ≤ 2 → bits sw 31 28 ≤ 2 → bits hw 31 30 = 0 →
      dw % 4 = 0 → sw % 4 = 0 → bits hw 23 0 % 4 = 0 →
      let n := bits hw 23 0
      (n = 0 ∨ (State.endRange s W (endOf base dw) n = none ∧ State.endRange s W (endOf base sw) n = none)) →
      State.endConst s W (endOf base dw) n = false →
      issues (.cpyLin a) (.piece { dst := endOf base dw, src := endOf base sw, tile := none, size := n,
                                   start := 0, done := [] }) 0) ∧
    (∀ b x y mw ch, (bits dw 31 28 = 2 ∧ bits sw 31 28 ≤ 1 ∧ mw = dw ∧ ch = sw ∧
          x = End.main b.base ∧ chipEnd sw = some y ∨
        bits sw 31 28 = 2 ∧ bits dw 31 28 ≤ 1 ∧ mw = sw ∧ ch = dw ∧
          chipEnd dw = some x ∧ y = End.main b.base) →
      State.handle? s W (bits hw 29 24) = some b → bits hw 31 30 = 0 → bits hw 23 0 = 0 →
      bits mw 27 0 < TileBind.count b →
      bits ch 27 0 % (if 0 < b.swz then 128 else 32) = 0 →
      let n := TileBind.elems b * 2 ^ b.esz
      State.endRange s W x n = none → State.endRange s W y n = none → State.endConst s W x n = false →
      issues (.cpyTile a) (.piece { dst := x, src := y, tile := some (b, bits mw 27 0), size := n,
                                    start := 0, done := [] }) 1) ∧
    (let len := if bits hw 27 16 = 0 then 4096 else bits hw 27 16
     let count := bits hw 12 0
     let fails (cause x : Nat) : Prop := traps (exec (.cpyRing a) s) s c cause (dword x)
     (Ctx.mayTrap c → 4096 ≤ dw → fails (4 * 64) dw) ∧
     (Ctx.mayTrap c → dw < 4096 → chipEnd sw = none → fails (4 * 64) sw) ∧
     ∀ x, dw < 4096 → chipEnd sw = some x →
      (Ctx.mayTrap c → bits hw 31 28 ≠ 0 ∨ bits hw 15 13 ≠ 0 → fails (4 * 64) hw) ∧
      (bits hw 31 28 = 0 → bits hw 15 13 = 0 →
        (Ctx.mayTrap c → count = 0 ∨ len < count → fails (4 * 64 + 2) hw) ∧
        (1 ≤ count → count ≤ len →
          (Ctx.mayTrap c → sw % 16 ≠ 0 → fails (4 * 64 + 3) sw) ∧
          (∀ cause, Ctx.mayTrap c → sw % 16 = 0 → State.endRange s W x (16 * len) = some cause → fails cause sw) ∧
          (sw % 16 = 0 → State.endRange s W x (16 * len) = none →
            issues (.cpyRing a) (.ring { at_ := x, start := dw, count := count, len := len, pos := 0,
                                         bytes := 0, cur := none }) 2)))) ∧
    (Ctx.mayTrap c →
      let fails (i : Instr) (cause x : Nat) : Prop := traps (exec i s) s c cause (dword x)
      let h := State.handle? s W (bits hw 29 24)
      let n := bits hw 23 0
      let mw := if bits dw 31 28 = 2 then dw else sw
      let ch := if bits dw 31 28 = 2 then sw else dw
      let spaces : Prop := bits dw 31 28 ≤ 2 ∧ bits sw 31 28 ≤ 2
      (∀ i zero, (i, zero) ∈ [(Instr.cpyLin a, main ∨ bits hw 29 24 = 0), (.cpyTile a, n = 0)] →
        (2 < bits dw 31 28 → fails i (4 * 64) dw) ∧
        (bits dw 31 28 ≤ 2 → 2 < bits sw 31 28 → fails i (4 * 64) sw) ∧
        (spaces → ¬ (bits hw 31 30 = 0 ∧ zero) → fails i (4 * 64) hw) ∧
        (spaces → bits hw 31 30 = 0 → zero → main → h = none → fails i (4 * 64 + 1) mw)) ∧
      (spaces → bits hw 31 30 = 0 → (main ∨ bits hw 29 24 = 0) → (main → h ≠ none) →
        let d := endOf (h.elim 0 (·.base)) dw
        let e := endOf (h.elim 0 (·.base)) sw
        (dw % 4 ≠ 0 → fails (.cpyLin a) (4 * 64 + 3) dw) ∧
        (dw % 4 = 0 → sw % 4 ≠ 0 → fails (.cpyLin a) (4 * 64 + 3) sw) ∧
        (dw % 4 = 0 → sw % 4 = 0 → n % 4 ≠ 0 → fails (.cpyLin a) (4 * 64 + 3) hw) ∧
        (dw % 4 = 0 → sw % 4 = 0 → n % 4 = 0 →
          (∀ cause, n ≠ 0 → State.endRange s W d n = some cause → fails (.cpyLin a) cause dw) ∧
          (∀ cause, n ≠ 0 → State.endRange s W d n = none → State.endRange s W e n = some cause →
            fails (.cpyLin a) cause sw) ∧
          (n = 0 ∨ (State.endRange s W d n = none ∧ State.endRange s W e n = none) →
            State.endConst s W d n = true → fails (.cpyLin a) (3 * 64 + 2) dw))) ∧
      (spaces → bits hw 31 30 = 0 → n = 0 →
        ((bits dw 31 28 = 2 ↔ bits sw 31 28 = 2) → (main → h ≠ none) → fails (.cpyTile a) (4 * 64 + 2) dw) ∧
        ∀ b, ¬ (bits dw 31 28 = 2 ↔ bits sw 31 28 = 2) → h = some b →
          let bytes := TileBind.elems b * 2 ^ b.esz
          (TileBind.count b ≤ bits mw 27 0 → fails (.cpyTile a) (4 * 64 + 2) mw) ∧
          (bits mw 27 0 < TileBind.count b →
            (bits ch 27 0 % (if 0 < b.swz then 128 else 32) ≠ 0 → fails (.cpyTile a) (4 * 64 + 3) ch) ∧
            (bits ch 27 0 % (if 0 < b.swz then 128 else 32) = 0 → ∀ x, chipEnd ch = some x →
              (∀ cause, bytes ≠ 0 → State.endRange s W x bytes = some cause → fails (.cpyTile a) cause ch) ∧
              (bytes = 0 ∨ State.endRange s W x bytes = none → bits sw 31 28 = 2 →
                State.endConst s W x bytes = true → fails (.cpyTile a) (3 * 64 + 2) dw))))) ∧
    ((∀ q, q ∈ W.reqs → q.path ≠ .cp) → yields (exec (.cpyprog d) s) s c 1 d 0xFFFFFFFF) ∧
    (∀ q k rest, W.reqs = q :: rest → q.path = .cp → q.op = .copy k →
      yields (exec (.cpyprog d) s) s c 1 d (word (CopyWork.progress k.work)))

/-- LXFER issues the transfer that its descriptor names on CP, and EQREL its relabelling on EQ.
LXFER.RESTRICT, LXFER.PROLONG and LXFER.INJECT, with spaces that name a location and a descriptor of
64 bytes, aligned and in range, that keeps the conditions, and the EQREL forms on a forest open in
the context, with aligned ends in range and, for ROOT and DENSE, no source, complete with their
command issued, on CP or on EQ, and its completion word and barrier as for a copy. An operand,
descriptor or forest that fails a check traps, when no run executes, with the first that fails,
whether or not there is room (log 38, the model's reading); TVAL is the failing word with its SPACE
(log 24). For EQREL the checks and their order are: the destination's space, the source word (none
for ROOT and DENSE, a location else), the reserved bits, the element type, the handle where an end
lies in main memory, the alignment of the ends, the open forest, the two ranges, and the .const
range; which word of a row comes first is the model's (log 108). Where the checks pass and the path
has no room, or for LXFER the copy unit holds 32 commands, the instruction waits with nothing
changed. (R181, R182, R185, R244, R246, R247, R117, R170, 10_level_transfers.md) -/
def Obligations.TransfersAndRelabelsIssue : Prop :=
  ∀ (s : State) (c : Ctx) (a : Nat) (add : Bool), State.ctx? s = some c →
    let W := c.warp
    let r (k : Nat) : Nat := (Warp.s W (a + k)).toNat
    let dw := r 0
    let sw := r 1
    let xw := r 2
    let cw := r 3
    (∀ i kind, (i, kind) ∈ [(Instr.lxferRestrict a add, 0), (.lxferProlong a add, 1),
        (.lxferInject a add, 2)] →
      let fails (cause x : Nat) : Prop := traps (exec i s) s c cause (dword x)
      (Ctx.mayTrap c → 2 < bits dw 31 28 → fails (4 * 64) dw) ∧
      (Ctx.mayTrap c → bits dw 31 28 ≤ 2 → 2 < bits sw 31 28 → fails (4 * 64) sw) ∧
      (bits dw 31 28 ≤ 2 → bits sw 31 28 ≤ 2 →
        (Ctx.mayTrap c → 1 < bits xw 31 28 → fails (4 * 64) xw) ∧
        ∀ sp, (bits xw 31 28 = 0 ∧ sp = Space.shared ∨ bits xw 31 28 = 1 ∧ sp = .scratch) →
        (Ctx.mayTrap c → bits cw 4 0 ≠ 0 → fails (4 * 64) cw) ∧
        (Ctx.mayTrap c → bits cw 4 0 = 0 → xw % 64 ≠ 0 → fails (3 * 64 + 5) xw) ∧
        (bits cw 4 0 = 0 → xw % 64 = 0 →
          let x := bits xw 27 0
          (∀ cause, Ctx.mayTrap c → State.chipRange s W sp x 64 = some cause → fails cause xw) ∧
          (State.chipRange s W sp x 64 = none → State.localPending s W sp x 64 W.nextReq = false →
            W.mtouch = [] → State.badPlace s c.w (State.placeOf s W sp x) 64 = false →
            let desc := State.readPlace s c.w (State.placeOf s W sp x) 64
            (∀ l, State.checkLevel s W kind add dw sw xw desc = .ok l →
              issuesCopy (exec i s) s c .cp (.level l) (8 + kind) cw ∧
              l.kind = kind ∧ l.add = add ∧ l.pos = 0 ∧ l.held = none ∧
              (kind = 1 → l.dg.fmt = bits desc 5 4 ∧ l.dg.nx = bits desc 223 192 ∧
                l.dg.ny = bits desc 255 224 ∧ l.dg.nz = bits desc 287 256 ∧ l.sg.fmt = bits desc 7 6 ∧
                l.sg.nx = bits desc 319 288 ∧ l.sg.ny = bits desc 351 320 ∧ l.sg.nz = bits desc 383 352) ∧
              (kind ≠ 1 → l.sg.fmt = bits desc 5 4 ∧ l.sg.nx = bits desc 223 192 ∧
                l.sg.ny = bits desc 255 224 ∧ l.sg.nz = bits desc 287 256 ∧ l.dg.fmt = bits desc 7 6 ∧
                l.dg.nx = bits desc 319 288 ∧ l.dg.ny = bits desc 351 320 ∧ l.dg.nz = bits desc 383 352)) ∧
            (∀ cause tval, Ctx.mayTrap c →
              State.checkLevel s W kind add dw sw xw desc = .error (cause, tval) → fails cause tval))))) ∧
    (∀ i fn, (i, fn) ∈ [(Instr.eqrelRoot a, 0), (.eqrelDense a, 1), (.eqrelSum a, 2),
        (.eqrelMin a, 3), (.eqrelMax a, 4)] →
      let fails (cause x : Nat) : Prop := traps (exec i s) s c cause (dword x)
      let h := State.handle? s W (bits xw 23 18)
      let base := h.elim 0 (·.base)
      let es := if fn < 2 ∨ bits xw 26 24 < 3 then 4 else 8
      let e := if fn < 2 then End.main 0 else endOf base sw
      let spaces : Prop := bits dw 31 28 ≤ 2 ∧ (if fn < 2 then sw = 0xF0000000 else bits sw 31 28 ≤ 2)
      let type : Prop := if fn < 2 then bits xw 26 24 = 0 else bits xw 26 24 ≤ 5
      let bound : Prop := (bits dw 31 28 = 2 → h ≠ none) ∧ (2 ≤ fn → bits sw 31 28 = 2 → h ≠ none)
      let even : Prop := bits dw 27 0 % es = 0 ∧ (2 ≤ fn → bits sw 27 0 % es = 0)
      (Ctx.mayTrap c →
        (2 < bits dw 31 28 → fails (4 * 64) dw) ∧
        (bits dw 31 28 ≤ 2 → ¬ spaces → fails (4 * 64) sw) ∧
        (spaces → bits xw 17 0 ≠ 0 → fails (4 * 64) xw) ∧
        (spaces → bits xw 17 0 = 0 →
          (¬ type → fails (6 * 64 + 1) xw) ∧
          (type → bits dw 31 28 = 2 → h = none → fails (4 * 64 + 1) dw) ∧
          (type → bits dw 31 28 ≠ 2 → 2 ≤ fn → bits sw 31 28 = 2 → h = none → fails (4 * 64 + 1) sw) ∧
          (type → bound → bits dw 27 0 % es ≠ 0 → fails (4 * 64 + 3) dw) ∧
          (type → bound → bits dw 27 0 % es = 0 → ¬ even → fails (4 * 64 + 3) sw) ∧
          (type → bound → even →
            (∀ F, AMap.get? s.forests (bits xw 31 27) = some F → F.ctx ≠ State.asidOf s W) →
            fails (6 * 64) xw))) ∧
      (spaces → bits xw 17 0 = 0 → type → bound → even →
          ∀ F, AMap.get? s.forests (bits xw 31 27) = some F → F.ctx = State.asidOf s W →
            let n := F.n * es
            let dst := State.endRange s W (endOf base dw) n
            let src := State.endRange s W e n
            let const := State.endConst s W (endOf base dw) n
            (Ctx.mayTrap c →
              (∀ cause, F.n ≠ 0 → dst = some cause → fails cause dw) ∧
              (∀ cause, F.n ≠ 0 → dst = none → src = some cause → fails cause sw) ∧
              (dst = none → src = none → const = true → fails (3 * 64 + 2) dw)) ∧
            (dst = none → src = none → const = false → issuesCopy (exec i s) s c .eq (.eqrel
              { fn := fn, et := bits xw 26 24, forest := bits xw 31 27, serial := F.serial,
                dst := endOf base dw, src := e, roots := none, classes := [], pos := 0, acc := [],
                done := [], bytes := 0 }) (11 + fn) cw)))

/-- The copy unit writes a granule from its source, a point from its taps, and a completion record. For
the only request of a resident warp without uncovered matrix operations, a running command that
nothing blocks, with ends that lie on chip or that the TLB maps with the rights needed, and whose
source and destination do not overlap, so that nothing is read ahead of its granule. A granule or a
point is the command's turn where the core's copy unit has not advanced it in its round, or has
advanced every other command of the core that nothing holds back (R168's round-robin as the model
takes it, log 92); the command is then advanced in the round, or begins the next. COPY_GRANULE, in
its turn: every unit still to be written in the granule reads as its source did (0 where a tile's
source is outside the tensor), no byte outside those units changes, and the granule counts as
written. LXFER_POINT, in its turn: the next destination point receives the rounded sum of its taps
in table order, each a fused multiply-add rounded to f64, from minus zero or with .add from the
destination's value; nothing else changes; with .add the sum is formed in one step and written in
the next, so that another agent may write between them. COPY_COMPLETE, for a finished or failed
command: its slot receives the 60 bytes of the record and no other byte changes; with BAR, whose
object is not dropped and does not complete its phase, the object is on chip elsewhere and counts
one arrival and one copy less; the request retires. (R164, R168, R171, R172, R173, R174, R184, R190,
R226, 09_copies.md) -/
def Obligations.CopyUnitMoves : Prop :=
  ∀ (s : State) (w : Nat) (W : Warp) (r : Req) (k : CopyCmd), s.warps[w]? = some W → W.reqs = [r] →
    r.done = false → r.path = .cp → r.op = .copy k → State.resident s W = true → W.mtouch = [] →
    (∀ ts, State.cpBlocked s w W r.id ts = false) →
    let sound (n : Nat) (p : Where) : Prop :=
      (∀ pa, p = .main pa → State.inForest s pa n = false) ∧ ∀ q, p = .chip q → State.badPlace s w q n = false
    let reads (e : End) (n : Nat) (p : Where) : Prop := State.lies s W e false = some p ∧
      State.badGranule s w p = false ∧ sound n p
    let writes (e : End) (n : Nat) (p : Where) : Prop := State.lies s W e true = some p ∧ Where.present p s w ∧
      ∀ pa, p = .main pa → State.inForest s pa n = false
    let leaves (t : State) (k : CopyCmd) : Prop := ∃ V, t.warps[w]? = some V ∧
      V = { W with spill := V.spill, reqs := [{ r with op := .copy k }] }
    let core := State.coreOf s W
    let advanced (t : State) : AMap (List (Nat × Nat)) := (State.advanced t core w r.id).copyRounds
    let turn : Prop := (w, r.id) ∉ State.copyRound s core ∨
      ∀ v V q j, s.warps[v]? = some V → State.resident s V = true → State.coreOf s V = core → q ∈ V.reqs →
        (v, q.id) ≠ (w, r.id) → q.done = false → q.path = .cp → Req.command? q = some j →
        (v, q.id) ∈ State.copyRound s core ∨ CopyCmd.able s v V q.id j = false
    (k.stop = .running → turn → ∀ p g, k.work = .piece p → p.saved = [] → Piece.ahead s W p g = [] →
      let n := Piece.unitBytes p
      let due (u : Nat) (d : End) (e : Option End) : Prop := u < Piece.total p ∧
        Piece.remaining p u = some g ∧ Piece.unit p u = some (d, e)
      (∃ u d e, due u d e) → ∀ f h : Nat → Where,
      (∀ u d e, due u d e → writes d n (f u) ∧ ∀ x, e = some x → reads x n (h u)) →
      (p.tile = none → ∀ u d e, due u d e → State.rangeMeets s W p.src p.size (f u) n = false) →
      (∀ u v d e d' e', due u d e → due v d' e' → u ≠ v → Where.meets (f u) n (f v) n = false) →
      ∃ t, exec (.copyGranule w r.id g) s = .next t ∧
        leaves t { k with work := .piece { p with done := p.done ++ [g] } } ∧
        t = { s with tlb := t.tlb, events := t.events, warps := t.warps, teams := t.teams,
                     grids := t.grids, main := t.main, copyRounds := advanced s } ∧
        (∀ u d e, due u d e → State.readWhere t w (f u) n =
          match e with
          | some _ => State.readWhere s w (h u) n
          | none => 0) ∧
        ∀ l, (∀ u d e, due u d e → ¬ Where.covers (f u) w n l) → State.byteAt t l = State.byteAt s l) ∧
    (k.stop = .running → turn → ∀ (l : Level) (p : Where), k.work = .level l → l.pos < Grid3.count l.dg →
      let es := gridEs l.dg.fmt
      let span := Grid3.at_ l.sg (l.sg.nx - 1) (l.sg.ny - 1) (l.sg.nz - 1) + gridEs l.sg.fmt
      let puts (v : Nat) : Prop := writes (Level.dstAt l l.pos) es p → State.rangeMeets s W l.src span p es = false →
        ∃ t, exec (.lxferPoint w r.id) s = .next t ∧
          leaves t { k with work := .level { l with pos := l.pos + 1, held := none } } ∧
          t = { s with tlb := t.tlb, warps := t.warps, teams := t.teams, grids := t.grids, main := t.main,
                       copyRounds := advanced s } ∧
          State.readWhere t w p es = v % 256 ^ es ∧
          ∀ b, ¬ Where.covers p w es b → State.byteAt t b = State.byteAt s b
      (∀ v, l.held = some v → puts v) ∧
      ∀ hs : List Where, l.held = none →
        let taps := Level.taps l l.pos
        hs.length = taps.length →
        (l.add = true → reads (Level.dstAt l l.pos) es p) →
        (∀ (j : Nat) (x : End × Word) (q : Where), taps[j]? = some x → hs[j]? = some q →
          reads x.1 (gridEs l.sg.fmt) q) →
        let first := if l.add then decodeF (gridFmt l.dg.fmt) (State.readWhere s w p es) else Ext.zero true
        let v := encodeF (gridFmt l.dg.fmt) (roundF (gridFmt l.dg.fmt) .rne ((hs.zip taps).foldl (fun acc x =>
          roundF Fmt.f64 .rne (Ext.fma .rne
            (decodeF (gridFmt l.sg.fmt) (State.readWhere s w x.1 (gridEs l.sg.fmt)))
            (decodeF Fmt.f32 x.2.2.toNat) acc)) first))
        (l.add = false → puts v) ∧
        (l.add = true → ∃ t, exec (.lxferPoint w r.id) s = .next t ∧ sameBytes s t ∧
          leaves t { k with work := .level { l with held := some v } } ∧
          t = { s with tlb := t.tlb, warps := t.warps, copyRounds := advanced s })) ∧
    (∀ status cause faddr, (k.stop = .running ∧ CopyWork.finished k.work = true ∧
          (status, cause, faddr) = (1, 0, 0)) ∨ k.stop = .failed status cause faddr →
      let record (status : Nat) : Nat := (status + k.mode * 2 ^ 8 + CopyWork.bytes k.work % 2 ^ 32 * 2 ^ 32 +
        cause * 2 ^ 64 + CopyWork.records k.work * 2 ^ 112 + faddr * 2 ^ 192) % 2 ^ 480
      let gone (t : State) : Prop := ∃ V, t.warps[w]? = some V ∧ V = { W with spill := V.spill, reqs := [] }
      (k.bar = none → k.slot = none →
        ∃ t, exec (.copyComplete w r.id) s = .next t ∧ sameBytes s t ∧ gone t) ∧
      (∀ sp off, k.slot = some (sp, off) →
        let p := State.placeOf s W sp off
        Place.present p s w →
        (k.bar = none → ∃ t, exec (.copyComplete w r.id) s = .next t ∧ gone t ∧
          State.readPlace t w p 60 = record status ∧ sameBytesBut s t w p 60) ∧
        (∀ x tm o len, k.bar = some x → sp = .scratch → State.sharedAt s W x = some (tm, o, len) →
          tm < s.teams.length → State.badPlace s w (.team tm o) 8 = false →
          let b := State.bar s tm o
          b.inv = false → b.arrived + 1 < b.count →
          ∃ t, exec (.copyComplete w r.id) s = .next t ∧ gone t ∧
            State.readPlace t w p 60 = record status ∧
            State.bar t tm o = { b with arrived := b.arrived + 1, pend := b.pend - 1 } ∧
            ∀ l, ¬ Place.covers p w 60 l → ¬ Place.covers (.team tm o) w 8 l →
              State.byteAt t l = State.byteAt s l) ∧
        (∀ x tm o len, k.bar = some x → sp = .scratch → State.sharedAt s W x = some (tm, o, len) →
          tm < s.teams.length → State.badPlace s w (.team tm o) 8 = false →
          let b := State.bar s tm o
          b.inv = true ∨ b.count = 0 →
          ∃ t, exec (.copyComplete w r.id) s = .next t ∧ gone t ∧
            State.readPlace t w p 60 = record (if status = 1 then 2 else status) ∧
            State.bar t tm o = { b with pend := b.pend - 1 })))

/-- An EQREL takes every element's root at its place in the linear order, combines each class's elements
in order, and writes its destination. For the only request of a resident warp without uncovered
matrix operations, an EQREL that has not failed and that nothing blocks. EQREL_RUN, when no packet
for its forest has been passed over too often, first takes the roots of a forest open in its context
whose entries are correctable: it holds for each element the root that the element reaches, and as
classes the elements that are their own roots, ascending. For SUM, MIN and MAX it then reads the
next source element and makes it the value of its class, or combines it with that: the sum modulo
2^w, or the smaller or larger by the type's signedness; for a float type the sum rounded to nearest
even, or what FMIN and FMAX choose. With its source read, and its ranges apart, it writes, in the
granule named, every element still to be written there with its value (the root, the number of the
root's class, or the class's value) and no other byte. With everything written it completes, and its
slot receives the 60 bytes of the record. (R245, R247, R231, 13_equivalence.md) -/
def Obligations.RelabelsRun : Prop :=
  ∀ (s : State) (w : Nat) (W : Warp) (r : Req) (k : CopyCmd) (e : EqRel), s.warps[w]? = some W →
    W.reqs = [r] → r.done = false → r.op = .copy k → k.work = .eqrel e → k.stop = .running →
    State.resident s W = true → W.mtouch = [] → (∀ ts, State.cpBlocked s w W r.id ts = false) →
    let real : Bool := e.et = 0 || e.et = 3
    let F := if e.et = 0 then Fmt.f32 else Fmt.f64
    let w' := if e.et < 3 then 32 else 64
    let I (x : Nat) : Int := if e.et = 1 ∨ e.et = 4 then (BitVec.ofNat w' x).toInt else (x % 2 ^ w' : Nat)
    let comb (x y : Nat) : Nat :=
      match e.fn with
      | 2 => if real then encodeF F (roundF F .rne (Ext.add .rne (decodeF F x) (decodeF F y))) else (x + y) % 2 ^ w'
      | 3 => if real then minMaxF F false x y else if I y < I x then y else x
      | _ => if real then minMaxF F true x y else if I x < I y then y else x
    let es := if e.fn < 2 ∨ e.et < 3 then 4 else 8
    let leaves (t : State) (e : EqRel) : Prop := ∃ V, t.warps[w]? = some V ∧
      V = { W with spill := V.spill, reqs := [{ r with op := .copy { k with work := .eqrel e } }] }
    (∀ F, e.roots = none → AMap.get? s.forests e.forest = some F → F.ctx = State.asidOf s W →
      F.serial = e.serial → State.opening s w r.id e.forest = false →
      State.forestTurn s e.forest (fun _ => true) = true →
      (∀ x, x < F.n → State.entryBad s F x = false ∧ (State.entry s F x).1 < F.n ∧
        ∃ j q, j ≤ F.n ∧ State.reaches s F j x q) →
      ∃ t roots, ∀ g, exec (.eqrelRun w r.id g) s = .next t ∧ sameBytes s t ∧
        leaves t { e with roots := some roots,
                          classes := (List.range F.n).filter fun x => roots[x]? = some x } ∧
        roots.length = F.n ∧ ∀ x j q, x < F.n → State.reaches s F j x q → roots[x]? = some q) ∧
    (∀ roots, e.roots = some roots →
      (2 ≤ e.fn → e.fn ≤ 4 → e.et ≤ 5 → e.pos < roots.length → ∀ p root n, roots[e.pos]? = some root →
        e.classes.findIdx? (· = root) = some n →
        State.lies s W (End.add e.src (e.pos * es)) false = some p → State.badGranule s w p = false →
        (∀ pa, p = .main pa → State.inForest s pa es = false) →
        (∀ q, p = .chip q → State.badPlace s w q es = false) →
        let v := State.readWhere s w p es
        ∃ t acc, ∀ g, exec (.eqrelRun w r.id g) s = .next t ∧ sameBytes s t ∧
          leaves t { e with pos := e.pos + 1, acc := acc } ∧
          AMap.get? acc n = some (match AMap.get? e.acc n with
            | none => v
            | some x => comb x v) ∧
          ∀ m, m ≠ n → AMap.get? acc m = AMap.get? e.acc m) ∧
      (e.fn < 2 ∨ e.pos = roots.length → ∀ g,
        let count := if e.fn < 2 then roots.length else e.classes.length
        let due (i : Nat) : Prop := i < count ∧ (End.addr e.dst + i * es) / 32 = g
        ∀ (f : Nat → Where) (val : Nat → Nat), g ∉ e.done → (∃ i, due i) →
        (∀ i, due i → State.lies s W (End.add e.dst (i * es)) true = some (f i) ∧
          Where.present (f i) s w ∧
          (2 ≤ e.fn → e.et ≤ 5 ∧ State.rangeMeets s W e.src (roots.length * es) (f i) es = false) ∧
          (e.fn = 0 → roots[i]? = some (val i)) ∧
          (e.fn = 1 → ∃ q, roots[i]? = some q ∧ e.classes.findIdx? (· = q) = some (val i)) ∧
          (2 ≤ e.fn → ∃ v, AMap.get? e.acc i = some v ∧ val i =
            if real then encodeF F (decodeF F v) else v)) →
        (∀ i j, due i → due j → i ≠ j → Where.meets (f i) es (f j) es = false) →
        let n := ((List.range count).filter fun i => (End.addr e.dst + i * es) / 32 = g).length
        ∃ t, exec (.eqrelRun w r.id g) s = .next t ∧
          leaves t { e with done := e.done ++ [g], bytes := e.bytes + n * es } ∧
          (∀ i, due i → State.readWhere t w (f i) es = val i % 256 ^ es) ∧
          ∀ l, (∀ i, due i → ¬ Where.covers (f i) w es l) → State.byteAt t l = State.byteAt s l) ∧
      (e.fn < 2 ∨ e.pos = roots.length →
        (∀ i, i < (if e.fn < 2 then roots.length else e.classes.length) →
          (End.addr e.dst + i * es) / 32 ∈ e.done) → k.bar = none → ∀ sp off g, k.slot = some (sp, off) →
        let p := State.placeOf s W sp off
        Place.present p s w →
        ∃ t V, exec (.eqrelRun w r.id g) s = .next t ∧ sameBytesBut s t w p 60 ∧
          State.readPlace t w p 60 =
            (1 + k.mode * 2 ^ 8 + e.bytes % 2 ^ 32 * 2 ^ 32) % 2 ^ 480 ∧
          t.warps[w]? = some V ∧ V = { W with spill := V.spill, reqs := [] }))

/-- THBIND, STBIND and SCOPESET read their record, CQPUT and CQGET move words through the stage queue in
order, and CPYW reads a slot that has its status. For a warp with no request outstanding and no
uncovered matrix operation, correctable bytes and records inside the grid's scratchpad allocation.
THBIND of a record whose fields keep R162, whose pointer names a base of eight bytes inside the
argument block, binds the handle to it and answers 0; a base of 2^57 or more answers 4, one that is
no multiple of 32 answers 2, a bad pointer 3, a bad record 1, and each of these unbinds the handle.
STBIND answers 1 for a header that breaks R186 (its kind, dimensions, reserved bits or counts), else
2 for a tap with an offset outside -1 to 1 or beyond the dimensions or a reserved bit set, else 3
for taps of a class that do not strictly rise in (DZ, DY, DX), and unbinds the slot, else binds the
table's taps by class and answers 0. SCOPESET answers 1 for an empty bitmap and else sets the scope
and answers 0. CQPUT appends S[a] while fewer than 16 words stand in the queue and else waits; CQGET
takes the first word and waits without one; a wait with which every warp of the team waits on the
queue alike, in a fragment and in every other that is not at its join, also reports the stalled
team, once until the queue changes (log 93, the model's choice). CPYW answers the slot's first word
once its status is not 0, and waits before. A misaligned record traps with ALIGN and one outside the
allocation with SCBOUND, when no run executes. (R162, R165, R175, R176, R186, R187, R213, R214,
09_copies.md) -/
def Obligations.HandlesTablesAndStages : Prop :=
  ∀ (s : State) (c : Ctx) (d h b a : Nat) (off : Int) (T : Team) (G : Grid), State.ctx? s = some c →
    s.teams[c.warp.team]? = some T → s.grids[T.grid]? = some G → c.warp.reqs = [] → c.warp.mtouch = [] →
    let W := c.warp
    let x := (Warp.s W b).toNat
    let at_ (y : Nat) : Place := .scratch T.grid (dieOf T.core) y
    let good (y n : Nat) : Prop := State.badPlace s c.w (at_ y) n = false
    let team (U : Team) : State := { s with teams := s.teams.set W.team U }
    let on (k : Wait) (w i : Nat) (f : Frag) : Prop := (w = c.w ∧ i = c.slot) ∨ f.wait = k
    let last (k : Wait) : Prop := ∀ w V, w ∈ T.warps → s.warps[w]? = some V → V.ended = true ∨
      (∃ i f, i < 32 ∧ Warp.frag? V i = some f ∧ on k w i f) ∧
      ∀ i f, i < 32 → Warp.frag? V i = some f → on k w i f ∨ f.wait = .atJoin
    let stalls (i : Instr) (k : Wait) : Prop := c.w ∈ T.warps → W.ended = false → c.slot < 32 →
      (¬ last k ∨ T.told = true → waits (exec i s) s c k) ∧
      (last k → T.told = false → waits (exec i s)
        { team { T with told := true } with reports := s.reports ++ [⟨.stalledTeam, [W.team]⟩] } c k)
    (x % 64 = 0 → x + 64 ≤ G.scrLen → good x 64 →
      let r := State.readPlace s c.w (at_ x) 64
      let es := 2 ^ bits r 35 32
      let tx := bits r 175 160
      let ty := bits r 191 176
      let tz := bits r 207 192
      let bx := bits r 215 208
      let by_ := bits r 223 216
      let keeps : Prop := bits r 511 448 = 0 ∧ bits r 319 224 = 0 ∧ bits r 63 48 = 0 ∧
        bits r 35 32 ≤ 3 ∧ bits r 39 36 ≤ 2 ∧ bits r 43 40 ≤ 1 ∧ bits r 47 44 ≤ 3 ∧
        (∀ e, e ∈ [bits r 95 64, bits r 127 96, bits r 159 128] → 1 ≤ e ∧ e ≤ 2 ^ 31) ∧
        (∀ e, e ∈ [tx, ty, tz, bx, by_] → 1 ≤ e) ∧ tx % bx = 0 ∧ ty % by_ = 0 ∧ tx * es % 32 = 0 ∧
        (∀ e, e ∈ [bits r 383 320, bits r 447 384] → e % 32 = 0 ∧ e < 2 ^ 57) ∧ tx * ty * tz * es ≤ 2 ^ 24 ∧
        (bits r 95 64 + tx - 1) / tx * ((bits r 127 96 + ty - 1) / ty) * ((bits r 159 128 + tz - 1) / tz) ≤ 2 ^ 28 ∧
        (bits r 39 36 = 2 → ∃ k, tx / bx = 2 ^ k ∧ ty / by_ = 2 ^ k)
      let ptr := bits r 31 0
      let bind (base : Nat) : TileBind :=
        { base := base, esz := bits r 35 32, outer := bits r 39 36, inner := bits r 43 40,
          swz := bits r 47 44, ex := bits r 95 64, ey := bits r 127 96, ez := bits r 159 128,
          tx := tx, ty := ty, tz := tz, bx := bx, byy := by_, sy := bits r 383 320, sz := bits r 447 384 }
      let ends (st : Nat) (base : Nat) : Prop := yields (exec (.thbind d h b) s)
        (team { T with handles := if st = 0 then AMap.set T.handles h (bind base)
                                  else AMap.erase T.handles h }) c 1 d (word st)
      (¬ keeps → ends 1 0) ∧
      (keeps → (ptr % 8 ≠ 0 ∨ G.argLen < ptr + 8 → ends 3 0) ∧
        (ptr % 8 = 0 → ptr + 8 ≤ G.argLen → good (G.argOff + ptr) 8 →
          let base := State.readPlace s c.w (at_ (G.argOff + ptr)) 8
          (2 ^ 57 ≤ base → ends 4 0) ∧ (base < 2 ^ 57 → base % 32 ≠ 0 → ends 2 0) ∧
          (base < 2 ^ 57 → base % 32 = 0 → ends 0 base)))) ∧
    (x % 16 = 0 → x + 16 ≤ G.scrLen → good x 16 →
      let head := State.readPlace s c.w (at_ x) 16
      let count (k : Nat) : Nat := bits head (71 + 8 * k) (64 + 8 * k)
      let first (k : Nat) : Nat := ((List.range k).map count).sum
      let n := first 8
      (Ctx.mayTrap c → G.scrLen < x + 16 + 8 * n → traps (exec (.stbind d h b) s) s c (3 * 64 + 1) (dword x)) ∧
      (x + 16 + 8 * n ≤ G.scrLen → good (x + 16) (8 * n) →
      let kind := bits head 7 0
      let dims := bits head 15 8
      let tap (j : Nat) : Nat := State.readPlace s c.w (at_ (x + 16)) (8 * n) / 2 ^ (64 * j) % 2 ^ 64
      let byte (y hi : Nat) : Int := (BitVec.ofNat 8 (bits y hi (hi - 7))).toInt
      let headed : Prop := kind ≤ 1 ∧ 1 ≤ dims ∧ dims ≤ 3 ∧ bits head 63 16 = 0 ∧
        ∀ k, k < 8 → count k ≤ if k < (if kind = 0 then 1 else 2 ^ dims) then 27 else 0
      let tapped : Prop := ∀ j, j < n → bits (tap j) 31 24 = 0 ∧
        (∀ hi, hi ∈ [7, 15, 23] → -1 ≤ byte (tap j) hi ∧ byte (tap j) hi ≤ 1) ∧
        (dims < 2 → byte (tap j) 15 = 0) ∧ (dims < 3 → byte (tap j) 23 = 0)
      let rises (y z : Nat) : Prop := byte y 23 < byte z 23 ∨ byte y 23 = byte z 23 ∧
        (byte y 15 < byte z 15 ∨ byte y 15 = byte z 15 ∧ byte y 7 < byte z 7)
      let sorted : Prop := ∀ k i, k < 8 → i + 1 < count k → rises (tap (first k + i)) (tap (first k + i + 1))
      let off (st : Nat) : Prop := yields (exec (.stbind d h b) s)
        (team { T with stencils := AMap.erase T.stencils h }) c 1 d (word st)
      (¬ headed → off 1) ∧ (headed → ¬ tapped → off 2) ∧ (headed → tapped → ¬ sorted → off 3) ∧
      (headed → tapped → sorted → ∃ U : Stencil, U.prolong = decide (kind = 1) ∧ U.dims = dims ∧ U.taps.length = 8 ∧
        (∀ k l, k < 8 → U.taps[k]? = some l → l.length = count k ∧ ∀ i, i < count k → l[i]? = some
          { dz := byte (tap (first k + i)) 23, dy := byte (tap (first k + i)) 15,
            dx := byte (tap (first k + i)) 7, w := word (bits (tap (first k + i)) 63 32) }) ∧
        yields (exec (.stbind d h b) s) (team { T with stencils := AMap.set T.stencils h U }) c 1 d 0))) ∧
    (x % 16 = 0 → x + 80 ≤ G.scrLen → good x 80 →
      let m := State.readPlace s c.w (at_ x) 80
      (m = 0 → yields (exec (.scopeset d h b) s) s c 1 d 1) ∧
      (m ≠ 0 → yields (exec (.scopeset d h b) s)
        { s with scopes := AMap.set s.scopes (32 * G.asid + h) m } c 1 d 0)) ∧
    (Ctx.mayTrap c → x % 64 ≠ 0 → traps (exec (.thbind d h b) s) s c (3 * 64 + 5) (dword x)) ∧
    (Ctx.mayTrap c → x % 16 ≠ 0 → traps (exec (.stbind d h b) s) s c (3 * 64 + 5) (dword x) ∧
      traps (exec (.scopeset d h b) s) s c (3 * 64 + 5) (dword x)) ∧
    (∀ i n, (i, n) ∈ [(Instr.thbind d h b, 64), (.stbind d h b, 16), (.scopeset d h b, 80)] → Ctx.mayTrap c →
      x % (if n = 64 then 64 else 16) = 0 → G.scrLen < x + n → traps (exec i s) s c (3 * 64 + 1) (dword x)) ∧
    (T.stage.length < 16 → passes (exec (.cqput a) s)
      (team { T with stage := T.stage ++ [Warp.s W a], told := false }) c 1) ∧
    (16 ≤ T.stage.length → stalls (.cqput a) .stagePut) ∧ (T.stage = [] → stalls (.cqget d) .stageGet) ∧
    (∀ v rest, T.stage = v :: rest → yields (exec (.cqget d) s) (team { T with stage := rest, told := false }) c 1 d v) ∧
    (let y := (Warp.s W a + BitVec.ofInt 32 (64 * off)).toNat
      ∀ sp, (bits y 31 28 = 0 ∧ sp = Space.shared ∨ bits y 31 28 = 1 ∧ sp = .scratch) → y % 64 = 0 →
      State.chipRange s W sp (bits y 27 0) 64 = none →
      let p := State.placeOf s W sp (bits y 27 0)
      State.badPlace s c.w p 4 = false →
      let v := State.readPlace s c.w p 4
      (v % 256 ≠ 0 → yields (exec (.cpyw d a off) s) s c 1 d (word v)) ∧
      (v % 256 = 0 → waits (exec (.cpyw d a off) s) s c (.cpyw d sp (bits y 27 0))))

/-- The BAR instructions answer their statuses, count arrivals, complete phases and put waiters to
sleep. On an object of eight aligned, correctable bytes inside its allocation. INIT sets the count
of an idle object, answers 7 for a count outside 1 to 16383 and 1 for a busy object. ARR and ARRWAIT
answer 6 without a count and 2 when invalidated; ARR answers 5 without a free record; otherwise they
count one arrival, and an arrival that reaches the count begins the next phase with no arrivals or
waiters and wakes every sleeper with status 0. ARR leaves a record of its phase; ARRWAIT sleeps
unless it completed the phase. TEST and WAIT answer 4 without a record, else 2 when invalidated and
0 once the phase has passed, freeing the record; in the record's phase TEST answers 3 and WAIT
sleeps, counting its warp among the waiters. INV marks the object and wakes every sleeper with 2.
(R222, R223, R224, R227, 12_synchronisation.md) -/
def Obligations.BarrierInstructions : Prop :=
  ∀ (s : State) (c : Ctx) (d a b t off len : Nat), State.ctx? s = some c →
    let W := c.warp
    let x := (Warp.s W a).toNat
    let n := (Warp.s W b).toNat
    x % 8 = 0 → State.sharedAt s W x = some (t, off, len) → off + 8 ≤ len → t < s.teams.length →
    State.badPlace s c.w (.team t off) 8 = false → Warp.sleepsOn W t off = false → c.frag.marks = [] →
    W.mtouch = [] →
    let o := State.bar s t off
    let st (k phase : Nat) : Word := word (k + phase * 256)
    let keeps (i : Instr) (k phase : Nat) : Prop := yields (exec i s) s c 1 d (st k phase)
    let sets (q : Bar) : State := State.setBar s t off q
    let wake (u : State) (k : Nat) : State := { u with warps := u.warps.map (Warp.wakeFrom t off k) }
    let arrived := sets { o with arrived := o.arrived + 1 }
    let full := sets { o with arrived := 0, phase := (o.phase + 1) % 1024, waiters := 0 }
    let freed : Warp := { W with arrivals := W.arrivals.filter fun r => !(r.team = t && r.off = off) }
    let woken (V : Warp) (k : Nat) (i : Instr) (q : Bar) (v : Word) : Prop :=
      yields (exec i s) (wake (State.setWarp (sets q) c.w V) k)
        { c with warp := Warp.wakeFrom t off k V } 1 d v
    let busy := o.waiters ≠ 0 ∨ o.pend ≠ 0 ∨ o.arrived ≠ 0
    (busy → keeps (.barInit d a b) 1 o.phase) ∧
    (¬ busy → n = 0 ∨ 16383 < n → keeps (.barInit d a b) 7 o.phase) ∧
    (¬ busy → 1 ≤ n → n ≤ 16383 → yields (exec (.barInit d a b) s)
      (sets { o with count := n, inv := false }) c 1 d (st 0 o.phase)) ∧
    (o.count = 0 → keeps (.barArr d a) 6 o.phase ∧ keeps (.barArrwait d a) 6 o.phase ∧
      keeps (.barInv d a) 6 o.phase) ∧
    (o.count ≠ 0 → o.inv = true → keeps (.barArr d a) 2 o.phase ∧ keeps (.barArrwait d a) 2 o.phase) ∧
    (o.count ≠ 0 → o.inv = false →
      let V : Warp := { freed with arrivals := freed.arrivals ++ [⟨t, off, o.phase⟩] }
      (Warp.arrival? W t off = none → 8 ≤ W.arrivals.length → keeps (.barArr d a) 5 o.phase) ∧
      (Warp.arrival? W t off ≠ none ∨ W.arrivals.length < 8 →
        (o.arrived + 1 ≠ o.count → yields (exec (.barArr d a) s) (State.setWarp arrived c.w V)
          { c with warp := V } 1 d (st 0 o.phase)) ∧
        (o.arrived + 1 = o.count → yields (exec (.barArr d a) s) (wake (State.setWarp full c.w V) 0)
          { c with warp := Warp.wakeFrom t off 0 V } 1 d (st 0 o.phase))) ∧
      (o.arrived + 1 = o.count → yields (exec (.barArrwait d a) s) (wake full 0)
          { c with warp := Warp.wakeFrom t off 0 W } 1 d (st 0 o.phase)) ∧
      (o.arrived + 1 < o.count → waits (exec (.barArrwait d a) s)
        (State.setBar arrived t off { o with arrived := o.arrived + 1, waiters := o.waiters + 1 }) c
        (.barrier d t off o.phase true))) ∧
    (Warp.arrival? W t off = none → keeps (.barTest d a) 4 o.phase ∧ keeps (.barWait d a) 4 o.phase) ∧
    (∀ r, Warp.arrival? W t off = some r →
      let gone (i : Instr) (k : Nat) : Prop :=
        yields (exec i s) (State.setWarp s c.w freed) { c with warp := freed } 1 d (st k r.phase)
      (o.inv = true → gone (.barTest d a) 2 ∧ gone (.barWait d a) 2) ∧
      (o.inv = false → o.phase ≠ r.phase → gone (.barTest d a) 0 ∧ gone (.barWait d a) 0) ∧
      (o.inv = false → o.phase = r.phase → keeps (.barTest d a) 3 r.phase ∧
        waits (exec (.barWait d a) s) (sets { o with waiters := o.waiters + 1 }) c
          (.barrier d t off r.phase false))) ∧
    (o.count ≠ 0 → woken W 2 (.barInv d a) { o with inv := true, arrived := 0, waiters := 0 } (st 0 o.phase))

/-- FENCE completes when its runs have committed and its requests are performed; WAITV and MASKWAIT test
a word; TEMPC classifies a temperature. FENCE with no run queued, executing or discarded by a due
trap completes when every request on a path of its mask is performed, but those on FB to other
devices at a scope that names no peer that they reach, and, with FB in the mask, no fabric trap is
to be taken; a request on FB that has failed counts until it has retired, so that its trap comes
first; with such a request it waits for the requests issued before it, and with a run queued for the
runs before it, keeping the bitmap that it captured for its scope. For a warp without uncovered
matrix operations: WAITV at an aligned word in range answers the word when it meets the condition
and else waits. MASKWAIT at a tag equal to S[d] answers 0; with a timeout of 0 it answers 1;
otherwise it waits, and MASKWAIT_TIMEOUT then answers 0 or 1, where no later instruction has written
its register, while the warp is resident, no trap of it is due and no other fragment's handler runs
(log 36), and else does nothing. TEMPC writes mode 0 and the rounded reciprocal of a positive
temperature of at least 2^-14, mode 1 and infinity for a smaller one or zero, mode 2 and zero for
infinity, mode 3 and NaN otherwise. Misaligned words trap with ALIGN, when no run executes. (R218,
R219, R228, R270, R275, R368, 12_synchronisation.md) -/
def Obligations.FencesAndWordWaits : Prop :=
  ∀ (s : State) (c : Ctx) (d a b scope mask : Nat) (G : Grid), State.ctx? s = some c →
    State.gridOf? s c.warp = some G →
    let W := c.warp
    let x := (Warp.s W a).toNat
    let set := (AMap.get? s.scopes (32 * State.asidOf s W + scope)).getD (2 ^ 640 - 1)
    let far (r : Req) : Prop := r.path = .fb ∧ State.toSelf s r = false ∧
      (scope ≠ 5 ∨ ∀ p, p < 511 → Warp.reaches W r p = false)
    let nacked (r : Req) : Prop := r.path = .fb ∧ Req.failure r ≠ none
    (W.queue = [] → W.exec = none → W.laneTrap = none →
      ((∀ r, r ∈ W.reqs → (r.done = true ∧ ¬ nacked r) ∨ mask.testBit (Path.code r.path) = false ∨ far r) →
        (mask.testBit 4 = true → Warp.fabricTrap W = false) →
        passesOn (exec (.fence scope mask) s) s c 1 fun V => if mask.testBit 6 then Warp.mopf V else V) ∧
      (∀ r, r ∈ W.reqs → (r.done = false ∨ nacked r) → r.id < W.nextReq → mask.testBit (Path.code r.path) = true → ¬ far r →
        waits (exec (.fence scope mask) s) s c (.fence scope set mask W.nextRun (some W.nextReq)))) ∧
    (∀ e, e ∈ W.queue → e.seq < W.nextRun →
      waits (exec (.fence scope mask) s) s c (.fence scope set mask W.nextRun none)) ∧
    (W.mtouch = [] → ∀ i sp eq, (i, sp, eq) ∈ ([(.waitvEqSh d a b, .shared, true), (.waitvNeSh d a b, .shared, false),
        (.waitvEqSc d a b, .scratch, true), (.waitvNeSc d a b, .scratch, false)] : List (Instr × Space × Bool)) →
      (x % 4 = 0 → State.chipRange s W sp x 4 = none →
        let p := State.placeOf s W sp x
        State.badPlace s c.w p 4 = false →
        let y := word (State.readPlace s c.w p 4)
        (decide (y = Warp.s W b) = eq → yields (exec i s) s c 1 d y) ∧
        (decide (y = Warp.s W b) ≠ eq → waits (exec i s) s c (.waitv d sp x (Warp.s W b) eq))) ∧
      (Ctx.mayTrap c → x % 4 ≠ 0 → traps (exec i s) s c (3 * 64 + 5) (dword x))) ∧
    (W.mtouch = [] → x % 64 = 0 → x + 64 ≤ G.scrLen →
      let p := State.placeOf s W .scratch x
      State.badPlace s c.w p 4 = false →
      let y := word (State.readPlace s c.w p 4)
      (y = Warp.s W d → yields (exec (.maskwait d a b) s) s c 1 d 0) ∧
      (y ≠ Warp.s W d → Warp.s W b = 0 → yields (exec (.maskwait d a b) s) s c 1 d 1) ∧
      (y ≠ Warp.s W d → Warp.s W b ≠ 0 → waits (exec (.maskwait d a b) s) s c (.maskwait d x (Warp.s W d)))) ∧
    (Ctx.mayTrap c → x % 64 ≠ 0 → traps (exec (.maskwait d a b) s) s c (3 * 64 + 5) (dword x)) ∧
    (∀ y want, c.frag.wait = .maskwait d y want →
      let p := State.placeOf s W .scratch y
      (State.active s W = true → W.tlev ≤ c.frag.hlev → Warp.trapDue W = false → Ctx.owns c d → W.mtouch = [] → State.badPlace s c.w p 4 = false →
        yields (exec (.maskwaitTimeout c.w c.slot) s) s c 1 d
          (if word (State.readPlace s c.w p 4) = want then 0 else 1)) ∧
      ((State.active s W = false ∨ c.frag.hlev < W.tlev ∨ Warp.trapDue W = true) → exec (.maskwaitTimeout c.w c.slot) s = .next s)) ∧
    (∀ mode f, (match decodeF Fmt.f32 x with
        | .fin false n m => if n * 2 ^ 14 < m then (1, 0x7F800000)
            else (0, roundEnc Fmt.f32 .rne (.fin false m n))
        | .zero _ => (1, 0x7F800000)
        | .inf false => (2, 0)
        | .fin true _ _ => (3, 0x7FC00000)
        | .inf true => (3, 0x7FC00000)
        | .nan => (3, 0x7FC00000)) = (mode, f) →
      ∃ t V, exec (.tempc d a) s = .next t ∧ scalarFrame s t c 1 [d, d + 1] V ∧
        Warp.s V d = (if d = 0 then 0 else word mode) ∧ Warp.s V (d + 1) = word f)

/-- The array is queued for, granted and given up, and its operations are closed, waited for and shown,
as stated. For a warp that does not own its core's array and has no MACQ waiting: MACQ.SINGLE joins
the tail of the owner queue and waits; so does MACQ.PAIR, but on the last core of a die it answers
2; MACQ.TRY answers 1 and changes nothing when the array is owned, its queue is not empty or too few
slots are free, and else owns the array with the lowest free slots and answers 0. An owner that
executes one of them traps with the cause MXNEST. MACQ_GRANT, on an array without an owner and with
enough free slots for the head of its queue, gives it to that warp with the lowest free slots and
its fragment goes on with status 0 if it is a single one; a pair's first grant is held while the
warp queues on the neighbour, whose grant completes it. MREL, while no other released follower could
be free, leaves the array without an owner; a pair's follower is free at once, or, while operations
of the pair are left, released until the last of them has retired; no other array changes. With no
run executing, a warp that does not own the array traps on MREL with MXOWN. MFENCE answers the next
batch number from 1 to 2^32 - 1 and every operation, range and failure of the warp that was open
joins that batch. MWAIT for 0 completes; for a number beyond the last closed batch it traps with
MXBATCH; with an unretired operation in the batches named it waits; else it completes, giving back
the ranges of those batches to later requests at once and to requests issued before it once these
are performed (R204), or, with a failure in them, traps with that failure's cause and value. MOPF
completes with its count one higher. MPROG answers the kind and the units done of the warp's oldest
unretired operation on the array, or all ones. (R191, R193, R194, R195, R205, R206, R209, R210,
11_matrix.md) -/
def Obligations.MatrixOwnershipAndBatches : Prop :=
  ((∀ (s : State) (c : Ctx) (d n : Nat), State.ctx? s = some c →
      let W := c.warp
      let core := State.coreOf s W
      let a := State.array s core
      let free := State.freeSlots s core
      let joins (pair : Bool) : State := State.setArray s core { a with waiters := a.waiters ++
        [{ w := c.w, slot := c.slot, n := n, d := d, pair := pair, leader := none, resume := false }] }
      (State.owned s c.w W = none → Warp.inMacq W = false →
        waits (exec (.macqSingle d n) s) (joins false) c (.macq d) ∧
        (core % 80 ≠ 79 → waits (exec (.macqPair d n) s) (joins true) c (.macq d)) ∧
        (core % 80 = 79 → yields (exec (.macqPair d n) s) s c 1 d 2) ∧
        (a.hold ≠ none ∨ a.waiters ≠ [] ∨ free.length < n → yields (exec (.macqTry d n) s) s c 1 d 1) ∧
        (a.hold = none → a.waiters = [] → n ≤ free.length → ∃ u session,
          yields (exec (.macqTry d n) s) u c 1 d 0 ∧ u = { s with arrays := u.arrays, freeCount := u.freeCount } ∧
          s.freeCount < u.freeCount ∧
          State.array u core = { a with hold := some ⟨c.w, session, free.take n, none, none, true, false⟩ } ∧
          ∀ k, k ≠ core → State.array u k = State.array s k)) ∧
      (Ctx.mayTrap c → State.owned s c.w W ≠ none ∨ Warp.inMacq W = true → ∀ i,
        i ∈ [Instr.macqSingle d n, .macqPair d n, .macqTry d n] → traps (exec i s) s c (5 * 64 + 1) 0) ∧
      (Ctx.mayTrap c → State.owned s c.w W = none → traps (exec .mrel s) s c (5 * 64) 0) ∧
      (∀ h, State.owned s c.w W = some h →
        let left (k : Nat) (g : MHold) : Bool := (State.array s k).ops.any fun o => o.session = g.session
        (∀ k g lead, (State.array s k).hold = some g → g.leader = some lead → g.released = true →
          left lead g = true) →
        (h.follower = none → ∃ u, passes (exec .mrel s) u c 1 ∧ u = { s with arrays := u.arrays } ∧
          State.array u core = { a with hold := none } ∧ ∀ k, k ≠ core → State.array u k = State.array s k) ∧
        (∀ f g, h.follower = some f → f ≠ core → (State.array s f).hold = some g → g.leader = some core →
          ∃ u, passes (exec .mrel s) u c 1 ∧ u = { s with arrays := u.arrays } ∧
            State.array u core = { a with hold := none } ∧
            State.array u f = { State.array s f with
              hold := if left core g then some { g with released := true } else none } ∧
            ∀ k, k ≠ core → k ≠ f → State.array u k = State.array s k))) ∧
    (∀ (s : State) (core : Nat) (m : MWaiter) (rest : List MWaiter),
      let a := State.array s core
      let free := State.freeSlots s core
      a.waiters = m :: rest → a.hold = none → m.n ≤ free.length → m.resume = false →
      let held (session : Nat) (follower leader : Option Nat) (ready : Bool) : MHold :=
        { w := m.w, session := session, phys := free.take m.n, follower := follower, leader := leader,
          ready := ready, released := false }
      let woken : List Warp := s.warps.modify m.w fun W => Warp.onFrag W m.slot fun f =>
        { f with wait := .woken m.d 0 }
      (m.leader = none → m.pair = false → ∃ t session, exec (.macqGrant core) s = .next t ∧
        t = { s with warps := woken, freeCount := t.freeCount, arrays := t.arrays } ∧
        State.array t core = { a with waiters := rest, hold := some (held session none none true) } ∧
        ∀ k, k ≠ core → State.array t k = State.array s k) ∧
      (m.leader = none → m.pair = true → core % 80 ≠ 79 → ∃ t session, exec (.macqGrant core) s = .next t ∧
        t = { s with freeCount := t.freeCount, arrays := t.arrays } ∧
        State.array t core = { a with waiters := rest, hold := some (held session (some (core + 1)) none false) } ∧
        State.array t (core + 1) = { State.array s (core + 1) with
          waiters := (State.array s (core + 1)).waiters ++ [{ m with leader := some core }] }) ∧
      (∀ lead g, m.leader = some lead → lead ≠ core → (State.array s lead).hold = some g →
        ∃ t, exec (.macqGrant core) s = .next t ∧ t = { s with warps := woken, arrays := t.arrays } ∧
          State.array t core = { a with waiters := rest, hold := some (held g.session none (some lead) true) } ∧
          State.array t lead = { State.array s lead with
            hold := some { g with follower := some core, ready := true } }))) ∧
  (∀ (s : State) (c : Ctx) (d a : Nat), State.ctx? s = some c →
      let W := c.warp
      let b := (Warp.s W a).toNat
      let n := W.batch % (2 ^ 32 - 1) + 1
      let closes (x : Option Nat) : Option Nat := some (x.getD n)
      let joined (A : MArray) : MArray :=
        { A with ops := (A.ops.map fun o => if o.w = c.w then { o with batch := closes o.batch } else o) }
      yieldsOn (exec (.mfence d) s) { s with arrays := (s.arrays.map fun e => (e.1, joined e.2)) }
        c 1 d (word n) (fun V =>
          { V with batch := n,
                   mfail := (V.mfail.map fun f => { f with batch := closes f.batch }),
                   mtouch := (V.mtouch.map fun r => { r with batch := closes r.batch }) }) ∧
      passesOn (exec .mopf s) s c 1 (fun V => { V with epoch := V.epoch + 1 }) ∧
      (b = 0 → passes (exec (.mwait a) s) s c 1) ∧
      (b ≠ 0 →
        let past := (b + 2 ^ 32 - W.batch) % 2 ^ 32
        (1 ≤ past → past ≤ 2 ^ 31 → Ctx.mayTrap c → traps (exec (.mwait a) s) s c (5 * 64 + 7) (dword b)) ∧
        (past = 0 ∨ 2 ^ 31 < past →
          let inside (x : Option Nat) : Prop := ∃ k, x = some k ∧
            ((k + 2 ^ 32 - b) % 2 ^ 32 = 0 ∨ 2 ^ 31 < (k + 2 ^ 32 - b) % 2 ^ 32)
          ((∃ e o, e ∈ s.arrays ∧ o ∈ e.2.ops ∧ o.w = c.w ∧ inside o.batch) →
            waits (exec (.mwait a) s) s c (.mwait b)) ∧
          ((∀ e o, e ∈ s.arrays → o ∈ e.2.ops → o.w = c.w → ¬ inside o.batch) →
            ((∀ f, W.mfail = some f → ¬ inside f.batch) → ∃ touch,
              passesOn (exec (.mwait a) s) s c 1 (fun V => { V with mtouch := touch }) ∧
              ∀ r, r ∈ touch ↔ (∃ x, x ∈ W.mtouch ∧
                  (x.below = none → inside x.batch → r = { x with below := some W.nextReq }) ∧
                  (x.below ≠ none ∨ ¬ inside x.batch → r = x)) ∧
                ∀ k, r.below = some k → ∃ q, q ∈ W.reqs ∧ q.done = false ∧ q.id < k) ∧
            (∀ f, W.mfail = some f → inside f.batch → Ctx.mayTrap c →
              traps (exec (.mwait a) s) s c f.cause (dword f.tval))))) ∧
      (∀ ops, (State.array s (State.coreOf s W)).ops = ops →
        ((∀ o, o ∈ ops → o.w ≠ c.w) → yields (exec (.mprog d) s) s c 1 d 0xFFFFFFFF) ∧
        (∀ pre o rest, ops = pre ++ o :: rest → (∀ q, q ∈ pre → q.w ≠ c.w) → o.w = c.w →
          yields (exec (.mprog d) s) s c 1 d (word (MWork.kind o.work * 2 ^ 28 + o.unit)))))

/-- A matrix instruction of the array's owner whose checks pass appends one operation and completes, and
waits while 64 stand. For the owner of its core's array: MLD.ROW, MLD.COL, MST, MZERO, MBL, MMA and
MDRAIN, with operands inside the slots granted, images aligned and in range and a format block that
keeps the conditions, complete with the operation appended behind the array's others and the bytes
that it reads or writes, a handle tile's rows in main memory among them, noted as the owner's not to
touch; with 64 operations standing they wait. With no run executing, a warp that does not own the
array traps with MXOWN, a slot beyond the grant with MXSLOT, a misaligned image with ALIGN, one
beyond its allocation with SHBOUND or SCBOUND, a store to the .const range with SCRO, a handle or
tile that does not fit with CPHANDLE, CPSIZE or MXTILE, an array of group values beyond the
allocation with SHBOUND, and a bad format block with MXFMT, in the order of each instruction's
checks. TVAL of a handle of MMA that fails is the block's TIX, the model's choice as MMA has no
handle word (log 114). That TVAL of a failed address is the whole copy address word, and the offset
of a group array that fails, is the model's reading (log 24, DEDUCED). (R196, R197, R198, R200,
R201, R202, R204, R207, R191, R33, 11_matrix.md) -/
def Obligations.MatrixInstructionsIssue : Prop :=
  ∀ (s : State) (c : Ctx) (t t2 slot a f hh : Nat) (off : Int), State.ctx? s = some c →
    let W := c.warp
    let core := State.coreOf s W
    let arr := State.array s core
    let x := (Warp.s W a).toNat
    let y := (Warp.s W a + BitVec.ofInt 32 (32 * off)).toNat
    let b := (FmtBlock.read W f).1
    let w0 := (Warp.s W (4 * f)).toNat
    (Ctx.mayTrap c → State.owned s c.w W = none → ∀ i, i ∈ [Instr.mldRow t a, .mldCol t a, .mst t a,
        .mzero t, .mblShared slot a off, .mblHandle slot a, .mmaTile t t2 slot f, .mmaHandle t hh slot f,
        .mdrainShared t a f, .mdrainTile t t2 f] → traps (exec i s) s c (5 * 64) 0) ∧
    (∀ h, State.owned s c.w W = some h →
      let two := if h.follower = none then 1 else 2
      let issues (i : Instr) (work : MWork) (touch : List (End × Nat)) : Prop :=
        let op (fphys : List Nat) : MOp :=
          { id := arr.nextOp, w := c.w, session := h.session, phys := h.phys, pair := h.follower,
            fphys := fphys, work := work, unit := 0, batch := none, img := [], epoch := W.epoch,
            cp := W.nextReq, lev := W.tlev, flags := 0, fault := none, declined := none, dead := false }
        (64 ≤ arr.ops.length → waits (exec i s) s c .matrixRoom) ∧
        (arr.ops.length < 64 → ∃ fphys, passesOn (exec i s)
          (State.setArray s core { arr with nextOp := arr.nextOp + 1, ops := arr.ops ++ [op fphys] }) c 1
          fun V => { V with mtouch := V.mtouch ++ (touch.map fun r =>
            (⟨none, none, r.1, r.2⟩ : MTouch)) })
      issues (.mzero t) (.mzero t) [] ∧
      (∀ sp, (bits x 31 28 = 0 ∧ sp = Space.shared ∨ bits x 31 28 = 1 ∧ sp = .scratch) →
        let o := bits x 27 0
        let n := 32768 * two
        (o % 32 = 0 → State.chipRange s W sp o n = none →
          issues (.mldRow t a) (.mld t false sp o) [(.chip sp o, n)] ∧
          issues (.mldCol t a) (.mld t true sp o) [(.chip sp o, n)] ∧
          (State.constRange s W sp o n = false → issues (.mst t a) (.mst t sp o) [(.chip sp o, n)])) ∧
        (Ctx.mayTrap c → o % 32 ≠ 0 → ∀ i, i ∈ [Instr.mldRow t a, .mldCol t a, .mst t a] →
          traps (exec i s) s c (3 * 64 + 5) (dword x)) ∧
        (∀ cause, Ctx.mayTrap c → o % 32 = 0 → State.chipRange s W sp o n = some cause →
          ∀ i, i ∈ [Instr.mldRow t a, .mldCol t a, .mst t a] → traps (exec i s) s c cause (dword x)) ∧
        (Ctx.mayTrap c → o % 32 = 0 → State.chipRange s W sp o n = none → State.constRange s W sp o n = true →
          traps (exec (.mst t a) s) s c (3 * 64 + 2) (dword x))) ∧
      (Ctx.mayTrap c → 2 ≤ bits x 31 28 → ∀ i, i ∈ [Instr.mldRow t a, .mldCol t a, .mst t a] →
        traps (exec i s) s c (4 * 64) (dword x)) ∧
      (Ctx.mayTrap c → slot < h.phys.length →
        (y % 32 ≠ 0 → traps (exec (.mblShared slot a off) s) s c (3 * 64 + 5) (dword y)) ∧
        (∀ cause, y % 32 = 0 → State.chipRange s W .shared y (12288 * two) = some cause →
          traps (exec (.mblShared slot a off) s) s c cause (dword y)) ∧
        (State.handle? s W (bits x 31 26) = none → traps (exec (.mblHandle slot a) s) s c (4 * 64 + 1) (dword x)) ∧
        ∀ bind, State.handle? s W (bits x 31 26) = some bind →
          (TileBind.count bind ≤ bits x 25 0 → traps (exec (.mblHandle slot a) s) s c (4 * 64 + 2) (dword x)) ∧
          (bits x 25 0 < TileBind.count bind →
            bind.swz ≠ 0 ∨ TileBind.elems bind * 2 ^ bind.esz ≠ 12288 * two →
            traps (exec (.mblHandle slot a) s) s c (5 * 64 + 4) (dword x))) ∧
      (slot < h.phys.length → y % 32 = 0 → State.chipRange s W .shared y (12288 * two) = none →
        issues (.mblShared slot a off) (.mbl slot y) [(.chip .shared y, 12288 * two)]) ∧
      (Ctx.mayTrap c → h.phys.length ≤ slot → traps (exec (.mblShared slot a off) s) s c (5 * 64 + 3) (dword slot) ∧
        traps (exec (.mblHandle slot a) s) s c (5 * 64 + 3) (dword slot)) ∧
      (slot < h.phys.length → ∀ bind, State.handle? s W (bits x 31 26) = some bind →
        bits x 25 0 < TileBind.count bind → bind.swz = 0 →
        TileBind.elems bind * 2 ^ bind.esz = 12288 * two →
        issues (.mblHandle slot a) (.mblTile slot bind (bits x 25 0)) (TileBind.rows bind (bits x 25 0))) ∧
      (FmtBlock.ok b w0 = true → slot < h.phys.length →
        (b.bf = 15 → slot % 2 = 0 ∧ slot + 1 < h.phys.length) →
        let arrays := FmtBlock.arrays b two
        (∀ T, s.teams[W.team]? = some T → ∀ r, r ∈ arrays → r.1 + r.2 ≤ T.shLen) →
        s.teams[W.team]? ≠ none →
        let touch := arrays.map fun r => (End.chip .shared r.1, r.2)
        (t2 ≠ t → issues (.mmaTile t t2 slot f) (.mma t t2 slot b) touch) ∧
        (∀ bind, State.handle? s W hh = some bind → b.tix < TileBind.count bind → bind.swz = 0 →
          TileBind.elems bind * 2 ^ bind.esz = (if b.af = 15 then 12288 else 6144) →
          issues (.mmaHandle t hh slot f) (.mmaTile t bind b.tix slot b) (TileBind.rows bind b.tix ++ touch))) ∧
      (Ctx.mayTrap c → FmtBlock.ok b w0 = false →
        traps (exec (.mmaTile t t2 slot f) s) s c (5 * 64 + 2) (dword w0) ∧
        traps (exec (.mmaHandle t hh slot f) s) s c (5 * 64 + 2) (dword w0)) ∧
      (Ctx.mayTrap c → FmtBlock.ok b w0 = true →
        let fits : Prop := slot < h.phys.length ∧ (b.bf = 15 → slot % 2 = 0 ∧ slot + 1 < h.phys.length)
        let tile (k : Nat) (tval : Nat) : Prop := traps (exec (.mmaTile t t2 slot f) s) s c k (dword tval)
        let handle (k : Nat) (tval : Nat) : Prop := traps (exec (.mmaHandle t hh slot f) s) s c k (dword tval)
        let size := if b.af = 15 then 12288 else 6144
        (¬ fits → tile (5 * 64 + 3) slot ∧ handle (5 * 64 + 3) slot) ∧
        (fits → t2 = t → tile (5 * 64 + 4) t) ∧
        (fits → State.handle? s W hh = none → handle (4 * 64 + 1) b.tix) ∧
        (∀ bind, fits → State.handle? s W hh = some bind →
          (TileBind.count bind ≤ b.tix → handle (4 * 64 + 2) b.tix) ∧
          (b.tix < TileBind.count bind → bind.swz ≠ 0 ∨ TileBind.elems bind * 2 ^ bind.esz ≠ size →
            handle (5 * 64 + 4) b.tix)) ∧
        ∀ T pre r post, s.teams[W.team]? = some T → FmtBlock.arrays b two = pre ++ r :: post →
          (∀ q, q ∈ pre → q.1 + q.2 ≤ T.shLen) → T.shLen < r.1 + r.2 → fits →
          (t2 ≠ t → tile (3 * 64) r.1) ∧
          (∀ bind, State.handle? s W hh = some bind → b.tix < TileBind.count bind → bind.swz = 0 →
            TileBind.elems bind * 2 ^ bind.esz = size → handle (3 * 64) r.1)) ∧
      (Ctx.mayTrap c → drainBlockOk b w0 = false →
        traps (exec (.mdrainTile t t2 f) s) s c (5 * 64 + 2) (dword w0) ∧
        traps (exec (.mdrainShared t a f) s) s c (5 * 64 + 2) (dword w0)) ∧
      (Ctx.mayTrap c → drainBlockOk b w0 = true →
        (x % 32 ≠ 0 → traps (exec (.mdrainShared t a f) s) s c (3 * 64 + 5) (dword x)) ∧
        (∀ cause, x % 32 = 0 → State.chipRange s W .shared x (64 * drainRowBytes b.df * two) = some cause →
          traps (exec (.mdrainShared t a f) s) s c cause (dword x))) ∧
      (drainBlockOk b w0 = true → issues (.mdrainTile t t2 f) (.drainTile t t2 b.df) [] ∧
        (x % 32 = 0 → State.chipRange s W .shared x (64 * drainRowBytes b.df * two) = none →
          issues (.mdrainShared t a f) (.drain t x b.df) [(.chip .shared x, 64 * drainRowBytes b.df * two)])))

/-- A unit of a matrix operation moves a granule, computes a row of exact products with one rounding, or
drains a row; the last one's retirement sets MSTAT. For the only operation of an array or a pair,
alive, not declined by the supervisor, of a warp without a failure or granules read ahead, with
correctable data. MZERO clears, MLD.ROW, MLD.COL, MBL and MBL from a fetched handle tile receive,
and MST stores the bytes of the unit; the second half of a pair's units act on the follower. MMA
leaves in each of the 128 columns of its row, on each array with that array's slots, the f32
rounding of the old element plus the exact sum of the products of ValA, from the leader's tile or
the fetched handle tile, in rows or transposed, and ValB: a float element, times its group's scale
where GL is set; a q element less its zero point, times its scale, or 1 and 0 without groups; an
E2M1 element of its block as R90 decodes it, an escape beyond the count as +0. MDRAIN writes each
element of its row saturated and rounded toward zero, packed by its size, or for e2m1 in blocks of
scale 0x7F and count 0, to shared memory or to the first bytes of a tile. Every other byte of the
tiles, the slots and memory keeps its value. The unit counts as done, or the operation retires with
its last. The bits it is to set in MSTAT join: UNDER where an escape had no entry, DSAT where a
drained value was beyond the format's largest, DNAN where it was NaN; at retirement they are set.
The fetcher reads a granule ahead as it then stands. (R89, R90, R91, R93, R192, R195, R198, R200,
R202, R203, R207, R208) -/
def Obligations.MatrixUnitsAct : Prop :=
  (∀ (s : State) (core : Nat) (o : MOp) (W : Warp),
    let a := State.array s core
    a.ops = [o] → s.warps[o.w]? = some W → a.cur = o.session → o.dead = false → o.fault = none →
    o.declined = none → W.mfail = none → W.ahead = [] → o.unit < MOp.units o →
    (∀ f, o.pair = some f → f ≠ core ∧ (State.array s f).ops = [] ∧ (State.array s f).cur = o.session + 512) →
    let u := o.unit
    let parts : List Bool := if o.pair = none then [false] else [false, true]
    let arr (t : State) (p : Bool) : MArray := State.array t (if p then o.pair.getD core else core)
    let phys (p : Bool) : List Nat := if p then o.fphys else o.phys
    let tile (t : State) (p : Bool) (i off n : Nat) : Nat := UMem.read (MArray.tile (arr t p) i) off n
    let slot (t : State) (p : Bool) (i off n : Nat) : Nat := UMem.read (MArray.slot (arr t p) i) off n
    (∀ p i g, p ∈ parts → UMem.uncorrectable (MArray.tile (arr s p) i) (32 * g) 32 = false ∧
      UMem.uncorrectable (MArray.slot (arr s p) i) (32 * g) 32 = false) →
    let byte (sp : Space) (x : Nat) : Nat := State.readPlace s o.w (State.placeOf s W sp x) 1
    let sound (sp : Space) (x n : Nat) : Prop := ∀ g, 32 * g < x + n → x < 32 * g + 32 →
      State.badPlace s o.w (State.placeOf s W sp (32 * g)) 32 = false
    let acts (t : State) (under sat nan : Prop) (S Q : Bool → Nat → Nat → Prop) : Prop :=
      exec (.matrixOpUnit core .unit) s = .next t ∧
      (∀ p i k, p ∈ parts → ¬ S p i k → tile t p i k 1 = tile s p i k 1) ∧
      (∀ p i k, p ∈ parts → ¬ Q p i k → slot t p i k 1 = slot s p i k 1) ∧
      ∃ fl, fl < 8 ∧ (fl.testBit 0 = true ↔ under) ∧ (fl.testBit 1 = true ↔ sat) ∧ (fl.testBit 2 = true ↔ nan) ∧
        (State.array t core).ops.map (fun x => (x.id, x.unit, x.flags)) =
          (if u + 1 = MOp.units o then [] else [(o.id, u + 1, o.flags ||| fl)]) ∧
        (u + 1 = MOp.units o → ∃ V, t.warps[o.w]? = some V ∧ V.mstat = W.mstat ||| word (o.flags ||| fl))
    let none_ : Bool → Nat → Nat → Prop := fun _ _ _ => False
    let span (P : Bool) (I lo n : Nat) : Bool → Nat → Nat → Prop :=
      fun p i k => p = P ∧ i = I ∧ lo ≤ k ∧ k < lo + n
    let moves (t : State) (S Q : Bool → Nat → Nat → Prop) : Prop := acts t False False False S Q
    (let P := decide (1024 ≤ u)
     let v := u % 1024
     (∀ i, o.work = .mzero i → ∃ t, moves t (span P i (32 * v) 32) none_ ∧ sameBytes s t ∧
        ∀ k, k < 32 → tile t P i (32 * v + k) 1 = 0) ∧
     (∀ i sp off, o.work = .mld i false sp off → off % 32 = 0 → sound sp (off + 32 * u) 32 →
        ∃ t, moves t (span P i (32 * v) 32) none_ ∧ sameBytes s t ∧
          ∀ k, k < 32 → tile t P i (32 * v + k) 1 = byte sp (off + 32 * u + k)) ∧
     (∀ i sp off, o.work = .mld i true sp off → off % 32 = 0 → sound sp (off + 32 * u) 32 →
        let here (r c : Nat) : Prop := r < 64 ∧ (64 * c + r) / 8 = v
        ∃ t, moves t (fun p j k => p = P ∧ j = i ∧ ∃ r c, here r c ∧ 512 * r + 4 * c ≤ k ∧
            k < 512 * r + 4 * c + 4) none_ ∧ sameBytes s t ∧
          ∀ r c k, here r c → k < 4 → tile t P i (512 * r + 4 * c + k) 1 =
            byte sp (off + 32768 * (u / 1024) + 4 * (64 * c + r) + k)) ∧
     (∀ i sp off, o.work = .mst i sp off →
        let p := State.placeOf s W sp (off + 32 * u)
        Place.present p s o.w → ∃ t, moves t none_ none_ ∧ sameBytesBut s t o.w p 32 ∧
          State.readPlace t o.w p 32 = tile s P i (32 * v) 32)) ∧
    (let P := decide (384 ≤ u)
     let v := u % 384
     ∀ i q, (phys P)[i]? = some q →
      (∀ off, o.work = .mbl i off → off % 32 = 0 → sound .shared (off + 32 * u) 32 →
        ∃ t, moves t none_ (span P q (32 * v) 32) ∧ sameBytes s t ∧
          ∀ k, k < 32 → slot t P q (32 * v + k) 1 = byte .shared (off + 32 * u + k)) ∧
      (∀ bind n x, o.work = .mblTile i bind n → AMap.get? o.img u = some x →
        ∃ t, moves t none_ (span P q (32 * v) 32) ∧ sameBytes s t ∧
          ∀ k, k < 32 → slot t P q (32 * v + k) 1 = x / 256 ^ k % 256)) ∧
    (∀ (acc k : Nat) (b : FmtBlock) (A : Nat → Nat),
      (∃ i, o.work = .mma acc i k b ∧ i ≠ acc ∧ ∀ g, A g = tile s false i (32 * g) 32) ∨
        (∃ bind n, o.work = .mmaTile acc bind n k b ∧
          ∀ g, g < (if b.af = 15 then 384 else 192) → AMap.get? o.img g = some (A g)) →
      let size (f : Nat) : Nat := if f ∈ [9, 10] then 16 else if f ∈ [13, 14, 17] then 8 else 4
      b.af ∈ [9, 10, 13, 14, 15, 16, 17] → b.bf ∈ [9, 10, 13, 14, 15, 16, 17] → size b.af = size b.bf →
      (b.at_ = true → b.af ≠ 15) →
      (∀ p x, p ∈ parts → x ∈ (if b.bf = 15 then [k, k + 1] else [k]) → x < (phys p).length) →
      let w := size b.af
      let K := 768 / w
      let G := 16 * 2 ^ b.gl
      let NG := (b.ph + K - 1) / G + 1
      let grouped (f : Nat) : Bool := b.gl ≠ 0 && f ≠ 15
      let q (f : Nat) : Bool := f = 16 || f = 17
      (∀ f sc zp lines, (f, sc, zp, lines) ∈ [(b.af, b.asc, b.azp, 64), (b.bf, b.bsc, b.bzp, 128 * parts.length)] →
        grouped f = true → sound .shared (8 * sc) (2 * lines * NG) ∧
          (q f = true → sound .shared (8 * zp) (lines * NG))) →
      let val (f sc zp line k code : Nat) : Ext :=
        let e := line * NG + (b.ph + k) / G
        let scale := if grouped f then decodeF Fmt.f16 (byte .shared (8 * sc + 2 * e) +
          256 * byte .shared (8 * sc + 2 * e + 1)) else Ext.ofInt 1
        let z := if grouped f then byte .shared (8 * zp + e) % (if f = 16 then 16 else 256) else 0
        if q f then Ext.mul scale (Ext.ofInt ((code : Int) - z))
        else if grouped f then Ext.mul (decodeF (fmtOfCode f) code) scale else decodeF (fmtOfCode f) code
      let nibble (v i : Nat) : Nat := v / 16 ^ i % 16
      let escapes (v i : Nat) : Nat := ((List.range i).filter fun j => nibble v j = 8).length
      let blockScale (v : Nat) : Ext := decodeE8M0 (v / 256 ^ 16 % 256)
      let count (v : Nat) : Nat := v / 256 ^ 17 % 8
      let elem (v i : Nat) : Ext :=
        if blockScale v = .nan then .nan
        else if nibble v i ≠ 8 then Ext.mul (decodeF Fmt.e2m1 (nibble v i)) (blockScale v)
        else if escapes v i < count v then decodeF Fmt.bf16 (v / 256 ^ (18 + 2 * escapes v i) % 2 ^ 16)
        else .zero false
      let lacks (v : Nat) : Prop := blockScale v ≠ .nan ∧ ∃ i, i < 32 ∧ nibble v i = 8 ∧ count v ≤ escapes v i
      let B (p : Bool) (x g : Nat) : Nat := slot s p (((phys p)[x]?).getD 0) (32 * g) 32
      let at_ (bit : Nat) (cell : Nat → Nat) : Nat := cell (bit / 256) / 2 ^ (bit % 256) % 2 ^ w
      let xs : List Ext := (List.range K).map fun e =>
        if b.af = 15 then elem (A (6 * u + e / 32)) (e % 32)
        else val b.af b.asc b.azp u e (at_ (if b.at_ then (64 * e + u) * w else 768 * u + e * w) A)
      let ys (p : Bool) (j : Nat) : List Ext := (List.range K).map fun e =>
        if b.bf = 15 then elem (B p (k + j / 64) (6 * (j % 64) + e / 32)) (e % 32)
        else val b.bf b.bsc b.bzp (j + if p then 128 else 0) e (at_ (768 * j + e * w) (B p k))
      ∃ t, acts t ((b.af = 15 ∧ ∃ n, n < 6 ∧ lacks (A (6 * u + n))) ∨
            (b.bf = 15 ∧ ∃ p j n, p ∈ parts ∧ j < 128 ∧ n < 6 ∧ lacks (B p (k + j / 64) (6 * (j % 64) + n))))
          False False (fun _ i x => i = acc ∧ 512 * u ≤ x ∧ x < 512 * u + 512) none_ ∧ sameBytes s t ∧
        ∀ p j, p ∈ parts → j < 128 → tile t p acc (512 * u + 4 * j) 4 =
          roundEnc Fmt.f32 .rne (Ext.add .rne (decodeF Fmt.f32 (tile s p acc (512 * u + 4 * j) 4))
            (dot xs (ys p j)))) ∧
    (∀ acc df, df ∈ [9, 10, 11, 13, 14, 15] →
      let f := fmtOfCode df
      let w := if df = 11 then 32 else if df ∈ [9, 10] then 16 else if df = 15 then 4 else 8
      let n := if df = 15 then 128 else 16 * w
      let x (p : Bool) (j : Nat) : Ext := decodeF Fmt.f32 (tile s p acc (512 * u + 4 * j) 4)
      let e (p : Bool) (j : Nat) : Nat := encodeF f (roundF f .rtz (satF f (x p j)))
      let row (p : Bool) (v : Nat) : Prop :=
        (∀ j, j < 128 → v / 2 ^ (if df = 15 then 256 * (j / 32) + 4 * (j % 32) else w * j) % 2 ^ w = e p j) ∧
        (df = 15 → ∀ i, i < 4 → v / 256 ^ (32 * i + 16) % 2 ^ 16 = 0x7F)
      let sat : Prop := ∃ p j, p ∈ parts ∧ j < 128 ∧ x p j ≠ .nan ∧
        Ext.lt (Fmt.max f false) (magnitude (x p j)) = true
      let nan : Prop := ∃ p j, p ∈ parts ∧ j < 128 ∧ x p j = .nan
      (∀ off, o.work = .drain acc off df →
        let at_ (p : Bool) : Place := State.placeOf s W .shared (off + n * (u + if p then 64 else 0))
        (∀ p, p ∈ parts → Place.present (at_ p) s o.w) →
        (o.pair ≠ none → Where.meets (.chip (at_ false)) n (.chip (at_ true)) n = false) →
        ∃ t, acts t False sat nan none_ none_ ∧
          (∀ p, p ∈ parts → row p (State.readPlace t o.w (at_ p) n)) ∧
          ∀ l, (∀ p, p ∈ parts → ¬ Place.covers (at_ p) o.w n l) → State.byteAt t l = State.byteAt s l) ∧
      (∀ d, o.work = .drainTile acc d df →
        ∃ t, acts t False sat nan (fun _ i k => i = d ∧ n * u ≤ k ∧ k < n * u + n) none_ ∧ sameBytes s t ∧
          ∀ p, p ∈ parts → row p (tile t p d (n * u) n)))) ∧
  (∀ (s : State) (core w g : Nat) (W : Warp) (scratch : Bool), s.warps[w]? = some W →
    let sp := if scratch then Space.scratch else .shared
    let p := State.placeOf s W sp (32 * g)
    State.chipRange s W sp (32 * g) 32 = none → State.badPlace s w p 32 = false →
    ∃ t V, exec (.matrixOpUnit core (.ahead w scratch g)) s = .next t ∧ onlyWarp s t w V ∧
      V = { W with ahead := (W.epoch, sp, g, State.readPlace s w p 32) :: W.ahead })

/-- The CTX instructions leave with their operands, and the home unit publishes, reserves, abandons and
answers as the context's frontiers say. CTX.RES outside an idempotent team, CTX.ACQ, CTX.ABN and
CTX.STAT leave at once with the operands as they read, CTX.PUB, numbered at its issue, once the
warp's runs have committed; in an idempotent team CTX.RES traps with CTXIDEM. CTX_SERVE, of a warp
that is not killed, for a live context of the warp's execution context that passes the checks of
R260 (its words correctable, or those that the operation needs: which these are is log 102, DESIGN
CHOICE): CTX.PUB completes, its positions are done at its layer, NEXT stays, no frontier falls, and
each layer's frontier moves up over done positions to the first that is not done; CTX.ACQ writes the
frontier and its hole bitmap; CTX.ABN leaves its positions done at every layer and answers how many
positions it found OPEN at some layer; CTX.STAT answers the item; CTX.RES, with none waiting, is
given all ones beyond the capacity and NEXT within 4,096 positions of the least frontier, and else
joins the waiting reservations. While the first waiting reservation can be granted, nothing that
comes later is served. A register receives its value where no later instruction has written it. For
no live context the instruction traps with CTXNONE, and with correctable words each failed check of
R260 traps with its cause and value, the first in the table's order. That CTX.PUB waits for the
warp's runs, and the order of the checks, follow log 27 (DEDUCED); which records CREATE accepts
follows log 79 (DEDUCED), and RES names context 0 where none was allocated (log 116, DESIGN CHOICE).
CTX_RESERVATION_GRANT gives the first waiting reservation NEXT and raises it by the count within
4,096 positions of the least frontier, and beyond the capacity answers all ones. CREATE, DELETE,
ABANDONQ and the read of REPORT answer and change the contexts as their commands say. (R253, R254,
R256, R257, R258, R259, R260, R261, R262, R263, R264, R265) -/
def Obligations.ContextInstructionsAndService : Prop :=
  (∀ (s : State) (c : Ctx) (d a b : Nat), State.ctx? s = some c →
    let W := c.warp
    let r (k : Nat) : Nat := (Warp.s W k).toNat
    let sent (i : Instr) (op : CtxOp) : Prop := exec i s = .next (State.setWarp s c.w
      (Warp.await { W with nextCtx := W.nextCtx + 1 } c.slot (.ctx op W.nextCtx)))
    (W.idem = false → sent (.ctxRes d a b) (.res d (r a) (r b))) ∧
    (W.idem = true → Ctx.mayTrap c → traps (exec (.ctxRes d a b) s) s c (7 * 64 + 5) (dword (r a))) ∧
    sent (.ctxAcq d a b) (.acq d (r a) (r b)) ∧
    sent (.ctxAbn d a b) (.abn d (r a) (r b) (r (b + 1))) ∧
    sent (.ctxStat d a b) (.stat d (r a) (r b)) ∧
    (W.queue = [] → W.exec = none → W.laneTrap = none →
      sent (.ctxPub d a b) (.pub (r d) (r a) (r b) (r (b + 1)))) ∧
    (∀ e, (e ∈ W.queue ∨ (∃ x, W.exec = some x ∧ x.entry = e) ∨ ∃ p, W.laneTrap = some p ∧ p.run = some e) →
      e.seq < W.nextRun → exec (.ctxPub d a b) s = .next (State.setWarp s c.w
        (Warp.await { W with nextCtx := W.nextCtx + 1 } c.slot
          (.ctxRuns (.pub (r d) (r a) (r b) (r (b + 1))) W.nextRun W.nextCtx))))) ∧
  (∀ (s : State) (c : Ctx) (op : CtxOp) (seq : Nat), Ctx.stands c s → c.frag.wait = .ctx op seq →
    Warp.ctxWaits c.warp seq = false → c.warp.tlev ≤ c.frag.hlev → c.warp.killed = false →
    let n := CtxOp.word op
    (∀ A, AMap.get? s.contexts n = some A → CtxWord.asid ∉ A.bad) →
    let o := exec (.ctxServe c.w c.slot) s
    let put (A : AttnCtx) : State := { s with contexts := AMap.set s.contexts n A }
    let K : Ctx := { c with warp := Warp.onFrag c.warp c.slot fun f => { f with wait := .ready } }
    let fails (cause tval : Nat) : Prop := Ctx.mayTrap c → traps o (State.setWarp s c.w K.warp) K cause (dword tval)
    ((∀ A, 2 ^ 11 ≤ n ∨ AMap.get? s.contexts n ≠ some A ∨ A.asid ≠ State.asidOf s c.warp) → fails (7 * 64) n) ∧
    (∀ A, n < 2 ^ 11 → AMap.get? s.contexts n = some A → A.asid = State.asidOf s c.warp →
      (AttnCtx.mayGrant A = true → o = .next s) ∧
      (AttnCtx.mayGrant A = false →
      let least : Nat := (A.frontier.min?).getD 0
      let late (l q : Nat) : Prop := least ≤ q + 64 ∧ 256 * q + l ∈ A.abn
      let layer (l : Nat) : Prop := l < A.layers
      let count (p k : Nat) : Prop := k ≠ 0 ∧ p + k ≤ A.cap
      let sound : Prop :=
        match op with
        | .res _ _ k => k ≠ 0 ∧ k ≤ 4096
        | .pub _ l p k => layer l ∧ count p k ∧ p + k ≤ A.next ∧ ∀ q, p ≤ q → q < p + k → ¬ late l q
        | .acq _ _ l => layer l
        | .abn _ _ p k => count p k ∧ p + k ≤ A.next
        | .stat _ _ i => i < 2 ^ 16 ∧ i % 256 ≤ 9 ∧ (i % 256 = 4 → layer (i / 256))
      (A.bad = [] →
        (∀ d k, op = .res d n k → ¬ sound → fails (7 * 64 + 2) k) ∧
        (∀ l, (∃ d, op = .acq d n l) ∨ (∃ p k, op = .pub n l p k) ∨
          (∃ d i, op = .stat d n i ∧ i % 256 = 4 ∧ l = i / 256 % 256) → ¬ layer l → fails (7 * 64 + 1) l) ∧
        (∀ p k, (∃ l, op = .pub n l p k ∧ layer l) ∨ (∃ d, op = .abn d n p k) →
          (¬ count p k → fails (7 * 64 + 2) k) ∧
          (count p k → A.next < p + k → fails (7 * 64 + 3) (if A.next ≤ p then p else A.next))) ∧
        (∀ l p k q, op = .pub n l p k → layer l → count p k → p + k ≤ A.next → p ≤ q → q < p + k → late l q →
          (∀ x, p ≤ x → x < q → ¬ late l x) → fails (7 * 64 + 4) q) ∧
        (∀ d i, op = .stat d n i → (i % 256 = 4 → layer (i / 256 % 256)) → 9 < i % 256 ∨ 2 ^ 16 ≤ i →
          fails (7 * 64 + 6) i)) ∧
      (AttnCtx.check A op = none ∨ (A.bad = [] ∧ sound) →
        (∀ l p k, op = .pub n l p k → ∃ B, passes o (put B) c 1 ∧ B.next = A.next ∧
          (∀ q, p ≤ q → q < p + k → AttnCtx.isDone B l q = true) ∧
          ∀ y f, A.frontier[y]? = some f → ∃ g, B.frontier[y]? = some g ∧ f ≤ g ∧
            AttnCtx.isDone B y g = false ∧ ∀ q, f ≤ q → q < g → AttnCtx.isDone B y q = true) ∧
        (∀ d l, op = .acq d n l → Ctx.owns c d → Ctx.owns c (d + 1) → Ctx.owns c (d + 2) → ∃ t V, o = .next t ∧ scalarFrame s t c 1 [d, d + 1, d + 2] V ∧
          let f := (A.frontier[l]?).getD 0
          let h := AttnCtx.holes A l f
          (Warp.s V d = if d = 0 then 0 else word f) ∧ Warp.s V (d + 1) = word h ∧
          Warp.s V (d + 2) = word (h / 2 ^ 32)) ∧
        (∀ d p k, op = .abn d n p k → Ctx.owns c d → ∃ B, yields o (put B) c 1 d (word ((List.range k).filter fun i =>
            AttnCtx.fmin A ≤ p + i && (List.range A.layers).any fun l => !AttnCtx.isDone A l (p + i)).length) ∧
          B.next = A.next ∧
          ∀ q l, p ≤ q → q < p + k → l < A.layers → AttnCtx.fmin A ≤ q → AttnCtx.isDone B l q = true) ∧
        (∀ d i, op = .stat d n i → Ctx.owns c d → yields o s c 1 d (word (AttnCtx.item A i))) ∧
        (∀ d k, op = .res d n k → A.bad = [] →
          let full : Prop := A.cap < A.next + k
          let room : Prop := A.next + k ≤ AttnCtx.fmin A + 4096
          (A.waiting = [] → full → Ctx.owns c d → yields o (put A) c 1 d 0xFFFFFFFF) ∧
          (A.waiting = [] → ¬ full → room → Ctx.owns c d →
            yields o (put { A with next := A.next + k, owners := A.owners ++
              ((List.range k).map fun i => (A.next + i, State.queueOf s c.warp)) }) c 1 d (word A.next)) ∧
          (A.waiting ≠ [] ∨ (¬ full ∧ ¬ room) → waits o (put { A with waiting := A.waiting ++
            [⟨c.w, c.slot, d, k, State.queueOf s c.warp⟩] }) c (.ctxRes d))))))) ∧
  (∀ (s : State) (n : Nat) (A : AttnCtx) (x : CtxWaiter) (rest : List CtxWaiter) (c : Ctx),
    AMap.get? s.contexts n = some A → A.waiting = x :: rest → x.w = c.w → x.slot = c.slot →
    Ctx.stands c s → A.bad = [] → Ctx.owns c x.d →
    let o := exec (.ctxReservationGrant n) s
    let put (B : AttnCtx) : State := { s with contexts := AMap.set s.contexts n B }
    (A.cap < A.next + x.n → yields o (put { A with waiting := rest }) c 1 x.d 0xFFFFFFFF) ∧
    (A.next + x.n ≤ A.cap → A.next + x.n ≤ AttnCtx.fmin A + 4096 →
      yields o (put { A with waiting := rest, next := A.next + x.n, owners := A.owners ++
        ((List.range x.n).map fun i => (A.next + i, x.queue)) }) c 1 x.d (word A.next)) ∧
    (A.next + x.n ≤ A.cap → AttnCtx.fmin A + 4096 < A.next + x.n → o = .next s)) ∧
  (∀ (s : State) (die x : Nat) (g : CmdRegs), AMap.get? s.ctxUnits die = some g → g.pending = some x →
    let regs (status n : Nat) : CmdRegs := { g with pending := none, res := n * 2 ^ 16 + status * 2 ^ 8 }
    let done (s : State) (status n : Nat) : State :=
      { s with ctxUnits := AMap.set s.ctxUnits die (regs status n) }
    let n := bits x 18 8
    let good (rcd : Nat) : Prop := 1 ≤ bits rcd 127 96 ∧ bits rcd 127 96 ≤ 2 ^ 24 ∧
      (bits rcd 71 67 = 3 ∨ bits rcd 71 67 = 4 ∨ 6 ≤ bits rcd 71 67)
    let size (L : Nat) : Nat := (5120 + 1040 * L + 255) / 256 * 256
    (x % 256 = 1 → let rcd := g.arg1 * 2 ^ 64 + g.arg0
      (¬ good rcd → exec (.create die) s = .next (done s 3 0)) ∧
      (good rcd → (∀ i, i < 256 → AMap.get? s.contexts (256 * die + i) ≠ none) →
        exec (.create die) s = .next (done s 2 0)) ∧
      (good rcd → (∃ i, i < 256 ∧ AMap.get? s.contexts (256 * die + i) = none) →
        2 ^ 21 < ((s.contexts.filter fun e => e.1 / 256 = die).map fun e => size e.2.layers).sum + size (bits rcd 79 72 + 1) →
        exec (.create die) s = .next (done s 1 0))) ∧
    (∀ i, x % 256 = 1 → (AMap.get? s.contexts (256 * die + i) = none) → i < 256 →
      (∀ j, j < i → AMap.get? s.contexts (256 * die + j) ≠ none) →
      let rcd := g.arg1 * 2 ^ 64 + g.arg0
      let layers := bits rcd 79 72 + 1
      good rcd → ((s.contexts.filter fun e => e.1 / 256 = die).map fun e => size e.2.layers).sum + size layers ≤ 2 ^ 21 →
      let A : AttnCtx :=
        { asid := bits rcd 95 80, cap := bits rcd 127 96, layers := layers, scope := bits rcd 71 67,
          user := bits rcd 63 0, next := 0, frontier := List.replicate layers 0, pub := [], abn := [],
          owners := [], abandoned := 0, waiting := [], bad := [] }
      exec (.create die) s = .next
        (done { s with contexts := AMap.set s.contexts (256 * die + i) A } 0 (256 * die + i))) ∧
    (∀ A, x % 256 = 2 → n / 256 = die → AMap.get? s.contexts n = some A → A.waiting = [] →
      exec (.delete die) s = .next (done { s with contexts := AMap.erase s.contexts n } 0 0)) ∧
    (x % 256 = 2 → n / 256 = die → AMap.get? s.contexts n = none →
      exec (.delete die) s = .next (done s 4 0)) ∧
    (∀ A, x % 256 = 3 → n / 256 = die → AMap.get? s.contexts n = some A → A.bad = [] →
      AttnCtx.mayGrant A = false →
      ∃ B, exec (.abandonq die) s = .next (done { s with contexts := AMap.set s.contexts n B } 0 0) ∧
        B.next = A.next ∧ ∀ p l, AttnCtx.fmin A ≤ p → p < A.next → l < A.layers →
          AMap.get? A.owners p = some (some (bits x 31 24)) → AttnCtx.isDone B l p = true)) ∧
  (∀ (s : State) (die : Nat),
    (AMap.get? s.ctxReports die = none →
      exec (.ctxReportRead die) s = .next { s with supRead := 0 }) ∧
    (∀ x rest, AMap.get? s.ctxReports die = some (x :: rest) → ∃ t, exec (.ctxReportRead die) s = .next t ∧
      t = { s with supRead := t.supRead, freeCount := t.freeCount,
                   ctxReports := AMap.set s.ctxReports die rest } ∧
      t.supRead / 2 ^ 63 = 1 ∧ t.supRead / 2 ^ 16 % 256 = x / 256 % 256))

/-- TOKSEND issues a message, the inbox writes its record in order or refuses it, and the reply brings
the status. Outside an idempotent team, with its reserved bits zero and room on FB, TOKSEND issues
one request and waits; in an idempotent team it traps with TOKIDEM, and with a reserved bit set with
TOKSTREAM; to another device one packet, with the sender's job, queue, reset count and the next
sequence number to that device (log 96: the model's numbering from 0), the stream in WIN, block 0
and one flit of data (log 119, DESIGN CHOICE), leaves by a port with a path to it, behind no
unacknowledged one of its kind to the same stream and device, with the version of that link, its two
flits counted, or waits while there is none. The inbox, with no record waiting for its WSEQ, serves
a message to this device: for a stream that is bound, from a permitted device and with a free
record, it writes the token and its number into record q mod 64 and no other byte, and status 0;
with a full ring status 1 and with no such stream or permission status 2, changing no byte. The WSEQ
that is due is then written, and a peer's message answered with status 0 under its job, queue and
reset count (log 96). A peer's message, which comes by a port that is up, verified, in a known
version, not from before a reset and not a duplicate, is served in the same way. The reply writes
the status into the register, where no later instruction has written it, once the WSEQ has been
written, and the request retires; that an UNREACH gives a free value is the model's (log 96, DESIGN
CHOICE). (R276, R277, R292, 16_sampling.md) -/
def Obligations.TokensTravel : Prop :=
  (∀ (s : State) (c : Ctx) (d a b : Nat), State.ctx? s = some c →
    let W := c.warp
    let x := (Warp.s W b).toNat
    (W.idem = true → Ctx.mayTrap c → traps (exec (.toksend d a b) s) s c (8 * 64) 0) ∧
    (W.idem = false → bits x 31 25 ≠ 0 ∨ bits x 15 8 ≠ 0 → Ctx.mayTrap c →
      traps (exec (.toksend d a b) s) s c (8 * 64 + 1) (dword x)) ∧
    (W.idem = false → bits x 31 25 = 0 → bits x 15 8 = 0 →
      let peer := bits x 24 16
      ((W.reqs.filter fun r => r.path = .fb).length < 4095 → ∃ u, awaits (exec (.toksend d a b) s) u c
          (Warp.newReq W .fb (.toksend d peer (bits x 7 0) (Warp.s W a) none)) ∧
        (peer = 0x1FF ∨ peer = s.fabid → u = s) ∧
        (peer ≠ 0x1FF → peer ≠ s.fabid → u = { s with sent := u.sent, unsent := u.unsent, seqOut := u.seqOut,
                                                         ports := u.ports, reports := u.reports } ∧
          let seq := (AMap.get? s.seqOut peer).getD 0
          let q := ((State.gridOf? s W).bind (·.queue)).getD 0
          let p : Sent :=
            { kind := 5, dst := peer, data := [bits x 7 0, (Warp.s W a).toNat], win := bits x 7 0, bytes := 4,
              job := (AMap.get? s.jobs (State.asidOf s W)).getD 0, queue := q, rcnt := (State.queue s q).rcnt,
              seq := seq, owner := some (c.w, W.nextReq) }
          AMap.get? u.seqOut peer = some ((seq + 1) % 2 ^ 32) ∧
          (State.paths s peer = [] → u.sent = s.sent ∧ u.unsent = s.unsent ++ [p]) ∧
          (State.paths s peer ≠ [] → s.unsent = [] →
            (∀ o, o ∈ s.sent → Sent.along p o = false ∨ (State.unanswered s o = false ∧ o.owner ≠ p.owner)) →
            (∀ k P, k ∈ State.paths s peer → AMap.get? s.ports k = some P → P.counter + 2 ≤ 2 ^ 36 - 2) →
            ∃ port P, port ∈ State.paths s peer ∧ AMap.get? s.ports port = some P ∧ u.unsent = [] ∧
              u.sent = s.sent ++ [{ p with port := some port, ver := P.version }] ∧
              AMap.get? u.ports port = some (Port.count P 2)))) ∧
      (4095 ≤ (W.reqs.filter fun r => r.path = .fb).length →
        waits (exec (.toksend d a b) s) s c (.room .fb)))) ∧
  (∀ (s : State) (w : Nat) (W : Warp) (r : Req) (d peer k : Nat) (token : Word), s.warps[w]? = some W →
    W.reqs = [r] → r.op = .toksend d peer k token none → r.done = false → peer = 0x1FF ∨ peer = s.fabid →
    (∀ e, e ∈ s.streams → e.2.due = false) →
    let o := exec (.tokenInboxWrite (.own w r.id)) s
    let served (t : State) (st : Nat) : Prop := o = .next t ∧ ∃ V, t.warps[w]? = some V ∧
      V = { W with reqs := [{ r with op := .toksend d peer k token (some st) }] } ∧
      t = { s with warps := s.warps.set w V, grids := t.grids, streams := t.streams }
    (AMap.get? s.streams k = none → ∃ t, served t 2 ∧ sameBytes s t) ∧
    (∀ e, AMap.get? s.streams k = some e → State.badPlace s 0 (.scratch e.grid 0 e.off) 4 = false →
      let rseq := State.readPlace s 0 (.scratch e.grid 0 e.off) 4
      let q := (e.wseq + 1) % 2 ^ 32
      let p := Place.scratch e.grid 0 (e.off + 64 + 8 * (q % 64))
      (e.peers.testBit s.fabid = false → ∃ t, served t 2 ∧ sameBytes s t) ∧
      (e.peers.testBit s.fabid = true → 64 < (e.wseq + 1 + 2 ^ 32 - rseq) % 2 ^ 32 →
        ∃ t, served t 1 ∧ sameBytes s t) ∧
      (e.peers.testBit s.fabid = true → (e.wseq + 1 + 2 ^ 32 - rseq) % 2 ^ 32 ≤ 64 → Place.present p s 0 →
        ∃ t, served t 0 ∧ sameBytesBut s t 0 p 8 ∧
          State.readPlace t 0 p 8 = token.toNat * 2 ^ 32 + q ∧
          AMap.get? t.streams k = some { e with wseq := q, due := true, reply := none, warp := some w }))) ∧
  (∀ (s : State) (h : PktHdr) (k : Nat) (token : Word) (e : Stream), (∀ e, e ∈ s.streams → e.2.due = false) →
    ((AMap.get? s.ports h.port).getD Port.zero).up = true → h.tagOk = true → h.kind = 5 → h.ver = 1 ∨ h.ver = 2 →
    State.outdated s h.src h.queue h.rcnt = false → (false, h.src, h.seq) ∉ s.seqs → AMap.get? s.streams k = some e →
    State.badPlace s 0 (.scratch e.grid 0 e.off) 4 = false →
    let rseq := State.readPlace s 0 (.scratch e.grid 0 e.off) 4
    let q := (e.wseq + 1) % 2 ^ 32
    let p := Place.scratch e.grid 0 (e.off + 64 + 8 * (q % 64))
    e.peers.testBit h.src = true → (e.wseq + 1 + 2 ^ 32 - rseq) % 2 ^ 32 ≤ 64 → Place.present p s 0 →
    ∃ t, exec (.tokenInboxWrite (.peer h k token)) s = .next t ∧ sameBytesBut s t 0 p 8 ∧
      t = { s with grids := t.grids, streams := t.streams, seqs := t.seqs } ∧ (false, h.src, h.seq) ∈ t.seqs ∧
      State.readPlace t 0 p 8 = token.toNat * 2 ^ 32 + q ∧
      AMap.get? t.streams k = some { e with wseq := q, due := true, reply := some h, warp := none }) ∧
  (∀ (s : State) (k : Nat) (e : Stream), AMap.get? s.streams k = some e → e.due = true →
    let p := Place.scratch e.grid 0 (e.off + 4)
    Place.present p s 0 → ∃ t, exec (.tokenInboxWrite (.wseq k)) s = .next t ∧ sameBytesBut s t 0 p 4 ∧
      (e.reply = none → t.sent = s.sent ∧ t.unsent = s.unsent) ∧
      (∀ h, e.reply = some h → ∃ q, q ∈ t.sent ++ t.unsent ∧ q.kind = 6 ∧ q.dst = h.src ∧ q.win = k ∧
        q.data = [k, 0] ∧ q.job = h.job ∧ q.queue = h.queue ∧ q.rcnt = h.rcnt) ∧
      State.readPlace t 0 p 4 = e.wseq % 2 ^ 32 ∧ AMap.get? t.streams k = some { e with due := false, reply := none, warp := none }) ∧
  (∀ (s : State) (w status : Nat) (W : Warp) (r : Req) (d peer k : Nat) (token : Word) (st : Option Nat),
    s.warps[w]? = some W → W.reqs = [r] → r.op = .toksend d peer k token st → r.done = false →
    s.unsent = [] → (d ≠ 0 → Writer.req r.id ∈ Warp.writers W d) →
    let replies (v : Nat) : Prop := ∃ V, exec (.tokenReply w r.id status) s = .next (State.setWarp s w V) ∧
      V = { W with reqs := [], sregs := V.sregs, owed := V.owed } ∧
      (Warp.s V d = if d = 0 then 0 else word v) ∧
      ∀ i, i ≠ d → Warp.s V i = Warp.s W i ∧ AMap.get? V.owed i = AMap.get? W.owed i
    (∀ v, peer = 0x1FF ∨ peer = s.fabid → st = some v →
      ((∀ e, AMap.get? s.streams k = some e → e.due = false) → replies v) ∧
      ((∃ e, AMap.get? s.streams k = some e ∧ e.due = true) →
        exec (.tokenReply w r.id status) s = .next s)) ∧
    (peer ≠ 0x1FF → peer ≠ s.fabid → State.reachable s peer = true → status < 3 → replies status))

/-- A home accepts a packet whose lanes pass their checks, performs each lane and answers it, and
windows are written and revoked. For the only request of a warp, a FAX to this device.
FAX_HOME_SERVE accepts a packet of lanes that all pass their checks and that R239 and R298 order
after no lane outside it (log 37), and of one lane that fails answers its reason; performed, a load
lands the words read at the window's translated address, a store leaves its datum there, an atomic
leaves its result and lands the old value, each writing no other byte, and the request is performed
once its results have landed. The same for a peer's packet, which comes by a port that is up,
verified, in a known version and not from before a reset, with the answers sent back under its job,
queue and reset count (log 96); a duplicate changes nothing. A response of another device lands the
words of each lane, or notes the reason, of the lanes that it names. WRITE_WINDOW answers 1 for a
bad entry, 2 while the entry is valid, else writes it; REVOKE starts, and REVOKE_COMPLETE ends, the
entry's validity once no accepted packet of the window is left. A response of another device is
UNREACH exactly where no live path to it remains (log 96, DESIGN CHOICE); that BADENTRY comes before
INUSE is log 41 (DEDUCED), the order of a home's lanes log 37 (DESIGN CHOICE). (R290, R291, R292,
R294, R296, R297, R298, 19_fabric.md) -/
def Obligations.FabricHomeServes : Prop :=
  (∀ (s : State) (w : Nat) (W : Warp) (r : Req) (peer win : Nat) (op : FaxOp) (pk : List (List Nat))
      (neg : List (Nat × Nat)), s.warps[w]? = some W → W.reqs = [r] → r.path = .fb → r.done = false →
    r.op = .fax peer win op pk neg →
    let e := State.window s win
    let job := State.jobOf s (State.asidOf s W)
    let lane (it : LaneItem) : Nat × Nat × Nat × Nat := (it.lane, it.addr.toNat, it.x.toNat, it.y.toNat)
    let passes (off : Nat) : Prop := Window.check e job op off (FaxOp.size op) false = 0 ∧ (FaxOp.onForest op = false →
      ∃ u pa, State.homePlace s e op off = some (u, pa) ∧ Memory.uncorrectable u.main pa (FaxOp.size op) = false)
    (peer = 0x1FF ∨ peer = s.fabid → s.homes = [] → ∀ k mine, pk[k]? = some mine →
      let items := r.todo.filter fun it => mine.contains it.lane
      items ≠ [] → (∀ it, it ∈ items → passes it.addr.toNat) →
      (∀ a it, a ∈ r.todo → it ∈ items → a.lane < it.lane → FaxOp.onForest op = true ∨ a.addr.toNat = it.addr.toNat →
        a.lane ∈ mine) →
      ∃ id, exec (.faxHomeServe (.own w r.id k false)) s = .next
        { s with freeCount := s.freeCount + 1,
                 homes := [{ id := id, src := .own w r.id, job := job, off := 0, passed := 0, win := win, op := op,
                             todo := items.map lane, answers := [] }] }) ∧
    (peer = 0x1FF ∨ peer = s.fabid → s.homes = [] → ∀ it, r.todo = [it] → pk[0]? = some [it.lane] →
      Window.check e job op it.addr.toNat (FaxOp.size op) false ≠ 0 → ∃ t V, exec (.faxHomeServe (.own w r.id 0 false)) s = .next t ∧
        t = { s with freeCount := t.freeCount, warps := s.warps.set w V } ∧
        let noted := neg ++ [(it.lane, Window.check e job op it.addr.toNat (FaxOp.size op) false)]
        (r.land ≠ [] → V.reqs = [{ r with todo := [], op := .fax peer win op pk noted }])) ∧
    (∀ h it, s.homes = [h] → h.src = .own w r.id → h.win = win → h.op = op → h.answers = [] →
      h.todo = [lane it] → r.todo = [it] → r.land = [] → W.mtouch = [] → FaxOp.onForest op = false →
      ∀ u pa, State.homePlace s e op it.addr.toNat = some (u, pa) → State.inForest s pa (FaxOp.size op) = false →
      Memory.uncorrectable s.main pa (FaxOp.size op) = false →
      let o := exec (.faxHomeServe (.lane h.id it.lane)) s
      let frame (t : State) (reqs : List Req) (sp : Nat) : Prop := ∃ V, t.warps[w]? = some V ∧
        V = { W with reqs := reqs, async := V.async } ∧ (neg = [] → V.async = W.async) ∧
        t = { s with tlb := t.tlb, homes := [], main := t.main, warps := s.warps.set w V } ∧
        ∀ l, (∀ a, l = .main a → a < pa ∨ pa + sp ≤ a) → State.byteAt t l = State.byteAt s l
      let old := Memory.read s.main pa (FaxOp.size op)
      let lands (d n : Nat) : List Land := (List.range n).map fun k => .vreg it.lane (d + k) (word (old / 2 ^ (32 * k)))
      (∀ ty d, op = .ld ty d → ty ∈ [LaneTy.b32, .i32, .n32, .f32, .i64, .n64, .f64] →
        ∃ t, o = .next t ∧ frame t [{ r with todo := [], land := lands d (tyBytes ty / 4) }] 0) ∧
      (∀ d, op = .ldg d → ∃ t, o = .next t ∧ frame t [{ r with todo := [], land := lands d 8 }] 0) ∧
      (∀ n, op = .st n → ∃ t, o = .next t ∧ frame t [] n ∧ Memory.read t.main pa n = it.x.toNat % 256 ^ n) ∧
      (∀ a ty d, op = .atomic a ty d → ty ∈ [LaneTy.b32, .i32, .n32, .f32, .b64, .i64, .n64] →
        ∃ t, o = .next t ∧ frame t (match d with
            | some d => [{ r with todo := [], land := lands d (tyBytes ty / 4) }]
            | none => []) (tyBytes ty) ∧
          Memory.read t.main pa (tyBytes ty) =
            atomNew a ty old it.x.toNat it.y.toNat % 256 ^ tyBytes ty)) ∧
    (peer ≠ 0x1FF → peer ≠ s.fabid → s.unsent = [] → ∀ it rest ws, r.todo = it :: rest → (∀ x, x ∈ rest → x.lane ≠ it.lane) →
      rest ≠ [] →
      let now (q : Req) : State := State.setWarp s w { W with reqs := [q] }
      let landed : List Land := ((FaxOp.dests op).zip ws).map fun x => .vreg it.lane x.1 x.2
      (State.reachable s peer = true → exec (.faxResponse w r.id ⟨0, [(it.lane, ws)]⟩) s =
        .next (now { r with todo := rest, land := r.land ++ landed })) ∧
      (∀ k, 1 ≤ k → k ≤ 8 → (State.reachable s peer = false ↔ k = 7) →
        exec (.faxResponse w r.id ⟨k, [(it.lane, ws)]⟩) s = .next (now { r with todo := rest, op := .fax peer win op pk (neg ++ [(it.lane, k)]) })))) ∧
  (∀ (s : State) (p : PeerReq) (h : Home) (x : Nat × Nat × Nat × Nat),
    let H := p.h
    let e := State.window s H.win
    let op := faxOfFn p.fn p.ty
    let reason := Window.check e H.job op x.2.1 (FaxOp.size op) false
    (s.homes = [] → ((AMap.get? s.ports H.port).getD Port.zero).up = true → H.tagOk = true → H.kind = 1 →
      H.ver = 1 ∨ H.ver = 2 → State.outdated s H.src H.queue H.rcnt = false → p.lanes = [x] →
      ((false, H.src, H.seq) ∈ s.seqs → exec (.faxHomeServe (.peer p false)) s = .next s) ∧
      ((false, H.src, H.seq) ∉ s.seqs → ∃ seqs, (false, H.src, H.seq) ∈ seqs ∧
        (reason ≠ 0 → ∃ n, exec (.faxHomeServe (.peer p false)) s = .next
          (State.post { s with seqs := seqs, freeCount := n }
            { kind := 2, reply := true, dst := H.src, data := [H.win, reason, x.1], win := H.win, lanes := [x.1], job := H.job,
              queue := H.queue, rcnt := H.rcnt })) ∧
        (reason = 0 → ∀ u pa, State.homePlace s e op x.2.1 = some (u, pa) →
          FaxOp.onForest op = false → Memory.uncorrectable u.main pa (FaxOp.size op) = false →
          ∃ id, exec (.faxHomeServe (.peer p false)) s = .next
            { s with seqs := seqs, freeCount := s.freeCount + 1,
                     homes := [{ id := id, src := .peer H.src H.queue H.rcnt, job := H.job, off := 0, passed := 0,
                                 win := H.win, op := op, todo := [x], answers := [] }] }))) ∧
    (∀ src q c n, s.homes = [h] → h.src = .peer src q c → h.todo = [x] → h.answers = [] → h.op = .st n →
      ∀ u pa, State.homePlace s (State.window s h.win) (.st n) x.2.1 = some (u, pa) →
      State.inForest s pa n = false → Memory.uncorrectable s.main pa n = false →
      ∃ tlb, exec (.faxHomeServe (.lane h.id x.1)) s = .next (State.post
        { s with tlb := tlb, homes := [], main := Memory.write s.main pa n x.2.2.1 }
        { kind := 2, reply := true, dst := src, data := [h.win, 0, x.1], win := h.win, lanes := [x.1], job := h.job, queue := q,
          rcnt := c }))) ∧
  (∀ (s : State) (x n : Nat), s.winRegs.pending = some x → n = bits x 15 8 →
    let y := s.winRegs.arg1 * 2 ^ 64 + s.winRegs.arg0
    let e := State.window s n
    let done (s : State) (st : Nat) : State :=
      { s with winRegs := { s.winRegs with pending := none, res := st } }
    let bad := bits y 127 64 % 2 ^ 16 ≠ 0 ∨ 2 ^ 57 ≤ bits y 127 64 ∨ 1 < bits y 3 2
    (x % 256 = 1 → bad → exec .writeWindow s = .next (done s 1)) ∧
    (x % 256 = 1 → ¬ bad → e.valid = true → exec .writeWindow s = .next (done s 2)) ∧
    let put (f : Window) : State := { s with windows := AMap.set s.windows n f }
    (x % 256 = 1 → ¬ bad → e.valid = false → ∃ past, exec .writeWindow s = .next (done (put
        ⟨bits y 127 64, bits y 63 48, bits y 47 32, bits y 31 16, bits y 15 11, bits y 3 2,
         decide (bits y 1 1 = 1), decide (bits y 0 0 = 1), past, false⟩) 0)) ∧
    (x % 256 = 2 → exec .revoke s = .next (put { e with revoking := true })) ∧
    (x % 256 = 2 → e.revoking = true → (∀ h, h ∈ s.homes → h.win ≠ n) →
      exec .revokeComplete s = .next (done (put { e with revoking := false, valid := false }) 0)) ∧
    (x % 256 = 2 → ∀ h, h ∈ s.homes → h.win = n → exec .revokeComplete s = .next s))

/-- FGRP edits a group on every switch chip, FMC sends a line whose record gathers the members' answers,
FACK reads the record, and FQUIET waits for FB. FGRP traps with FXPRIV outside a permitted context,
with FXWORD for a group above 255, with ALIGN for a bitmap that is no multiple of 64 and with
SCBOUND for one outside the allocation, in this order; else, with a correctable bitmap, it answers 1
for bit 511, or sets, merges or clears the group's entry and waits for the 32 chips, of which
GROUP_TABLE_UPDATE takes each once: after the last it answers 0, or 2 if one failed, where no later
instruction has written its register. FMC traps with FXWORD for a bad group word or space, ALIGN for
its source or its offset, SHBOUND or SCBOUND, and FXNOREC without a free record, in this order;
which word TVAL names is log 24 (DEDUCED). With a free record and room on FB it captures its line,
issues one request and answers the record. MULTICAST_REPLICATE waits behind an earlier line of the
warp with its group, window and offset, and behind one that has not left; else it sends the line,
numbered, to a live chip that holds the last edit, gives the record that chip's members, and sends
the line in one unicast packet to each member whose port to the chip is down; where no path leads to
such a chip, the members are those of the entry and all get unicast packets (log 96, DESIGN CHOICE;
the form of these packets log 105, DESIGN CHOICE); the members' answers count as stored or are
listed, and the last completes the record and its request. MULTICAST_LINE_SERVE accepts this
device's own line, a peer's line and a peer's unicast line, once, or answers the reason for all of
it. FACK answers a complete record's page, page 3 freeing it, and waits before; with no record it
traps. FQUIET with no runs and nothing on FB completes. (R292, R299, R300, R301, R302, R303,
19_fabric.md) -/
def Obligations.MulticastWorks : Prop :=
  (∀ (s : State) (c : Ctx) (d a b m page : Nat), State.ctx? s = some c →
    let W := c.warp
    let asid := State.asidOf s W
    let n := (Warp.s W a).toNat
    let x := (Warp.s W b).toNat
    let p := State.placeOf s W .scratch x
    let bm := State.readPlace s c.w p 64
    let G := State.group s (State.jobOf s asid) n
    (W.mtouch = [] → State.mayGroup s asid = true → n < 256 → x % 64 = 0 → State.chipRange s W .scratch x 64 = none →
      State.badPlace s c.w p 64 = false → ∀ i f, (i, f) ∈ ([(.fgrpSet d a b, fun _ m => m),
        (.fgrpOr d a b, fun g m => g ||| m), (.fgrpClear d a b, fun g m => g &&& (2 ^ 512 - 1 - m))] :
        List (Instr × (Nat → Nat → Nat))) →
      (bm.testBit 511 = true → yields (exec i s) s c 1 d 1) ∧
      let H : Group := { G with entry := f G.entry bm }
      (bm.testBit 511 = false →
        waits (exec i s) { s with groups := AMap.set s.groups (256 * State.jobOf s asid + n) H } c
          (.fgrp d (State.jobOf s asid) n (f G.entry bm) []))) ∧
    (State.mayGroup s asid = false → Ctx.mayTrap c → ∀ i, i ∈ [Instr.fgrpSet d a b, .fgrpOr d a b,
      .fgrpClear d a b] → traps (exec i s) s c (9 * 64 + 3) 0) ∧
    (State.mayGroup s asid = true → Ctx.mayTrap c → ∀ i, i ∈ [Instr.fgrpSet d a b, .fgrpOr d a b, .fgrpClear d a b] →
      (256 ≤ n → traps (exec i s) s c (9 * 64 + 2) (dword n)) ∧
      (n < 256 → x % 64 ≠ 0 → traps (exec i s) s c (3 * 64 + 5) (dword x)) ∧
      (∀ g, n < 256 → x % 64 = 0 → State.gridOf? s W = some g → g.scrLen < x + 64 →
        traps (exec i s) s c (3 * 64 + 1) (dword x))) ∧
    (Ctx.mayTrap c →
      let off := (Warp.s W (b + 1)).toNat
      let len := 32 * (m + 1)
      let fails (cause tval : Nat) : Prop := traps (exec (.fmc d a b m) s) s c cause (dword tval)
      (2 ^ 16 ≤ n → fails (9 * 64 + 2) n) ∧ (n < 2 ^ 16 → 1 < bits x 31 28 → fails (9 * 64 + 2) x) ∧
      (n < 2 ^ 16 → bits x 31 28 ≤ 1 →
        (bits x 27 0 % 32 ≠ 0 → fails (3 * 64 + 5) x) ∧
        (bits x 27 0 % 32 = 0 → off % 32 ≠ 0 → fails (3 * 64 + 5) off) ∧
        (bits x 27 0 % 32 = 0 → off % 32 = 0 →
          let lies : Prop := if bits x 31 28 = 0
            then ∃ t o l, State.sharedAt s W (bits x 27 0) = some (t, o, l) ∧ o + len ≤ l
            else ∃ g, State.gridOf? s W = some g ∧ bits x 27 0 + len ≤ g.scrLen
          (¬ lies → fails (3 * 64 + bits x 31 28) x) ∧
          (lies → (∀ k, k < 8 → AMap.get? W.mrecs k ≠ none) → fails (9 * 64 + 6) 0)))) ∧
    (let off := (Warp.s W (b + 1)).toNat
      let len := 32 * (m + 1)
      ∀ sp k, (bits x 31 28 = 0 ∧ sp = Space.shared ∨ bits x 31 28 = 1 ∧ sp = .scratch) → n < 2 ^ 16 →
        bits x 27 0 % 32 = 0 → off % 32 = 0 → State.chipRange s W sp (bits x 27 0) len = none →
        W.reqs = [] → W.mtouch = [] → k < 8 → AMap.get? W.mrecs k = none → (∀ j, j < k → AMap.get? W.mrecs j ≠ none) →
        let q := State.placeOf s W sp (bits x 27 0)
        State.badLine s c.w W sp (bits x 27 0) len = none →
        yieldsOn (exec (.fmc d a b m) s) s c 1 d (word k) fun V =>
          Warp.issued { V with mrecs := AMap.set V.mrecs k ⟨V.nextReq, State.jobOf s asid, bits n 7 0,
            bits n 15 8, off, len, State.readPlace s c.w q len, none, [], 0, 0, [], false⟩ }
          (Warp.newReq V .fb (.fmc k))) ∧
    (∀ R, AMap.get? W.mrecs (n % 8) = some R →
      (R.done = false → waits (exec (.fack d a page) s) s c (.fack (n % 8))) ∧
      (R.done = true → ∃ t V, exec (.fack d a page) s = .next t ∧ onlyWarp s t c.w V ∧ sameBytes s t ∧
        V = { W with sregs := V.sregs, owed := V.owed, frags := (Warp.arrive W c.slot (c.frag.pc + 4)).frags,
                     mrecs := if page = 3 then AMap.erase W.mrecs (n % 8) else W.mrecs } ∧
        (∀ k v, (MRec.page R page)[k]? = some v → Warp.s V (d + k) = if d + k = 0 then 0 else v) ∧
        ∀ q, q < d ∨ d + 4 ≤ q → Warp.s V q = Warp.s W q ∧ AMap.get? V.owed q = AMap.get? W.owed q)) ∧
    (AMap.get? W.mrecs (n % 8) = none → Ctx.mayTrap c →
      traps (exec (.fack d a page) s) s c (9 * 64 + 4) (dword (n % 8))) ∧
    (W.queue = [] → W.exec = none → W.laneTrap = none → Warp.fabricTrap W = false →
      ((∀ r, r ∈ W.reqs → r.path ≠ .fb) → passes (exec .fquiet s) s c 1) ∧
      (∀ r, r ∈ W.reqs → r.path = .fb → waits (exec .fquiet s) s c (.fquiet W.nextRun)))) ∧
  (∀ (s : State) (c : Ctx) (d job n g chip : Nat) (acks : List (Nat × Bool)) (ack : Bool), Ctx.stands c s →
    c.frag.wait = .fgrp d job n g acks → Ctx.owns c d → chip < 32 → (∀ k, k ∈ acks → k.1 ≠ chip) →
    ∃ G E old, AMap.get? G (256 * job + n) = some E ∧
      E.chips = (State.group s job n).chips.set chip (if ack then (g, true) else (old, false)) ∧
      (∀ k b, k < 256 * job + n ∨ 256 * job + n < k → AMap.get? s.groups k = some b → AMap.get? G k = some b) ∧
      (acks.length < 31 → waits (exec (.groupTableUpdate c.w c.slot chip ack) s) { s with groups := G } c
        (.fgrp d job n g (acks ++ [(chip, ack)]))) ∧
      (acks.length = 31 → yields (exec (.groupTableUpdate c.w c.slot chip ack) s) { s with groups := G } c 1 d
        (if ack && acks.all (·.2) then 0 else 2))) ∧
  (∀ (s : State) (w rc dev reason : Nat) (W : Warp) (m : MRec) (r : Req), s.warps[w]? = some W →
    AMap.get? W.mrecs rc = some m → m.done = false → W.reqs = [r] → r.id = m.req → r.op = .fmc rc → r.done = false →
    let now (m : MRec) (reqs : List Req) : State := State.setWarp s w
      { W with mrecs := AMap.set W.mrecs rc m, reqs := reqs }
    let G := State.group s m.job m.group
    let lanes : List Nat := List.range (m.len / 32)
    let sends (chip : Nat) (members : Nat) (near : Nat → Bool) (first : List Sent) : Prop :=
      let left := (List.range 511).filter (Nat.testBit members)
      let q : MRec := { m with chip := some chip, left := left, members := left.length, done := decide (left = []) }
      ∃ u rest, exec (.multicastReplicate w rc chip) s = .next (State.setWarp u w
          { W with mrecs := AMap.set W.mrecs rc q, reqs := if left = [] then [] else [r] }) ∧
        u = { s with sent := s.sent ++ first ++ rest, unsent := u.unsent, seqOut := u.seqOut, ports := u.ports,
                     reports := u.reports } ∧
        (∀ p, p ∈ rest ++ u.unsent → p.kind = 1 ∧ p.win = m.win ∧ p.block = m.off / 256 ∧ p.owner = some (w, m.req) ∧
          p.job = m.job ∧ p.dst ∈ left ∧ p.dst ≠ s.fabid ∧ near p.dst = false ∧ p.lanes = lanes ∧ p.bytes = m.len ∧
          p.data = m.win :: 2 :: 31 :: lanes.flatMap fun k =>
            [k, m.off + 32 * k, m.line / 2 ^ (256 * k) % 2 ^ 256, 0]) ∧
        (∀ d, d ∈ left → d ≠ s.fabid → near d = false → ∃ p, p ∈ rest ++ u.unsent ∧ p.dst = d) ∧
        ((∀ d, d ∈ left → d ≠ s.fabid → near d = true) → first ≠ [] → AMap.get? u.ports chip = some
          (Port.count ((AMap.get? s.ports chip).getD Port.zero) (1 + (m.len + 63) / 64)))
    (m.chip = none → (∀ e, e ∈ W.mrecs → e.2.req < m.req → e.2.group = m.group → e.2.win = m.win → e.2.off = m.off →
        e.2.done = false → e.2.chip = none → ∀ k, exec (.multicastReplicate w rc k) s = .next s) ∧
      ((∃ o, o ∈ s.unsent ∧ o.kind = 3 ∧ o.data.head? = some m.group ∧ o.win = m.win ∧ o.block = m.off / 256) →
        ∀ k, exec (.multicastReplicate w rc k) s = .next s)) ∧
    (m.chip = none → s.unsent = [] → (∀ e, e ∈ W.mrecs → ¬ (e.2.req < m.req ∧ e.2.group = m.group ∧
        e.2.win = m.win ∧ e.2.off = m.off ∧ e.2.done = false)) →
      (∀ o, o ∈ s.sent → o.kind ∈ [1, 3] → o.win = m.win → o.block = m.off / 256 →
        State.unanswered s o = false ∧ o.owner ≠ some (w, m.req)) →
      (∀ k P, AMap.get? s.ports k = some P → P.counter + (1 + (m.len + 63) / 64) ≤ 2 ^ 36 - 2) →
      let seq := (AMap.get? s.seqOut 512).getD 0
      let queue := ((State.gridOf? s W).bind (·.queue)).getD 0
      (State.chips s m.job m.group ≠ [] → ∃ chip members P, State.livePort s chip = true ∧
        AMap.get? s.ports chip = some P ∧ G.chips[chip]? = some (members, true) ∧
        (∀ k, k ≠ chip → exec (.multicastReplicate w rc k) s = .next s) ∧
        sends chip members (fun d => ((AMap.get? s.peers d).getD 0).testBit chip)
          [{ kind := 3, dst := 0, data := [m.group, m.win, m.off, m.line], win := m.win, block := m.off / 256,
             bytes := m.len, job := m.job, queue := queue, rcnt := (State.queue s queue).rcnt, seq := seq,
             port := some chip, ver := P.version, owner := some (w, m.req) }]) ∧
      (State.chips s m.job m.group = [] → sends 32 G.entry (fun _ => false) [] ∧
        ∀ k, k ≠ 32 → exec (.multicastReplicate w rc k) s = .next s)) ∧
    (dev ∈ m.left → dev ≠ s.fabid → s.unsent = [] → reason ≤ 8 → (State.reachable s dev = false ↔ reason = 7) →
      let left := m.left.filter (· ≠ dev)
      let q (neg : List (Nat × Nat)) : MRec :=
        { m with left := left, done := decide (left = []), neg := neg,
                 pos := m.pos + (if reason = 0 then 1 else 0) }
      ∃ neg, exec (.multicastAggregate w rc dev reason) s =
          .next (now (q neg) (if left = [] then [] else [r])) ∧
        (reason = 0 → neg = m.neg) ∧ (reason ≠ 0 → (dev, reason) ∈ neg ∧ neg.length = m.neg.length + 1)) ∧
    (s.fabid ∈ m.left → s.homes = [] → (∀ e, e ∈ W.mrecs → e.2 = m) →
      let lanes := (List.range (m.len / 32)).map fun k =>
        (k, m.off + 32 * k, m.line / 2 ^ (256 * k) % 2 ^ 256, 0)
      Window.check (State.window s m.win) m.job (.st 32) m.off m.len false = 0 → (∀ x, x ∈ lanes →
        ∃ u pa, State.homePlace s (State.window s m.win) (.st 32) x.2.1 = some (u, pa) ∧
          Memory.uncorrectable u.main pa 32 = false) →
      ∃ id, exec (.multicastLineServe (.own w rc false)) s = .next
        { s with freeCount := s.freeCount + 1,
                 homes := [{ id := id, src := .ownLine w rc, job := m.job, off := m.off, passed := 0, win := m.win,
                             op := .st 32, todo := lanes, answers := [] }] })) ∧
  (∀ (s : State) (h : PktHdr) (win off : Nat) (bytes : List Byte), s.homes = [] →
    ((AMap.get? s.ports h.port).getD Port.zero).up = true → h.tagOk = true → h.ver = 1 ∨ h.ver = 2 →
    State.outdated s h.src h.queue h.rcnt = false → ∀ i src v line, (i, h.kind, src, v, line) ∈
      [(McLine.peer h win off bytes false, 3, HomeSrc.peerLine h.src h.queue h.rcnt h.win, win, true),
       (.unicast h off bytes false, 1, .peer h.src h.queue h.rcnt, h.win, false)] →
    let lanes := (List.range (bytes.length / 32)).map fun k =>
      (k, off + 32 * k, numOfBytes bytes / 2 ^ (256 * k) % 2 ^ 256, 0)
    let reason := Window.check (State.window s v) h.job (.st 32) off bytes.length false
    ((line, h.src, h.seq) ∈ s.seqs → exec (.multicastLineServe i) s = .next s) ∧
    ((line, h.src, h.seq) ∉ s.seqs → ∃ seqs, (line, h.src, h.seq) ∈ seqs ∧
      (reason ≠ 0 → 32 ≤ bytes.length → exec (.multicastLineServe i) s = .next (State.post { s with seqs := seqs }
        (if line then
          { kind := 4, reply := true, dst := h.src, win := h.win, job := h.job, queue := h.queue, rcnt := h.rcnt,
            data := [h.win, reason] }
        else { kind := 2, reply := true, dst := h.src, win := h.win, lanes := List.range (bytes.length / 32), job := h.job,
               queue := h.queue, rcnt := h.rcnt,
               data := h.win :: reason :: List.range (bytes.length / 32) }))) ∧
      (reason = 0 → (∀ x, x ∈ lanes → ∃ u pa, State.homePlace s (State.window s v) (.st 32) x.2.1 = some (u, pa) ∧
          Memory.uncorrectable u.main pa 32 = false) →
        ∃ id, exec (.multicastLineServe i) s = .next
          { s with seqs := seqs, freeCount := s.freeCount + 1,
                   homes := [{ id := id, src := src, job := h.job, off := off, passed := 0, win := v, op := .st 32,
                               todo := lanes, answers := [] }] })))

/-- Ports fail and train, hints come and lapse, lateness is reported, a peer's reset is honoured, and
keys are installed and wear out. PORT_FAILURE marks a port of this device, or of a peer, down, and
what had been sent over its paths and no answer has acknowledged is sent again on another live path,
with its SEQ, or waits for one. LINK_TRAINING with a version and a device number that exist marks
the port up and gives the device its number, or marks a peer's port up. STALL_HINT adds a hint for a
port and peer, and STALL_HINT_LAPSE removes it. LATE_REQUEST adds an entry and a report with the
peer and the SEQ of the request's packet that has still to be answered, and does nothing without
one; LATEREP_READ takes the oldest entry, and reads 0 without one. RESET_NOTICE records the peer's
count, drops the peer's accepted packets and its token whose WSEQ is due from before it and sends
the acknowledgement; RESET_NOTICE_ACK takes a peer from those that a queue waits for. KEY_INSTALL,
when one is asked for, takes the next key with a counter of 0 and no alarm; KEY_ALARM raises the
alarm at 2^35 and reports it; KEY_EXHAUSTED stops the port. A packet takes the next SEQ of its
destination and leaves by a port of this device that is up and sends and by which the peer's port is
up too, with that link's version, whose counter rises by its flits; while there is none, or an
earlier packet along with it has not left, or is unacknowledged and was sent again or by no path
that is live now, it waits; a port that its flits would bring past 2^36 - 2 stops, and the packet
goes by another path or waits. The KIND of an acknowledgement follows log 68 (DEDUCED), a key's
clearing of the alarm log 41, the comparison of reset counts log 40 (DEDUCED), the events of a
counter log 97 and what counts as acknowledged log 96 (DESIGN CHOICE). (R287, R288, R289, R292,
R304, R305, R306, R307, 19_fabric.md) -/
def Obligations.FabricEventsAct : Prop :=
  (∀ (s : State) (peer port : Nat), port < 32 →
    let P := (AMap.get? s.ports port).getD Port.zero
    let put (s : State) (P : Port) : State := { s with ports := AMap.set s.ports port P }
    let fits (u : State) (p : Sent) : Prop := ∀ k Q, k ∈ State.paths u p.dst → AMap.get? u.ports k = some Q →
      Q.counter + (1 + (p.bytes + 63) / 64) ≤ 2 ^ 36 - 2
    ((∀ p, p ∈ s.sent → p.port = some port → State.unanswered s p = false) →
      ∃ sent, exec (.portFailure ⟨port, none⟩) s = .next { put s { P with up := false } with sent := sent }) ∧
    (∀ p, s.sent = [p] → p.port = some port → State.unanswered s p = true → s.unsent = [] → ∃ t,
      let u : State := put s { P with up := false }
      exec (.portFailure ⟨port, none⟩) s = .next t ∧
      (∀ q, AMap.get? t.ports port = some q → q.up = false) ∧
      (State.paths u p.dst = [] → p.kind ≠ 3 → ∃ q, t.unsent = [{ p with port := q, again := true }]) ∧
      (State.paths u p.dst ≠ [] → p.kind ≠ 3 → fits u p → ∃ k V, k ≠ port ∧ k ∈ State.paths u p.dst ∧
        { p with port := some k, ver := V, again := true } ∈ t.sent)) ∧
    (∀ d, d < 511 → let old := (AMap.get? s.peers d).getD 0
      (old.testBit port = false → exec (.portFailure ⟨port, some d⟩) s = .next s) ∧
      (old.testBit port = true → (∀ V e, V ∈ s.warps → e ∈ V.mrecs → e.2.done = true ∨ e.2.chip ≠ some port ∨
          d ∉ e.2.left) → ∃ up : Nat, up.testBit port = false ∧ (∀ k, k ≠ port → up.testBit k = old.testBit k) ∧
        ((∀ p, p ∈ s.sent → p.port = some port → p.kind ≠ 3 → p.dst = d → State.unanswered s p = false) →
          ∃ sent, exec (.portFailure ⟨port, some d⟩) s = .next { s with peers := AMap.set s.peers d up, sent := sent }) ∧
        (∀ p, s.sent = [p] → p.port = some port → p.kind ≠ 3 → p.dst = d → State.unanswered s p = true → s.unsent = [] →
          let u : State := { s with peers := AMap.set s.peers d up }
          ∃ t, exec (.portFailure ⟨port, some d⟩) s = .next t ∧
            (State.paths u d = [] → ∃ q, t.unsent = [{ p with port := q, again := true }]) ∧
            (State.paths u d ≠ [] → fits u p → ∃ k V, k ≠ port ∧ k ∈ State.paths u d ∧
              { p with port := some k, ver := V, again := true } ∈ t.sent)))) ∧
    (s.unsent = [] → ∀ v dev, dev ≤ 510 → v = 1 ∨ v = 2 →
      exec (.linkTraining ⟨port, none⟩ v dev) s =
        .next (put { s with fabid := dev, island := { s.island with dev := dev } } { P with up := true, version := v }) ∧
      ∀ d, d < 511 → ∃ up : Nat, up.testBit port = true ∧
        (∀ k, k ≠ port → up.testBit k = ((AMap.get? s.peers d).getD 0).testBit k) ∧
        exec (.linkTraining ⟨port, some d⟩ v dev) s = .next { s with peers := AMap.set s.peers d up }) ∧
    ((port, peer) ∉ s.hints → exec (.stallHint port peer) s = .next { s with hints := s.hints ++ [(port, peer)] }) ∧
    (∃ hints, exec (.stallHintLapse port peer) s = .next { s with hints := hints } ∧
      ∀ x, x ∈ hints ↔ x ∈ s.hints ∧ x ≠ (port, peer)) ∧
    (∀ (w id : Nat) (p : Sent), s.sent = [p] → p.owner = some (w, id) → State.unanswered s p = true → p.kind ≠ 3 →
      exec (.lateRequest w id) s = .next
        { s with laterep := s.laterep ++ [p.dst * 2 ^ 32 + p.seq],
                 reports := s.reports ++ [⟨.late, [p.dst, p.seq]⟩] }) ∧
    (∀ (w id : Nat), (∀ p, p ∈ s.sent → p.owner = some (w, id) → State.unanswered s p = false) →
      exec (.lateRequest w id) s = .next s) ∧
    (s.laterep = [] → exec .laterepRead s = .next { s with supRead := 0 }) ∧
    (∀ x rest, s.laterep = x :: rest →
      exec .laterepRead s = .next { s with supRead := 2 ^ 63 + x, laterep := rest }) ∧
    (∀ q n, ∃ homes streams, exec (.resetNotice peer q n) s = .next (State.post
        { s with notices := AMap.set s.notices (256 * peer + q) n, homes := homes, streams := streams }
        { kind := 8, reply := true, dst := peer, data := [q, n], queue := q, rcnt := n }) ∧
      (∀ k e, AMap.get? s.streams k = some e →
        (e.due = false ∨ e.reply = none → AMap.get? streams k = some e) ∧
        (∀ h, e.due = true → e.reply = some h → h.src = peer → h.queue = q → (h.rcnt + 1) % 2 ^ 16 = n → n < 2 ^ 16 →
          h.rcnt < 2 ^ 16 → AMap.get? streams k = some { e with due := false, reply := none, warp := none,
                                                                wseq := (e.wseq + 2 ^ 32 - 1) % 2 ^ 32 })) ∧
      (∀ h, h ∈ homes → h ∈ s.homes) ∧
      (∀ h w id, h ∈ s.homes → h.src = .own w id → h ∈ homes) ∧
      ∀ h c, h.src = .peer peer q c → (c + 1) % 2 ^ 16 = n → n < 2 ^ 16 → c < 2 ^ 16 → h ∉ homes) ∧
    (s.unsent = [] → ∀ q, ∃ Q, exec (.resetNoticeAck peer q) s = .next { s with queues := AMap.set s.queues q Q } ∧
      peer ∉ Q.unacked ∧ ∀ x, x ≠ peer → (x ∈ Q.unacked ↔ x ∈ (State.queue s q).unacked)) ∧
    let fresh : Port :=
      { P with want := false, key := P.keyNext, counter := 0, alarm := false, stopped := false }
    (P.want = true → s.unsent = [] → exec (.keyInstall port) s = .next (put s fresh)) ∧
    (P.up = true → P.counter < 2 ^ 35 → exec (.keyAlarm port) s = .next (put
      { s with reports := s.reports ++ [⟨.keyAlarm, [port]⟩] } { P with counter := 2 ^ 35, alarm := true })) ∧
    (P.alarm = true → P.stopped = false → exec (.keyExhausted port) s =
      .next (put s { P with counter := 2 ^ 36 - 2, stopped := true }))) ∧
  (∀ (s : State) (p : Sent), p.kind ≠ 3 →
    let seq := (AMap.get? s.seqOut p.dst).getD 0
    let next := AMap.set s.seqOut p.dst ((seq + 1) % 2 ^ 32)
    (State.paths s p.dst = [] →
      State.post s p = { s with seqOut := next, unsent := s.unsent ++ [{ p with seq := seq }] }) ∧
    let flits := 1 + (p.bytes + 63) / 64
    let along (o : Sent) : Prop := o.kind = p.kind ∧ o.dst = p.dst ∧ o.win = p.win ∧ o.block = p.block
    (p.again = false → (∃ o, o ∈ s.unsent ∧ along o) ∨ (∃ o, o ∈ s.sent ∧ along o ∧ State.unanswered s o = true ∧
        (o.again = true ∨ ∀ k, o.port = some k → k ∉ State.paths s p.dst)) →
      State.post s p = { s with seqOut := next, unsent := s.unsent ++ [{ p with seq := seq }] }) ∧
    (s.unsent = [] → (∀ o, o ∈ s.sent → along o → State.unanswered s o = false) →
      (State.paths s p.dst ≠ [] → (∀ k P, k ∈ State.paths s p.dst → AMap.get? s.ports k = some P →
          P.counter + flits ≤ 2 ^ 36 - 2) →
        ∃ port P t, port ∈ State.paths s p.dst ∧ AMap.get? s.ports port = some P ∧ State.post s p = t ∧
          t = { s with sent := s.sent ++ [{ p with seq := seq, port := some port, ver := P.version }], seqOut := next,
                       ports := t.ports, reports := t.reports } ∧
          AMap.get? t.ports port = some (Port.count P flits)) ∧
      (∀ port P, State.paths s p.dst = [port] → AMap.get? s.ports port = some P → 2 ^ 36 - 2 < P.counter + flits →
        ∃ t, State.post s p = t ∧
          t = { s with unsent := [{ p with seq := seq, again := true }], seqOut := next, ports := t.ports,
                       reports := t.reports } ∧
          ∃ Q, AMap.get? t.ports port = some Q ∧ Q.stopped = true ∧ Q.counter = 2 ^ 36 - 2))) ∧
  (∀ (s : State) (d port : Nat), port ∈ State.paths s d ↔ port < 32 ∧
    (∃ P, AMap.get? s.ports port = some P ∧ P.up = true ∧ P.stopped = false) ∧
    ((AMap.get? s.peers d).getD 0).testBit port = true)

/-- RDSR and WRSR follow each register's access rule; services wait for the supervisor's status; SSAVE,
SREST, EVSEL and EVRD act as stated. RDSR reads each register of the map as its field says; CYC
reads some value and captures another for CYCH. WRSR replaces TVEC, SPTR, TSBASE, TSBASEH, SVCH and
the TRET banks, keeps only the defined bit of TCTL, clears the bits of MSTAT that are written as
ones, changes SKIP, the mask and the arguments of a TRQ entry and nothing else of it, and leaves
every read-only register. SVC PAGEIN and SVC NOTE report and wait; the reply writes PAGEIN's status
of 0 to 2, and 0 for NOTE, where no later instruction has written the register. SSAVE, with no
request and no handle fetch of the warp under way, at an address that is a multiple of 512 and that
the TLB maps writable, writes s0 to s127 there and no other byte; SREST reads s1 to s127 back. In a
granted context EVSEL selects and clears a counter and EVRD reads its 48 bits; otherwise EVSEL does
nothing and EVRD reads 0. The supervisor's other acts change what they name. Those acts follow log
48 (DESIGN CHOICE), the zeros of a bound ring log 49 (DEDUCED), and CYC's values log 13 (DESIGN
CHOICE). (R321, R322, R323, R324, R365, R276, R179, 21_traps_and_translation.md) -/
def Obligations.SystemRegistersAndServices : Prop :=
  (∀ (s : State) (c : Ctx) (d a : Nat), State.ctx? s = some c →
    let W := c.warp
    let A := Warp.s W a
    let reads (r : Nat) (v : Word) : Prop := yields (exec (.rdsr d r) s) s c 1 d v
    let sets (r : Nat) (f : Warp → Warp) : Prop := passesOn (exec (.wrsr a r) s) s c 1 f
    (reads 0 W.tvec ∧ reads 1 W.tctl ∧ reads 2 (word (W.tlev + if W.idem then 4 else 0)) ∧ reads 3 W.sptr ∧
      reads 4 W.mstat ∧ reads 6 W.cych ∧ reads 7 (word (State.asidOf s W % 2 ^ 16)) ∧ reads 8 W.tsbase ∧
      reads 9 W.tsbaseh ∧ reads 0xA W.svch) ∧
    (∀ b x, (b, x) ∈ [(W.bank1, 0x10), (W.bank2, 0x20)] → reads x b.tcause ∧ reads (x + 1) b.tret ∧
      reads (x + 2) b.tval ∧ reads (x + 3) b.tvalh ∧ reads (x + 4) b.tmask) ∧
    (∀ b x e t, (b, x) ∈ [(W.bank1, 0x40), (W.bank2, 0x60)] → e < 4 → b.trq[e]? = some t →
      reads (x + 8 * e) (word ((if t.valid then 2 ^ 31 else 0) + (if t.skip then 2 ^ 30 else 0) +
        (if t.trapped then 2 ^ 29 else 0) + t.entry.await * 2 ^ 17 + t.entry.run)) ∧
      reads (x + 8 * e + 1) t.entry.mask ∧
      ∀ k, k < 4 → reads (x + 8 * e + 2 + k) ((t.entry.args[k]?).getD 0)) ∧
    (∃ v hi, yieldsOn (exec (.rdsr d 5) s) { s with freeCount := s.freeCount + 2 } c 1 d v
      fun V => { V with cych := hi }) ∧
    sets 0 (fun V => { V with tvec := A }) ∧ sets 1 (fun V => { V with tctl := A &&& 1 }) ∧
    sets 3 (fun V => { V with sptr := A }) ∧ sets 4 (fun V => { V with mstat := V.mstat &&& ~~~A }) ∧
    sets 8 (fun V => { V with tsbase := A }) ∧ sets 9 (fun V => { V with tsbaseh := A }) ∧
    sets 0xA (fun V => { V with svch := A }) ∧
    sets 0x11 (fun V => { V with bank1 := { V.bank1 with tret := A } }) ∧
    sets 0x21 (fun V => { V with bank2 := { V.bank2 with tret := A } }) ∧
    (∀ r, r ∈ [2, 5, 6, 7, 0x10, 0x12, 0x13, 0x14, 0x20, 0x22, 0x23, 0x24] → sets r id) ∧
    (∀ e t, W.bank2.trq.length = 4 → W.bank2.trq[e]? = some t →
      let put (t : TrqEntry) (V : Warp) : Warp := { V with bank2 := { V.bank2 with trq := V.bank2.trq.set e t } }
      sets (0x60 + 8 * e) (put { t with skip := A.getLsbD 30 }) ∧
      sets (0x60 + 8 * e + 1) (put { t with entry := { t.entry with mask := A } }) ∧
      ∀ k, k < 4 → sets (0x60 + 8 * e + 2 + k)
        (put { t with entry := { t.entry with args := t.entry.args.set k A } })) ∧
    (∀ e t, W.bank1.trq.length = 4 → W.bank1.trq[e]? = some t →
      let put (t : TrqEntry) (V : Warp) : Warp := { V with bank1 := { V.bank1 with trq := V.bank1.trq.set e t } }
      sets (0x40 + 8 * e) (put { t with skip := A.getLsbD 30 }) ∧
      sets (0x40 + 8 * e + 1) (put { t with entry := { t.entry with mask := A } }) ∧
      ∀ k, k < 4 → sets (0x40 + 8 * e + 2 + k)
        (put { t with entry := { t.entry with args := t.entry.args.set k A } })) ∧
    waits (exec (.svcPagein d a) s) { s with reports := s.reports ++
      [⟨.pagein, [c.w, c.slot, W.svch.toNat * 2 ^ 32 + A.toNat]⟩] } c (.svc d false) ∧
    waits (exec (.svcNote d a) s) { s with reports := s.reports ++
      [⟨.note, [c.w, c.slot, A.toNat]⟩] } c (.svc d true) ∧
    (∀ k status, Ctx.owns c k →
      (c.frag.wait = .svc k false → status ≤ 2 →
        yields (exec (.supervisorReply (.svc c.w c.slot status)) s) s c 1 k (word status)) ∧
      (c.frag.wait = .svc k true →
        yields (exec (.supervisorReply (.svc c.w c.slot status)) s) s c 1 k 0)) ∧
    (let core := State.coreOf s W
     let asid := State.asidOf s W
     let cs := (AMap.get? s.events core).getD (List.replicate 8 ⟨none, 0, 0⟩)
     (∀ k, (core, asid) ∉ s.grants → passes (exec (.evsel k a) s) s c 1) ∧
     (∀ k, (core, asid) ∈ s.grants →
       let e : EvCounter := ⟨if A.toNat ≤ 9 then some A.toNat else none, 0, asid⟩
       passes (exec (.evsel k a) s) { s with events := AMap.set s.events core (cs.set k e) } c 1) ∧
     (∀ k e, (core, asid) ∈ s.grants → cs[k]? = some e → (∀ x, e.source = some x → 1 ≤ x ∧ x ≤ 6 ∨ x = 8) →
       let v := if e.source = none then 0 else e.count
       ∃ t V, exec (.evrd d k) s = .next t ∧ scalarFrame s t c 1 [d, d + 1] V ∧
         (Warp.s V d = if d = 0 then 0 else word (v % 2 ^ 32)) ∧ Warp.s V (d + 1) = word (v / 2 ^ 32)) ∧
     (∀ k, (core, asid) ∉ s.grants → ∃ t V n, exec (.evrd d k) s = .next t ∧
       scalarFrame { s with freeCount := n } t c 1 [d, d + 1] V ∧ Warp.s V d = 0 ∧ Warp.s V (d + 1) = 0)) ∧
    (let va := W.tsbaseh.toNat * 2 ^ 32 + W.tsbase.toNat + A.toNat
     (Ctx.mayTrap c → va % 512 ≠ 0 → traps (exec (.ssave a) s) s c (3 * 64 + 5) (dword va) ∧
       traps (exec (.srest a) s) s c (3 * 64 + 5) (dword va)) ∧
     (va % 512 = 0 → W.reqs = [] → W.mtouch = [] →
       (∀ e o, e ∈ s.arrays → o ∈ e.2.ops → o.w = c.w → MWork.handle? o.work = none) → (∀ f, f ∈ Warp.live W → ∀ l v n, f.2.wait ≠ .save l v n) →
       (∀ pa, State.lies s W (.main va) true = some (.main pa) → State.inForest s pa 512 = false →
         ∃ t V, exec (.ssave a) s = .next t ∧
         t = { s with tlb := t.tlb, main := t.main, warps := s.warps.set c.w V } ∧
         V = { W with frags := (Warp.arrive W c.slot (c.frag.pc + 4)).frags } ∧
         (∀ r, r < 128 → Memory.read t.main (pa + 4 * r) 4 = (Warp.s W r).toNat) ∧
         ∀ l, (∀ x, l = .main x → x < pa ∨ pa + 512 ≤ x) → State.byteAt t l = State.byteAt s l) ∧
       (∀ pa, State.lies s W (.main va) false = some (.main pa) → Memory.uncorrectable s.main pa 512 = false →
         State.inForest s pa 512 = false →
         ∃ t V, exec (.srest a) s = .next t ∧ sameBytes s t ∧
         t = { s with tlb := t.tlb, warps := s.warps.set c.w V } ∧
         V = { W with sregs := V.sregs, owed := V.owed, frags := (Warp.arrive W c.slot (c.frag.pc + 4)).frags } ∧
         ∀ r, 1 ≤ r → r < 128 → Warp.s V r = word (Memory.read s.main (pa + 4 * r) 4))))) ∧
  (∀ (s : State) (asid job va k off peers grid : Nat),
    exec (.supervisorReply (.job asid job)) s = .next { s with jobs := AMap.set s.jobs asid job } ∧
    (∃ maps, exec (.supervisorReply (.root asid (some va))) s =
      .next { s with roots := AMap.set s.roots asid va, execMaps := maps } ∧
      ∀ m, m ∈ maps → ∃ n, n ∈ s.execMaps ∧ m = { n with gone := m.gone } ∧ ∀ k, k ∈ n.gone → k ∈ m.gone) ∧
    (∃ t, exec (.supervisorReply (.root asid none)) s = .next t ∧ sameBytes s t ∧ AMap.get? t.roots asid = none ∧
      (∀ m, m ∈ t.execMaps ↔ m ∈ s.execMaps ∧ m.asid ≠ asid) ∧ (∀ e, e ∈ t.forests ↔ e ∈ s.forests ∧ e.2.ctx ≠ asid) ∧
      ∀ n A, AMap.get? t.contexts n = some A → AMap.get? s.contexts n = some A ∧ A.asid ≠ asid) ∧
    exec (.supervisorReply (.unbind k)) s = .next { s with streams := AMap.erase s.streams k } ∧
    (∃ maps, exec (.supervisorReply (.unmap asid va)) s = .next { s with execMaps := maps } ∧
      ∀ m, m ∈ maps ↔ m ∈ s.execMaps ∧ ¬ (m.asid = asid ∧ m.va = va)) ∧
    (∀ g, s.grids[grid]? = some g → g.status = .live → g.dies = [] ∨ 0 ∈ g.dies → off + 576 ≤ g.scrLen →
      k < 256 → off % 64 = 0 → peers.testBit 511 = false → ∃ t, exec (.supervisorReply (.bind k grid off peers)) s = .next t ∧
      AMap.get? t.streams k = some ⟨grid, off, peers, 0, false, none, none⟩ ∧ sameBytesBut s t 0 (.scratch grid 0 off) 64))

/-- A queue's packet is served in its turn with the effect of its opcode, and a bad one halts the queue.
For a queue whose turn has come with a packet that keeps its format: NOP, SIGNAL, FETCHFENCE, COPY
with a free place, a satisfied WAITSIG, and IB and IBRET that the stream allows are served, and the
queue's stream goes on behind them; SIGNAL sets its signal or adds to it modulo 2^64; FETCHFENCE
discards the prefetched packets; COPY starts a hub copy with the packet's fields; WAITSIG on an
unsatisfied signal, HARVEST until A and D have been set, and COPY without a place leave the queue
waiting; LAUNCH and NLAUNCH whose fields keep R349 append the grid that is accepted, and halt the
queue with its reason where none is, with 2 where a field is out of range and with 8 for more than
24 teams of NLAUNCH; RESET starts the queue's reset. A packet of an unknown opcode halts its queue
with reason 1, and one that breaks its format with reason 2. A packet's service goes on to the next
address of the ring or buffer; an IB opens its buffer and an IBRET closes the innermost one. That an
unknown opcode gives reason 1 whatever VER holds is log 52, and when an exhausted buffer's level
closes log 53 (both DEDUCED). (R339, R342, R343, R344, R345, R347, R349, R354,
23_queues_and_launch.md) -/
def Obligations.QueuePacketsServed : Prop :=
  (∀ (s : State) (q : Nat) (p : Packet), State.turn? s q = some p →
    let Q := State.queue s q
    let s0 := State.endTurn s q
    let goes (u t : State) : Prop := t = State.consume u q p ∧ u.queues = s.queues ∧
      ∀ N, Queue.past Q p = some N → State.queue t q =
        Queue.settle { N with pre := Q.pre.tail, harvested := false, state := .running }
    let stands (t : State) : Prop :=
      let N : Queue := { Q with state := .waiting }
      t = { s0 with tlb := t.tlb, queues := AMap.set s.queues q N }
    let ranged (p : Packet) : Prop := bits p.x 127 64 < 2 ^ 57 ∧ bits p.x 137 128 ≠ 0 ∧ bits p.x 147 138 ≠ 0 ∧
      bits p.x 157 148 ≠ 0 ∧ bits p.x 159 158 = 0 ∧ bits p.x 191 160 ≤ 4096 ∧ bits p.x 191 160 % 8 = 0 ∧
      bits p.x 255 192 < 2 ^ 57 ∧ bits p.x 319 256 < 2 ^ 57 ∧ bits p.x 319 256 % 8 = 0 ∧ bits p.x 399 396 = 0
    let halts (i : Instr) (r : Nat) : Prop := Q.state ≠ .halted → Q.state ≠ .resetting → ∃ t, exec i s = .next t ∧
      (State.queue t q).state = .halted ∧ (State.queue t q).reason = r ∧ (State.queue t q).fault = p.va
    (10 < p.op → halts (.nopPacket q) 1) ∧
    (∀ i k, (i, k) ∈ [(Instr.nopPacket q, 0), (.resetPacket q, 1), (.fetchfence q, 2), (.signal q, 3),
        (.waitsig q, 4), (.ib q, 5), (.ibret q, 6), (.launchPacket q, 7), (.nlaunch q, 8), (.copyPacket q, 9),
        (.harvest q, 10)] → p.op = k → p.ok = false → halts i 2) ∧
    (p.ok = true →
      (p.op = 7 → ¬ ranged p → halts (.launchPacket q) 2) ∧
      (p.op = 8 → ¬ ranged p → halts (.nlaunch q) 2) ∧
      (p.op = 8 → ranged p → 24 < teamCount (bits p.x 159 128) → halts (.nlaunch q) 8) ∧
      (p.op = 0 → ∃ t, exec (.nopPacket q) s = .next t ∧ goes s0 t) ∧
      (p.op = 1 → exec (.resetPacket q) s = .next (State.startReset s0 q)) ∧
      (p.op = 2 → ∃ t, exec (.fetchfence q) s = .next t ∧ sameBytes s t ∧ (State.queue t q).pre = [] ∧
        ∀ N, Queue.past Q p = some N → (State.queue t q).rptr = N.rptr ∧ (State.queue t q).base = N.base) ∧
      (∀ u pa, p.op = 3 → State.signalAt s0 .ringmaster Q.asid (bits p.x 127 64) true = .ok (u, pa) →
        State.inForest s pa 8 = false → ∃ v t, exec (.signal q) s = .next t ∧ goes v t ∧
          v = { s0 with tlb := v.tlb, main := v.main } ∧
          Memory.read t.main pa 8 = (if bits p.x 32 32 = 1 then (Memory.read s.main pa 8 + bits p.x 191 128) % 2 ^ 64
            else bits p.x 191 128) ∧
          ∀ l, (∀ x, l = .main x → x < pa ∨ pa + 8 ≤ x) → State.byteAt t l = State.byteAt s l) ∧
      (∀ u pa, p.op = 4 → State.signalAt s0 .ringmaster Q.asid (bits p.x 127 64) false = .ok (u, pa) →
        State.inForest s pa 8 = false →
        let x := Memory.read s.main pa 8
        let y := bits p.x 191 128
        let holds := match bits p.x 33 32 with
          | 0 => x = y
          | 1 => x ≠ y
          | 2 => y ≤ x
          | _ => x < y
        ∃ t, exec (.waitsig q) s = .next t ∧ sameBytes s t ∧
          (holds → ∃ v, goes v t ∧ v = { s0 with tlb := v.tlb }) ∧ (¬ holds → stands t)) ∧
      (p.op = 5 → (Queue.past Q p).isSome = true → ∃ t, exec (.ib q) s = .next t ∧ goes s0 t) ∧
      (p.op = 6 → (Queue.past Q p).isSome = true → ∃ t, exec (.ibret q) s = .next t ∧ goes s0 t) ∧
      (p.op = 10 → ∃ t, exec (.harvest q) s = .next t ∧ (Q.harvested = false → stands t) ∧
        (Q.harvested = true → goes s0 t)) ∧
      (p.op = 9 → 64 ≤ s.hubCopies.length → ∃ t, exec (.copyPacket q) s = .next t ∧ stands t) ∧
      (p.op = 9 → s.hubCopies.length < 64 → ∃ v t id, exec (.copyPacket q) s = .next t ∧ goes v t ∧
        v = { s0 with freeCount := s.freeCount + 1, hubCopies := s.hubCopies ++
          [(id, { queue := q, packet := p.va, asid := Q.asid, dst := bits p.x 127 64, src := bits p.x 191 128,
                  size := bits p.x 255 192, sigVA := bits p.x 319 256, sigVal := bits p.x 383 320, done := [],
                  stop := .running, late := false, turn := s.freeCount, moved := 0 })] }) ∧
      (∀ i nbhd v args u G, (p.op = 7 ∧ i = .launchPacket q ∧ nbhd = false ∨ p.op = 8 ∧ i = .nlaunch q ∧
          nbhd = true ∧ teamCount (bits p.x 159 128) ≤ 24) → ranged p → State.liveGrids s < 4096 →
        State.ringRead s0 Q.asid (bits p.x 255 192) (bits p.x 191 160) = .ok (v, args) →
        let offer := State.accept v (Grid.handed Q.asid 0 (bits p.x 127 64) (bits p.x 159 128) (bits p.x 395 392 + 1)
          (bits p.x 319 256) (bits p.x 383 320) p.va nbhd args (diesOf (bits p.x 391 384)) (some q) none)
        (∀ r, offer = .error (.reason r) → halts i r) ∧
        (offer = .ok (u, G) → ∃ t, exec i s = .next t ∧ goes { u with grids := s.grids ++ [G] } t ∧ t.grids = s.grids ++ [G] ∧
          G.status = .live ∧ G.queue = some q ∧ G.parent = none ∧ G.packet = p.va ∧ G.dies = diesOf (bits p.x 391 384) ∧
          G.asid = Q.asid ∧ G.nbhd = nbhd ∧ G.counts = bits p.x 159 128 ∧ G.argLen = args.length ∧ G.depth = 0)))) ∧
  (∀ (Q : Queue) (p : Packet), p.op ≠ 5 → p.op ≠ 6 →
    (Q.levels = [] → Q.rptr ≠ Q.wptr →
      Queue.past Q p = some { Q with rptr := (Q.rptr + 1) % 2 ^ 32, levels := [] }) ∧
    (∀ a n rest, Q.levels = (a, n) :: rest → 1 ≤ n →
      Queue.past Q p = some { Q with levels := (a + 64, n - 1) :: rest })) ∧
  (∀ (Q : Queue) (p : Packet), p.ok = true →
    (p.op = 5 → Q.levels = [] → Q.rptr ≠ Q.wptr → Queue.past Q p =
      some { Q with rptr := (Q.rptr + 1) % 2 ^ 32, levels := [(bits p.x 127 64, bits p.x 159 128)] }) ∧
    (∀ a n rest, p.op = 6 → Q.levels = (a, n) :: rest → 1 ≤ n → Queue.past Q p = some { Q with levels := rest }))

/-- Doorbells, prefetch, waits, the hub copy engine, resume, disable and reset change their queue as
stated. DOORBELL, through the queue's block or by the host that the queue is assigned to, writes
WPTR, starts an enabled idle queue and makes one that has nothing left, nor a failed signal update
due, IDLE, and halts it with reason 2 on an overrun; another host's changes nothing (log 100, DESIGN
CHOICE). PACKET_PREFETCH appends the next packet of the stream as its 64 bytes read in this one step
(log 54, DEDUCED), at most 16 ahead. QUEUE_WAIT_END lets a queue run again that waits for a grid or
a copy place, for a signal that has become satisfied, or for A and D to be set, which it sets;
WAITSIG_TIMEOUT halts it with reason 9. HUB_COPY_BLOCK, for the copy whose turn it is, takes
granules up in rising order and writes one that it has taken up, all below it taken up and no source
byte that is still to be read under it, and after the eighth the copy's turn ends; at an
uncorrectable source granule nothing from it on is written: once those below it are, the copy fails
and its queue halts with reason 12, and so it does where the supervisor declines a translation
fault; HUB_COPY_COMPLETE ends a copy that has written everything, adding to its signal if it has
one. RESUME makes a halted queue run, which stays running while a failed signal update is due, and
restarts its failed copies from byte 0. A declined translation fault of a queue halts it at once
with reason 4, at the packet that it serves or fetches. DISABLE takes an idle queue out of use.
QUEUE_RESET makes it RESETTING with its count one higher, its copies gone, its warps stopped and its
tokens whose WSEQ is due cut off, and sends each peer a notice; RESET_COMPLETE, with every peer's
acknowledgement, empties it, makes it IDLE, retires its grids and reports. An overrun keeping WPTR
is log 55, the reset notices log 68, the order in which a copy takes granules up log 67 and a
declined fault log 76 (all DEDUCED); the timeout is an event (log 51, DESIGN CHOICE). (R339, R340,
R344, R346, R347, R354, R355, R370, R268, R306, 23_queues_and_launch.md) -/
def Obligations.QueuesAreControlled : Prop :=
  (∀ (s : State) (q wptr : Nat), q < 256 →
    let Q := State.queue s q
    let n := wptr % 2 ^ 32
    let put (Q : Queue) : State := { s with queues := AMap.set s.queues q Q }
    (∀ h, AMap.get? s.hosts q ≠ some h → exec (.doorbell ⟨some h, q⟩ wptr) s = .next s) ∧
    (∀ by_, by_ = none ∨ (∃ h, by_ = some h ∧ AMap.get? s.hosts q = some h) →
      (n + 2 ^ 32 - Q.rptr) % 2 ^ 32 ≤ 2 ^ Q.size →
      (Q.state = .idle → Q.enable = true → n ≠ Q.rptr →
        exec (.doorbell ⟨by_, q⟩ wptr) s = .next (put { Q with wptr := n, state := .running })) ∧
      (Q.state ≠ .idle ∨ Q.enable = false ∨ n = Q.rptr →
        Q.state ≠ .running ∨ n ≠ Q.rptr ∨ (∃ l, l ∈ Q.levels ∧ l.2 ≠ 0) ∨ Q.pre ≠ [] →
        exec (.doorbell ⟨by_, q⟩ wptr) s = .next (put { Q with wptr := n })) ∧
      (Q.state = .running → n = Q.rptr → (∀ l, l ∈ Q.levels → l.2 = 0) → Q.pre = [] →
        exec (.doorbell ⟨by_, q⟩ wptr) s = .next (put (if State.queueLate s q then { Q with wptr := n }
          else { Q with wptr := n, levels := [], state := .idle })))) ∧
    (2 ^ Q.size < (n + 2 ^ 32 - Q.rptr) % 2 ^ 32 → Q.state ≠ .resetting →
      ∃ t, exec (.doorbell ⟨none, q⟩ wptr) s = .next t ∧ sameBytes s t ∧ (State.queue t q).state = .halted ∧
        (State.queue t q).reason = 2 ∧ (State.queue t q).wptr = Q.wptr) ∧
    (∀ u N va rest bs, Q.state = .running ∨ Q.state = .waiting → Q.pre.length < 17 → Q.xlate = none →
      Queue.pastAll Q.pre Q = some N → Queue.take? N = some (va, rest) →
      State.ringRead s Q.asid va 64 = .ok (u, bs) → u.queues = s.queues →
      let N : Queue := { Q with pre := Q.pre ++ [⟨va, numOfBytes bs⟩] }
      exec (.packetPrefetch q) s = .next { u with queues := AMap.set s.queues q N }) ∧
    (∀ p rest, Q.state = .waiting → Q.pre = p :: rest → Q.xlate = none → State.queueLate s q = false →
      (p.op = 9 → s.hubCopies.length < 64 → exec (.queueWaitEnd q) s = .next (put { Q with state := .running })) ∧
      (p.op = 7 ∨ p.op = 8 → State.liveGrids s < 4096 →
        exec (.queueWaitEnd q) s = .next (put { Q with state := .running })) ∧
      (p.op = 10 → let f := State.flushAD s fun e => e.asid = Q.asid
        exec (.queueWaitEnd q) s =
          .next { f with queues := AMap.set s.queues q { Q with state := .running, harvested := true } }) ∧
      (∀ u pa, p.op = 4 → State.signalAt s .ringmaster Q.asid (bits p.x 127 64) false = .ok (u, pa) →
        State.inForest s pa 8 = false → p.satisfied (Memory.read s.main pa 8) = true →
        ∃ t, exec (.queueWaitEnd q) s = .next t ∧ t = { put { Q with state := .running } with tlb := t.tlb }) ∧
      (p.op = 4 → bits p.x 223 192 ≠ 0 → ∃ t, exec (.waitsigTimeout q) s = .next t ∧ sameBytes s t ∧
        (State.queue t q).state = .halted ∧ (State.queue t q).reason = 9 ∧ (State.queue t q).fault = p.va)) ∧
    (Q.state = .idle → exec (.disable q) s = .next (put { Q with enable := false })) ∧
    (Q.state = .halted → ∃ t, exec (.resume q) s = .next t ∧
      t = { s with queues := t.queues, hubCopies := t.hubCopies } ∧
      ((State.queue t q).state = .running ∨ (State.queue t q).state = .idle) ∧ (State.queue t q).xlate = none ∧
      (State.queueLate s q = true → (State.queue t q).state = .running) ∧
      ∀ id c, AMap.get? s.hubCopies id = some c → AMap.get? t.hubCopies id =
        some (if c.queue = q ∧ c.stop = .failed then
          { c with stop := .running, done := [], ready := [], last := none, moved := 0 } else c)) ∧
    (Q.state ≠ .resetting → ∃ t, exec (.queueReset q) s = .next t ∧ t.main = s.main ∧
      (State.queue t q).state = .resetting ∧ (State.queue t q).rcnt = (Q.rcnt + 1) % 2 ^ 16 ∧
      (State.queue t q).pre = [] ∧ (State.queue t q).unacked = State.peersOf s Q.asid ∧
      (∀ d, d ∈ State.peersOf s Q.asid → ∃ p, p ∈ t.sent ++ t.unsent ∧ p.kind = 8 ∧ p.dst = d ∧
        p.data = [q, (Q.rcnt + 1) % 2 ^ 16] ∧ p.queue = q ∧ p.rcnt = (Q.rcnt + 1) % 2 ^ 16) ∧
      (∀ p, p ∈ s.sent → p ∈ t.sent) ∧
      (∀ k e, AMap.get? s.streams k = some e →
        let mine : Prop := ∃ w W, e.warp = some w ∧ s.warps[w]? = some W ∧ State.queueOf s W = some q
        (e.due = false ∨ ¬ mine → AMap.get? t.streams k = some e) ∧
        (e.due = true → mine → AMap.get? t.streams k = some
          { e with due := false, reply := none, warp := none, wseq := (e.wseq + 2 ^ 32 - 1) % 2 ^ 32 })) ∧
      (∀ e, e ∈ t.hubCopies ↔ e ∈ s.hubCopies ∧ e.2.queue ≠ q) ∧
      ∀ (w : Nat) (W : Warp), s.warps[w]? = some W →
        (State.queueOf s W = some q → ∃ V : Warp, t.warps[w]? = some V ∧ V.killed = true ∧ V.queue = [] ∧ V.exec = none ∧
          V.reqs = []) ∧
        (State.queueOf s W ≠ some q → t.warps[w]? = some W)) ∧
    (Q.state = .resetting → Q.unacked = [] → ∃ t, exec (.resetComplete q) s = .next t ∧ t.main = s.main ∧
      State.queue t q = { Q with rptr := Q.wptr, levels := [], pre := [], state := .idle } ∧
      t.reports = s.reports ++ [⟨.resetDone, [q]⟩] ∧
      ∀ (g : Nat) (G : Grid), s.grids[g]? = some G → t.grids[g]? =
        some (if G.queue = some q then { G with status := .retired, scr := [], xl := .none } else G))) ∧
  (∀ (s : State) (id : Nat) (c : HubCopy), AMap.get? s.hubCopies id = some c → c.stop = .running →
    let turn : Prop := ∀ e, e ∈ s.hubCopies → State.hubActive s e.2 = true → c.turn ≤ e.2.turn
    let up : Prop := (State.queue s c.queue).state ≠ .halted ∧ (State.queue s c.queue).state ≠ .resetting
    let halts (t : State) : Prop := (State.queue t c.queue).state = .halted ∧
      (State.queue t c.queue).reason = 0x0C ∧ (State.queue t c.queue).fault = c.packet
    (∀ g u v x pa, turn → g ∈ c.left → (∀ h, h ∈ c.left → h < g → AMap.get? c.ready h ≠ none) →
      State.hubAhead s c g = [] →
      let off := (c.span g).1
      let n := (c.span g).2
      (AMap.get? c.ready g = none ∧ State.hubRead s c.asid n (c.src + off) = .ok (u, v) ∧
          State.translate u .hub c.asid (c.dst + off) .write = .ok (x, pa)) ∨
        AMap.get? c.ready g = some (pa, v) →
      ∃ t k ready, exec (.hubCopyBlock id g) s = .next t ∧ s.freeCount ≤ k ∧ AMap.get? ready g = none ∧
        (∀ h, h ≠ g → AMap.get? ready h = AMap.get? c.ready h) ∧
        (let C : HubCopy := { c with done := c.done ++ [g], ready := ready }
         (c.last = none → AMap.get? t.hubCopies id = some (if c.moved < 7 then { C with moved := c.moved + 1 }
            else { C with moved := 0, turn := k })) ∧
         (c.last ≠ none → c.left = [g] → up → halts t ∧ ∃ m o, AMap.get? t.hubCopies id =
            some { C with stop := .failed, moved := m, turn := o })) ∧
        Memory.read t.main pa n = v % 256 ^ n ∧
        ∀ l, (∀ a, l = .main a → a < pa ∨ pa + n ≤ a) → State.byteAt t l = State.byteAt s l) ∧
    (∀ g f pa, turn → g ∈ c.left → f ∈ c.left → f ≤ g → AMap.get? c.ready f = none →
      (∀ h, h ∈ c.left → h < f → AMap.get? c.ready h ≠ none) → AMap.get? c.ready g = none →
      State.hubRead s c.asid (c.span f).2 (c.src + (c.span f).1) = .error (.unc pa) →
      let C : HubCopy := { c with last := some f }
      ∃ t, exec (.hubCopyBlock id g) s = .next t ∧ t.main = s.main ∧ (∀ h, h ∈ C.left → h < f) ∧
        ((∃ h, h ∈ c.left ∧ h < f) → AMap.get? t.hubCopies id = some C ∧ t.queues = s.queues) ∧
        ((∀ h, h ∈ c.left → f ≤ h) → up → halts t ∧ AMap.get? t.hubCopies id = some { C with stop := .failed })) ∧
    (c.left = [] → c.late = false → (∀ a, a ∈ State.physBytes s c.asid c.dst c.size →
        a ∉ State.physBytes s c.asid c.src c.size) →
      let gone (t : State) : Prop := AMap.get? t.hubCopies id = none ∧
        ∀ k, k ≠ id → AMap.get? t.hubCopies k = AMap.get? s.hubCopies k
      (c.sigVA = 0 → ∃ t, exec (.hubCopyComplete id) s = .next t ∧ gone t ∧ sameBytes s t) ∧
      ∀ u pa, c.sigVA ≠ 0 → State.signalAt s .hub c.asid c.sigVA true = .ok (u, pa) →
        State.inForest s pa 8 = false → ∃ t, exec (.hubCopyComplete id) s = .next t ∧ gone t ∧
          Memory.read t.main pa 8 = (Memory.read s.main pa 8 + c.sigVal) % 2 ^ 64 ∧
          ∀ l, (∀ a, l = .main a → a < pa ∨ pa + 8 ≤ a) → State.byteAt t l = State.byteAt s l)) ∧
  (∀ (s : State) (id : Nat) (c : HubCopy) (g : Nat), AMap.get? s.hubCopies id = some c → c.stop = .asked →
    g ∈ c.left → AMap.get? c.ready g = none → (∀ h, h ∈ c.left → g ≤ h) →
    (State.queue s c.queue).state ≠ .resetting → ∃ t, exec (.supervisorReply (.hub id false)) s = .next t ∧
      t.main = s.main ∧ (State.queue t c.queue).state = .halted ∧ (State.queue t c.queue).reason = 0x0C ∧
      (State.queue t c.queue).fault = c.packet ∧
      AMap.get? t.hubCopies id = some { c with stop := .failed, last := some g }) ∧
  (∀ (s : State) (q x : Nat), let Q := State.queue s q
    Q.xlate = some x → Q.state = .running ∨ Q.state = .waiting →
    (∃ t, exec (.supervisorReply (.queue q true)) s = .next t ∧
      t = { s with queues := AMap.set s.queues q { Q with xlate := none } }) ∧
    ∃ t, exec (.supervisorReply (.queue q false)) s = .next t ∧ t.main = s.main ∧
      (State.queue t q).state = .halted ∧ (State.queue t q).reason = 4 ∧
      ∀ p rest, Q.pre = p :: rest → (State.queue t q).fault = p.va)

/-- LAUNCH hands its child over or traps, the distributor places the teams of a grid as stated, and a
grid that is done retires. LAUNCH of a leading warp with a sound record appends a child grid, handed
to the distributor, of its parent's depth plus one, queue, context and die, and completes; a warp
that is not its team's first, an idempotent one, a grid of depth 10, a misplaced record and a record
that breaks R351 trap. TEAM_PLACE of a grid that has been handed over accepts it under R348 and
R349, with what its descriptor gives, or halts its queue with their reason, and reports a
translation fault; of a grid whose turn it is, it starts one team on the fitting core with the most
free warp slots, the lowest such core; NBHD_PLACE starts all teams of a neighbourhood on consecutive
places of a block of fitting cores. A started team has all its warps, with their launch values, one
fragment of all lanes at offset 0, and the shared image, behind which its allocation reads zero (log
83, DESIGN CHOICE). GRID_RETIRE adds SIGVAL to the completion signal and frees the scratchpad of a
grid whose work is done. When a child is accepted is log 62, what counts as passed over log 59 (both
DEDUCED), when the distributor places log 58 and where a scratchpad has no room log 98 (both DESIGN
CHOICE), what VHIGH is held against log 61 (DEDUCED) and a record that an earlier store may still
change log 110 (DESIGN CHOICE); the launch values in s6 and s7 follow R54 (log 99). (R14, R53, R54,
R329, R348, R349, R350, R351, R352, R353, R370, 23_queues_and_launch.md) -/
def Obligations.GridsAreLaunchedPlacedAndRetired : Prop :=
  let sized (counts : Nat) : Prop := bits counts 9 0 ≠ 0 ∧ bits counts 19 10 ≠ 0 ∧ bits counts 29 20 ≠ 0 ∧ counts < 2 ^ 30
  let sound (r counts n : Nat) : Prop := bits r 511 206 = 0 ∧ bits r 204 201 = 0 ∧ bits r 196 192 = 0 ∧
    bits r 63 57 = 0 ∧ bits r 127 121 = 0 ∧ bits r 66 64 = 0 ∧ sized counts ∧ n ≤ 4096 ∧ n % 8 = 0 ∧
    (bits r 205 205 = 1 → bits counts 9 0 * bits counts 19 10 * bits counts 29 20 ≤ 24)
  (∀ r counts n, sized counts → n ≤ 4096 → n % 8 = 0 → sound (launchMend r counts) counts n) ∧
  (∀ (s : State) (c : Ctx) (a : Nat) (g : Grid), State.ctx? s = some c → State.gridOf? s c.warp = some g →
    let W := c.warp
    let x := (Warp.s W a).toNat
    let counts := (Warp.s W (a + 1)).toNat
    let y := (Warp.s W (a + 2)).toNat
    let n := (Warp.s W (a + 3)).toNat
    (W.index = 0 → W.idem = false → g.depth < 10 → x % 64 = 0 → y % 8 = 0 → x + 64 ≤ g.scrLen →
      y + n ≤ g.scrLen → State.liveGrids s < 4096 →
      ∀ v read u args, State.chipRead s c.w W .scratch x 64 W.nextReq = .ok v read →
        let r := if State.openRead s c.w W .scratch x 64 W.nextReq then launchMend read counts else read
        sound r counts n → State.chipRead v c.w W .scratch y n W.nextReq = .ok u args →
        let parent := (s.teams[W.team]?).map (·.grid)
        ∃ G : Grid, passes (exec (.launch a) s) { s with freeCount := u.freeCount, grids := s.grids ++ [G] } c 1 ∧
          G.status = .offered ∧ G.parent = parent ∧ G.depth = g.depth + 1 ∧ G.queue = g.queue ∧ G.packet = g.packet ∧
          G.asid = g.asid ∧ G.dies = [dieOf (State.coreOf s W)] ∧ G.nbhd = decide (bits r 205 205 = 1) ∧
          G.counts = counts ∧ G.nwarps = bits r 200 197 + 1 ∧ G.kdesc = bits r 63 0 ∧ G.args = bytesOfNat n args ∧
          G.sigVA = bits r 127 64 ∧ G.sigVal = bits r 191 128 ∧ G.scr = [] ∧ G.teams = [] ∧ G.placed = 0) ∧
    (Ctx.mayTrap c →
      (W.index ≠ 0 → traps (exec (.launch a) s) s c (11 * 64 + 2) 0) ∧
      (W.index = 0 → W.idem = true → traps (exec (.launch a) s) s c (11 * 64 + 4) 0) ∧
      (W.index = 0 → W.idem = false → g.depth = 10 → traps (exec (.launch a) s) s c (11 * 64 + 1) 0) ∧
      (W.index = 0 → W.idem = false → g.depth ≠ 10 →
        (x % 64 ≠ 0 → traps (exec (.launch a) s) s c (3 * 64 + 5) (dword x)) ∧
        (x % 64 = 0 → y % 8 ≠ 0 → traps (exec (.launch a) s) s c (3 * 64 + 5) (dword y)) ∧
        (x % 64 = 0 → y % 8 = 0 → g.scrLen < x + 64 → traps (exec (.launch a) s) s c (3 * 64 + 1) (dword x)) ∧
        (x % 64 = 0 → y % 8 = 0 → x + 64 ≤ g.scrLen →
          (g.scrLen < y + n → traps (exec (.launch a) s) s c (3 * 64 + 1) (dword y)) ∧
          ∀ u r, y + n ≤ g.scrLen → State.chipRead s c.w W .scratch x 64 W.nextReq = .ok u r →
            State.openRead s c.w W .scratch x 64 W.nextReq = false → ¬ sound r counts n →
            ∃ v, launchBad r counts n = some v ∧ traps (exec (.launch a) s) u c (11 * 64 + 3) (dword v))))) ∧
  (∀ (s u : State) (g : Grid) (bs : List Byte), State.ringRead s g.asid g.kdesc 64 = .ok (u, bs) →
    let x := numOfBytes bs
    let regs := 32 * bits x 360 357
    let stack := if bits x 374 361 ≤ 4096 then 4096 else 8192
    let len := bits x 223 192
    let share := (bits x 351 320 + 255) / 256 * 256
    let ranged : Prop := bits x 511 384 = 0 ∧ bits x 356 352 = 0 ∧ bits x 374 361 ≤ 8192 ∧ 2 ≤ bits x 360 357 ∧
      bits x 360 357 ≤ 8 ∧ share ≤ 512 * 1024
    let scanned : Prop := ∀ m, State.mapping? u g.asid (bits x 127 64) = some m → m.lane = true →
      m.vhigh < regs ∧ m.vhigh = bits x 383 376
    let small : Prop := g.nwarps ≤ 32 ∧ g.nwarps * regs ≤ 4096 ∧ g.nwarps * stack ≤ 128 * 1024
    (¬ ranged → State.accept s g = .error (.reason 6)) ∧
    (ranged → ¬ scanned → State.accept s g = .error (.reason 7)) ∧
    (ranged → scanned → ¬ small → State.accept s g = .error (.reason 8)) ∧
    (∀ v image t shared, ranged → scanned → small → State.ringRead u g.asid (bits x 191 128) len = .ok (v, image) →
      State.ringRead v g.asid (bits x 319 256) (bits x 351 320) = .ok (t, shared) →
      let off := (len + 63) / 64 * 64
      (State.scratchRoom t g.dies (off + g.args.length) = false → State.accept s g = .error .full) ∧
      (State.scratchRoom t g.dies (off + g.args.length) = true → ∃ scr, State.accept s g = .ok (t,
          { g with scode := bits x 63 0, lcode := bits x 127 64, scr := scr, constLo := bits x 255 224, constHi := len,
                   argOff := off, argLen := g.args.length, scrLen := off + g.args.length, regs := regs,
                   spill := stack, idem := decide (bits x 375 375 = 1), shImg := shared, shLen := share,
                   status := .live, xl := none }) ∧
        ∀ die, die ∈ g.dies → die < 8 → ∃ m, scr[die]? = some m ∧
          (∀ i, i < len → Memory.byte m i = image.getD i 0) ∧
          ∀ i, i < g.args.length → Memory.byte m (off + i) = g.args.getD i 0))) ∧
  (∀ (s : State) (g : Grid) f, State.ringRead s g.asid g.kdesc 64 = .error f → State.accept s g = .error (.access f)) ∧
  (∀ (s u : State) (gi q : Nat) (g G : Grid), s.grids[gi]? = some g → g.status = .offered → g.queue = some q →
    (State.queue s q).state ≠ .halted → (State.queue s q).state ≠ .resetting → g.xl = none →
    State.liveGrids s < 4096 →
    (State.accept s g = .ok (u, G) → exec (.teamPlace gi) s = .next { u with grids := s.grids.set gi G }) ∧
    (∀ pa, State.accept s g = .error (.access (.unc pa)) →
      exec (.teamPlace gi) s = .next (State.haltQueue (State.countMain s pa) q 5 g.packet)) ∧
    (∀ f va, State.accept s g = .error (.access (.xlate f va)) → ∃ t, exec (.teamPlace gi) s = .next t ∧
      t.grids = s.grids.set gi { g with xl := some va } ∧ t.queues = s.queues ∧
      t.reports = s.reports ++ [⟨.gridXlate, [gi, XlFault.code f, va]⟩]) ∧
    (∀ r, State.accept s g = .error (.reason r) → exec (.teamPlace gi) s = .next (State.haltQueue s q r g.packet)) ∧
    (State.accept s g = .error .full → exec (.teamPlace gi) s = .next s)) ∧
  (∀ (s : State) (gi q p : Nat) (g : Grid) (cs : List Nat), s.grids[gi]? = some g →
    State.nextSite s gi = some (q, p, cs) → State.requeued s g = none →
    let nx := bits g.counts 9 0
    let ny := bits g.counts 19 10
    let starts (t : State) (j core : Nat) : Prop := ∃ T : Team, t.teams[s.teams.length + j]? = some T ∧
      T.grid = gi ∧ T.core = core ∧ T.status = .running ∧ T.shLen = g.shLen ∧
      T.tx = (g.placed + j) % nx ∧ T.ty = (g.placed + j) / nx % ny ∧ T.tz = (g.placed + j) / (nx * ny) ∧
      T.shm = Memory.writeBytes Memory.empty 0 g.shImg ∧ T.warps.length = g.nwarps ∧
      ∀ (i w : Nat), T.warps[i]? = some w → ∃ V : Warp, t.warps[w]? = some V ∧ s.warps.length ≤ w ∧
        V.team = s.teams.length + j ∧ V.index = i ∧ V.nv = g.regs ∧ V.spillLen = g.spill ∧ V.idem = g.idem ∧
        Warp.live V = [(0, { mask := BitVec.allOnes 32, pc := 0, joins := [], hlev := 0, wait := .ready })] ∧
        (List.range 7).map (fun k => Warp.s V (k + 1)) =
          [word g.argOff, word T.tx, word T.ty, word T.tz, word i, word g.counts, word core] ∧
        V.tvec = BitVec.allOnes 32 ∧ V.sptr = word g.spill
    let keeps (t : State) : Prop := t.main = s.main ∧ (∀ w, w < s.warps.length → t.warps[w]? = s.warps[w]?) ∧
      ∀ (k : Nat) (T : Team), s.teams[k]? = some T → ∃ n, t.teams[k]? = some { T with passed := n } ∧ (T.status ≠ .waiting → n = T.passed)
    (g.nbhd = false → ∃ t core, exec (.teamPlace gi) s = .next t ∧ cs = [core] ∧ State.fits s g core = true ∧
      (∀ die k, die ∈ g.dies → die ∈ State.openDies s gi g → k ∈ coresOf die → State.fits s g k = true →
        (State.coreLoad s core).warps < (State.coreLoad s k).warps ∨
          (State.coreLoad s core).warps = (State.coreLoad s k).warps ∧ core ≤ k) ∧
      starts t 0 core ∧ t.teams.length = s.teams.length + 1 ∧ keeps t) ∧
    (g.nbhd = true → ∃ t die w h row col, exec (.nbhdPlace gi) s = .next t ∧ cs = blockCores die w h row col ∧
      die ∈ g.dies ∧ row + h ≤ 10 ∧ col + w ≤ 8 ∧ teamCount g.counts ≤ w * h ∧
      (∀ k, k ∈ cs → State.fits s g k = true) ∧
      (∀ j core, j < teamCount g.counts → cs[j]? = some core → starts t j core) ∧
      t.teams.length = s.teams.length + teamCount g.counts ∧ keeps t)) ∧
  (∀ (s : State) (gi q : Nat) (g : Grid), s.grids[gi]? = some g → g.queue = some q → g.status = .live →
    (State.queue s q).state ≠ .resetting → g.xl = none → State.gridDone s gi g = true →
    let f := State.flushAD s fun e => e.asid = g.asid
    let freed (t : State) : Prop := t.grids[gi]? = some { g with status := .retired, scr := [] } ∧
      t.warps = s.warps ∧ ∀ k, k ≠ gi → t.grids[k]? = s.grids[k]?
    (g.sigVA = 0 → ∃ t, exec (.gridRetire gi) s = .next t ∧ freed t ∧ t.main = f.main) ∧
    (∀ u pa, g.sigVA ≠ 0 → State.signalAt f .ringmaster g.asid g.sigVA true = .ok (u, pa) →
      State.inForest s pa 8 = false → ∃ t, exec (.gridRetire gi) s = .next t ∧ freed t ∧
        Memory.read t.main pa 8 = (Memory.read f.main pa 8 + g.sigVal) % 2 ^ 64 ∧
        ∀ a, a < pa ∨ pa + 8 ≤ a → Memory.byte t.main a = Memory.byte f.main a))

/-- PREEMPT and PARKED_SWAP_OUT save a team whole, and TEAM_RESUME makes it resident again. PREEMPT of a
resident team whose warps can all be saved, and PARKED_SWAP_OUT of one whose warps are all parked
while another team is queued for its die, complete and take the team from its core. Every warp keeps
its registers, predicates, traps, system registers, records and spill stack; every fragment keeps
its mask, its pc and its joins, and waits for nothing but a join; a run held at its TRAIL is back in
its queue; every request that is not performed stays, a copy's with its command stopped where it
stands and an EQREL's to start again (log 66); an owner's image holds what its array holds, tile by
tile and slot by slot, and its unretired operations (log 65), and no array is owned any more; a
waiting reservation is withdrawn. The team is saved with its shared memory, in which no byte differs
but in the object of a barrier that a fragment waited at, and there nothing but WAITERS; without an
EQREL main memory, the scratchpads and the forests are as before, and with one only the destination
bytes that it had written differ. Other teams, other warps and everything else are unchanged. When a
team can be saved follows log 64. TEAM_RESUME of a saved team that may resume, on a core of its
grid's dies that it fits and that suits it, completes and makes it resident there with its warps and
memory as they were, and a neighbourhood resumes whole on a free rectangle; an owner of an array
waits at the head of its queue. (R211, R304, R325, R326, R327, R353, R368,
21_traps_and_translation.md) -/
def Obligations.TeamsAreSavedAndResumed : Prop :=
  (∀ (s : State) (k : Nat) (T : Team), s.teams[k]? = some T → T.status = .running → T.warps.Nodup →
    let members := State.members s T
    let awaits (W : Warp) (i : Nat) (f : Frag) : Prop := i < 32 ∧ Warp.frag? W i = some f
    let relabels (w : Nat) (W : Warp) (r : Req) (e : EqRel) : Prop := (w, W) ∈ members ∧ r ∈ W.reqs ∧
      ∃ c, Req.command? r = some c ∧ c.work = .eqrel e
    let sleeps (t off : Nat) : Prop := ∃ w W i f ph aw b, (w, W) ∈ members ∧ awaits W i f ∧
      f.wait = .barrier b t off ph aw
    let saves (o : Out State) : Prop := ∃ t, o = .next t ∧
      t = { s with freeCount := t.freeCount, warps := t.warps, teams := t.teams, contexts := t.contexts,
                   arrays := t.arrays, main := t.main, grids := t.grids, forests := t.forests, health := t.health } ∧
      (∀ (j : Nat) (U : Team), s.teams[j]? = some U → ∃ m, t.teams[j]? =
        some { U with shm := m, status := if j = k then .saved else U.status }) ∧
      (∀ w, (∀ W, (w, W) ∉ members) → t.warps[w]? = s.warps[w]?) ∧
      ((∀ w W r e, ¬ relabels w W r e) → t.main = s.main ∧ t.grids = s.grids ∧ t.forests = s.forests ∧
        (∀ l, State.byteAt t l = State.byteAt s l ∨
          ∃ j off a, l = .shared j a ∧ sleeps j off ∧ off ≤ a ∧ a < off + 8) ∧
        ((∀ j off, sleeps j off → off % 8 = 0 ∧ ∀ U : Team, s.teams[j]? = some U → Memory.uncorrectable U.shm off 8 = false) →
          ∀ j off, sleeps j off → ∃ n, n ≤ (State.bar s j off).waiters ∧
            State.bar t j off = { State.bar s j off with waiters := n })) ∧
      (∀ w W r e, relabels w W r e → (∀ w' W' r' e', relabels w' W' r' e' → w' = w ∧ r'.id = r.id) →
        (W.reqs.map (·.id)).Nodup → ∀ l, State.byteAt t l = State.byteAt s l ∨
          (∃ j off a, l = .shared j a ∧ sleeps j off ∧ off ≤ a ∧ a < off + 8) ∨
          ∃ p, p ∈ EqRel.stale s W e ∧ Where.covers p w 1 l) ∧
      (∀ n A, AMap.get? s.contexts n = some A → ∃ ws, AMap.get? t.contexts n = some { A with waiting := ws } ∧
        ∀ x, x ∈ ws ↔ x ∈ A.waiting ∧
          ¬ ∃ W f d, (x.w, W) ∈ members ∧ awaits W x.slot f ∧ f.wait = .ctxRes d) ∧
      ∀ (w : Nat) (W : Warp), (w, W) ∈ members → ∃ V : Warp, t.warps[w]? = some V ∧
        V = { W with frags := V.frags, queue := (Warp.returnHeld W).queue, exec := none, reqs := V.reqs,
                     async := V.async, spill := V.spill, mimage := V.mimage, owed := V.owed } ∧
        ((∀ r e, ¬ relabels w W r e) → V.spill = W.spill) ∧
        (∀ core h, (State.array t core).hold = some h → h.w ≠ w) ∧
        (∀ i, i < 32 → Warp.frag? W i = none → Warp.frag? V i = none) ∧
        (∀ i f, awaits W i f → Warp.frag? V i =
          some { f with wait := if f.wait = .atJoin then .atJoin else .ready, marks := Frag.takenMarks f }) ∧
        ((∀ i f, awaits W i f → f.wait = .atJoin ∨ f.wait = .ready) → V.owed = W.owed) ∧
        ((∀ r, r ∈ W.reqs → Req.command? r = none) → V.reqs = W.reqs ∧ V.async = W.async) ∧
        ((W.reqs.map (·.id)).Nodup → ∀ r, r ∈ W.reqs → r.done = false →
          (Req.command? r = none → r ∈ V.reqs) ∧
          ∀ c, Req.command? r = some c → ∃ c', { r with op := .copy c' } ∈ V.reqs ∧
            (∀ e, c.work = .eqrel e → c' = { c with work := .eqrel (EqRel.restart e), stop := .running }) ∧
            ((∀ e, c.work ≠ .eqrel e) → c' = { c with work := CopyWork.rewind c.work })) ∧
        (State.owned s w W = none → V.mimage = W.mimage) ∧
        ∀ h, State.owned s w W = some h → ∃ img, V.mimage = some img ∧ img.n = h.phys.length ∧
          let a := State.array s (State.coreOf s W)
          img.ops = ((a.ops.filter fun o => o.w = w).map fun o => { o with fault := none }) ∧
          (a.cur = h.session → img.leader.slots = h.phys.map (MArray.slot a) ∧
            ∀ i, i < 16 → AMap.get? img.leader.tiles i = some (MArray.tile a i)) ∧
          (h.follower = none → img.follower = none) ∧
          ∀ k x, h.follower = some k → (State.array s k).hold = some x → x.w = w →
            (State.array s k).cur = h.session + 512 → ∃ fo, img.follower = some fo ∧
              fo.slots = x.phys.map (MArray.slot (State.array s k)) ∧
              ∀ i, i < 16 → AMap.get? fo.tiles i = some (MArray.tile (State.array s k) i)
    let stops (w : Nat) (W : Warp) : Prop := W.mimage = none ∧ Warp.savable W = true ∧
      State.strayOps s w W = false ∧
      ∀ core h, (State.array s core).hold = some h → h.w = w → (State.owned s w W).isSome = true ∨
        (h.ready = false ∧ ∃ i f d, awaits W i f ∧ f.wait = .macq d)
    ((∀ w W, (w, W) ∈ members → stops w W) → saves (exec (.preempt k) s)) ∧
    ((∀ w W, (w, W) ∈ members → stops w W ∧ State.parked s w W = true) → members ≠ [] →
      (∃ G, G ∈ s.grids ∧ State.unplaced s G = true ∧ dieOf T.core ∈ G.dies) →
      saves (exec (.parkedSwapOut k) s))) ∧
  (∀ (s : State) (k core : Nat) (T : Team) (g : Grid), s.teams[k]? = some T → s.grids[T.grid]? = some g →
    g.status = .live → (∀ q, g.queue = some q → (State.queue s q).state ≠ .resetting) →
    State.resumable s T = true →
    let keeps (t : State) : Prop := t.warps = s.warps ∧ t.grids = s.grids ∧ sameBytes s t
    (g.nbhd = false → dieOf core ∈ g.dies → State.fits s g core = true → State.suits s T core = true →
      ∃ t, exec (.teamResume k core) s = .next t ∧ keeps t ∧
        t.teams[k]? = some { T with status := .running, core := core } ∧
        (∀ j, j ≠ k → t.teams[j]? = s.teams[j]?) ∧
        ∀ w W img, State.members s T = [(w, W)] → W.mimage = some img →
          (State.array t core).waiters =
            { w := w, slot := 0, n := img.n, d := 0, pair := img.follower.isSome, leader := none,
              resume := true } :: (State.array s core).waiters) ∧
    (∀ cs, g.nbhd = true → g.teams.Nodup → State.rectangle s g g.dies = some cs →
      (∀ x, x ∈ State.neighbours s g → State.resumable s x.2.2 = true ∧
        State.suits s x.2.2 ((cs[x.1]?).getD 0) = true ∧ (x.2.1 = k → cs[x.1]? = some core)) →
      ∃ t, exec (.teamResume k core) s = .next t ∧ keeps t ∧ ∀ x, x ∈ State.neighbours s g →
        t.teams[x.2.1]? = some { x.2.2 with status := .running, core := (cs[x.1]?).getD 0 }))

/-- A shoot-down drops the entries that it names after setting their A and D, FLUSHAD sets them, and a
scan maps a unit that breaks nothing and reports. A SHOOT of a range or of an ASID completes once no
access that was translated with the named entries is outstanding; it then drops exactly the named
TLB entries of every agent, and A and D of those entries have been set by an OR on their leaf
entries; FLUSHAD, once no such access to its ASID's entries is outstanding, sets them and drops
nothing (log 103, DEDUCED); each ends with status OK, and waits before. A 64 KiB page of an
executable mapping that could be fetched from before a SHOOT and cannot after it, or that may be
written after it, is lost to the mapping, and nothing else of it. A unit is taken only where each of
its pages is mapped and may not be written; the run starts of a partner are those of its lane
mapping, of which no page is lost. A scan whose turn has come writes its 16-byte report, with the
page that holds the violation and the offset in it, and sends it; a unit that cannot be read gets a
report too and is not mapped, and one that can is: it maps the unit, with its starts, exactly when
it finds no violation. The starts of a scalar unit without violation decode, their static targets
inside the unit are starts, and their run fields are run starts of the partner. The scan's reading,
its report and its end at a page that it cannot take follow log 44 (DEDUCED). (R69, R70, R71, R72,
R329, R331, R367, 04_encodings.md, 21_traps_and_translation.md) -/
def Obligations.ShootDownsAndScans : Prop :=
  (∀ (s : State) (x : Nat), s.xlRegs.pending = some x →
    let asid := bits x 31 16
    let done (t u : State) : Prop :=
      t = { u with tlb := t.tlb, execMaps := t.execMaps, xlRegs := { s.xlRegs with pending := none, res := 0 } }
    let shoots (o : Out State) (va n : Nat) : Prop :=
      let hit (e : TlbEntry) : Bool := e.asid = asid ∧ e.va < va + n ∧ va < e.va + e.size
      (State.inFlight s asid hit = false → ∃ t, o = .next t ∧ done t (State.flushAD s hit) ∧
        (∀ e, e ∈ t.tlb ↔ e ∈ s.tlb ∧ hit e = false) ∧ t.execMaps.length = s.execMaps.length ∧
        ∀ (i : Nat) (m : ExecMap), s.execMaps[i]? = some m → ∃ gone, t.execMaps[i]? = some { m with gone := gone } ∧
          ∀ k, 65536 * k < m.len → (k ∈ gone ↔ k ∈ m.gone ∨ (State.fetchable s m.asid (m.va + 65536 * k) = true ∧
            State.fetchable t m.asid (m.va + 65536 * k) = false) ∨ State.writable t m.asid (m.va + 65536 * k) = true)) ∧
      (State.inFlight s asid hit = true → o = .next s)
    (x % 256 = 1 → shoots (exec .shootRange s) s.xlRegs.arg0 s.xlRegs.arg1) ∧
    (x % 256 = 2 → shoots (exec .shootAsid s) 0 (2 ^ 57)) ∧
    (x % 256 = 3 → State.inFlight s asid (fun e => e.asid = asid) = false → ∃ t, exec .flushad s = .next t ∧
      done t (State.flushAD s fun e => e.asid = asid) ∧ t.tlb = s.tlb ∧ t.execMaps = s.execMaps) ∧
    (x % 256 = 3 → State.inFlight s asid (fun e => e.asid = asid) = true → exec .flushad s = .next s)) ∧
  (∀ (s : State) (asid va : Nat) (m : ExecMap), State.mapping? s asid va = some m →
    m ∈ s.execMaps ∧ m.asid = asid ∧ m.va ≤ va ∧ va < m.va + m.len ∧ (va - m.va) / 65536 ∉ m.gone) ∧
  (∀ (s : State) (sel : TlbEntry → Bool),
    (∃ m, State.flushAD s sel = { s with main := m }) ∧
    (∀ a, (∀ e, e ∈ s.tlb → sel e = true → a < e.leaf ∨ e.leaf + 8 ≤ a) →
      Memory.byte (State.flushAD s sel).main a = Memory.byte s.main a) ∧
    (∀ e, s.tlb = [e] → sel e = true → Memory.read (State.flushAD s sel).main e.leaf 8 =
      Memory.read s.main e.leaf 8 ||| ((if e.a then 2 ^ 5 else 0) + if e.d then 2 ^ 6 else 0))) ∧
  (∀ (s : State) (asid va len : Nat), State.unitMapped s asid va len = true → ∀ k, 65536 * k < len →
    (State.leafOf s asid (va + 65536 * k)).isSome = true ∧ State.writable s asid (va + 65536 * k) = false) ∧
  (∀ (s : State) (asid va : Nat), State.partnerRuns s asid none = [] ∧
    ∀ k, k ∈ State.partnerRuns s asid (some va) → ∃ m, m ∈ s.execMaps ∧ m.asid = asid ∧ m.va = va ∧ m.lane = true ∧
      m.gone = [] ∧ k ∈ m.starts) ∧
  (∀ (s : State) (r : ScanReq), State.scanTurn s r = false → exec (.scanRequest r) s = .next s) ∧
  (∀ (s : State) (r : ScanReq), State.scanTurn s r = true → State.inForest s r.report 16 = false →
    let w := State.unitWord s r.asid r.va
    let told (t : State) (reason page off vhigh : Nat) : Prop :=
      t = { s with main := t.main, execMaps := t.execMaps, freeCount := t.freeCount,
                   scans := s.scans.eraseP fun x => x.2 = r, reports := s.reports ++
        [⟨.scan, [r.asid, page, if r.lane then 1 else 0, reason, off, vhigh]⟩] } ∧
      Memory.read t.main r.report 16 = (vhigh * 2 ^ 120 + (if r.lane then 2 ^ 112 else 0) + reason * 2 ^ 96 +
        off * 2 ^ 64 + page) % 2 ^ 128 ∧
      ∀ a, a < r.report ∨ r.report + 16 ≤ a → Memory.byte t.main a = Memory.byte s.main a
    let reports (t : State) (reason at_ vhigh : Nat) : Prop :=
      let page := State.pageBase s r.asid at_
      t.freeCount = s.freeCount ∧ told t reason page (if reason = 0 then 0 else at_ - page) vhigh
    (∀ at_, State.unitFault s r.asid r.va r.len = some at_ → ∃ t reason off, exec (.scanRequest r) s = .next t ∧
      1 ≤ reason ∧ reason < 2 ^ 16 ∧ told t reason (State.pageBase s r.asid at_) off 0 ∧ t.execMaps = s.execMaps) ∧
    (State.unitMapped s r.asid r.va r.len = true → r.lane = false → ∀ starts bad, scanScalar w (r.len / 4) (State.partnerRuns s r.asid r.partner) = (starts, bad) →
      ∃ t, exec (.scanRequest r) s = .next t ∧
        (bad = none → reports t 0 r.va 0 ∧ t.execMaps = s.execMaps ++ [{ asid := r.asid, va := r.va, len := r.len, lane := false, starts := starts, vhigh := 0 }]) ∧
        ∀ i c, bad = some (i, c) → reports t (Reason.code c) (r.va + 4 * i) 0 ∧ t.execMaps = s.execMaps) ∧
    (State.unitMapped s r.asid r.va r.len = true → r.lane = true → ∀ starts top bad, scanLane (fun i => (w (3 * i), w (3 * i + 1), w (3 * i + 2))) (r.len / 12) 0 [] =
        (starts, top, bad) → ∃ t, exec (.scanRequest r) s = .next t ∧
      (bad = none → reports t 0 r.va top ∧ t.execMaps = s.execMaps ++ [{ asid := r.asid, va := r.va, len := r.len, lane := true, starts := starts, vhigh := top }]) ∧
      ∀ i c, bad = some (i, c) → reports t (Reason.code c) (r.va + 12 * i) 0 ∧ t.execMaps = s.execMaps)) ∧
  (∀ (w : Nat → Nat) (n : Nat) (runs starts : List Nat), scanScalar w n runs = (starts, none) →
    ∀ i, i ∈ starts → i < n ∧ ∃ ins, decodeScalar (w i) (if i + 1 < n then some (w (i + 1)) else none) = .ok ins ∧
      (∀ off, off ∈ staticTargets ins → 0 ≤ (i : Int) + off → (i : Int) + off < n →
        ((i : Int) + off).toNat ∈ starts) ∧
      ∀ k, runField? ins = some k → k ∈ runs)

/-- The island boots the first slot that passes, serves its commands with their effects and statuses,
and errors are counted, logged and scrubbed. BOOT of an island that has not booted takes the first
of the two flash slots whose header gives its image's length, whose signature of 29,792 bytes
verifies and whose version is at least the fused minimum, or reports BOOTFAIL with both reasons;
firmware is loaded once it verifies. With the data block correctable and of no open forest, the
island's first command ends with status 0 and its effect, or with status 3 and none: ATTEST writes a
report that holds the version, the slot, the digests and the nonce behind the nonce; EXTEND replaces
the extended digest; EVGRANT grants or withdraws; RAISEMIN raises the fused minimum; HKEY installs
the key. SPARE ends with status 0, 2 or 3 and changes nothing else. A read of ELOG takes its oldest
entry. A double-bit error in a memory makes its word uncorrectable, and an uncorrectable word of
main memory that is met, or scrubbed, is counted and its granule's address logged, whichever granule
of a data block it is; in a register it leaves a value that nothing states, and is counted at once;
a corrected one is counted, and by the counters of its core that have selected it; a scrub leaves
every byte as it is. When an error counts is log 69 (DEDUCED), the addresses of main memory log 80
(DESIGN CHOICE), SPARE's free status log 70 (DESIGN CHOICE), and the status of a misaligned ARG log
61 (DEDUCED). (R356, R357, R358, R359, R360, R363, R365, R25, 24_device.md) -/
def Obligations.IslandBootsServesAndCountsErrors : Prop :=
  (∀ (s : State) (a b : BootSlot), s.island.booted = false →
    let verified (x : BootSlot) : Bool := decide (x.boot.image.length = x.len ∧ x.len ≤ 2 ^ 28 - 2 ^ 16 ∧
        x.boot.sig.length = 29792) && (List.range 64).all (fun i => Config.shake256 x.boot.key i = Config.fusedDigest i) &&
      Config.slhVerify x.boot.key x.boot.image x.boot.sig
    let sound (x : BootSlot) : Bool := verified x && decide (s.island.fusedMin ≤ x.version)
    let digest (m : List Byte) : Nat := numOfBytes ((List.range 64).map (Config.shake256 m))
    let boots (k : Nat) (x : BootSlot) : Prop := ∃ I, exec (.boot [a, b]) s = .next { s with island := I } ∧
      I = { s.island with booted := true, slot := k, version := x.version, digest := digest x.boot.image,
                          firmware := 0, loaded := false, extended := 0,
                          idkey := numOfBytes ((List.range 64).map Config.identityKey) }
    let why (x : BootSlot) : Nat := if verified x then 2 else 1
    if sound a then boots 0 a else if sound b then boots 1 b
    else exec (.boot [a, b]) s = .next { s with reports := s.reports ++ [⟨.bootFail, [why a, why b]⟩] }) ∧
  (∀ (s : State) (fw : Signed),
    let verified : Bool := decide (fw.sig.length = 29792) && (List.range 64).all (fun i => Config.shake256 fw.key i = Config.fusedDigest i) &&
      Config.slhVerify fw.key fw.image fw.sig
    let I : Island := { s.island with loaded := true,
                                      firmware := numOfBytes ((List.range 64).map (Config.shake256 fw.image)) }
    exec (.supervisorReply (.firmware fw)) s = .next (if verified then { s with island := I } else s)) ∧
  (∀ (s : State) (die x : Nat) (rest : List Nat), s.island.commands = die :: rest → die ∉ rest →
    (State.healthOf s die).regs.pending = some x →
    let h := State.healthOf s die
    let arg := h.regs.arg0
    isMain arg 51200 = true → Memory.uncorrectable s.main arg 64 = false → State.inForest s arg 51200 = false →
    let isle : Island := { s.island with commands := rest }
    let ends (t u : State) (status : Nat) : Prop :=
      let h' : Health := { h with regs := { h.regs with pending := none, res := status } }
      t = { u with health := AMap.set s.health die h' }
    let serves (i : Instr) (code : Nat) (ok : Prop) (u : State) : Prop := x % 256 = code →
      (ok → ∃ t, exec i s = .next t ∧ ends t u 0) ∧
      (¬ ok → ∃ t, exec i s = .next t ∧ ends t { s with island := isle } 3)
    let block : Prop := x / 256 = 0 ∧ arg % 64 = 0
    let nonce := bytesOfNat 32 (Memory.read s.main arg 32)
    let r := bytesOfNat 4 1 ++ (List.range 16).map Config.serial ++
      bytesOfNat 4 (isle.slot + isle.version * 2 ^ 8) ++ bytesOfNat 64 isle.digest ++ bytesOfNat 64 isle.firmware ++
      bytesOfNat 64 isle.extended ++ nonce
    let signed := r ++ (List.range 49856).map (Config.attestSign r)
    let longer := bytesOfNat 64 isle.extended ++ bytesOfNat 64 (Memory.read s.main arg 64)
    let e := (bits x 33 24, bits x 23 8)
    let others := s.grants.filter fun y => y ≠ e
    serves .attest 2 block { s with island := isle, main := Memory.writeBytes s.main (arg + 64) signed } ∧
    serves .extend 3 block
      (let I : Island := { isle with extended := numOfBytes ((List.range 64).map (Config.shake256 longer)) }
       { s with island := I }) ∧
    serves .evgrant 4 (bits x 63 35 = 0 ∧ bits x 33 24 < 640)
      { s with island := isle, grants := if bits x 34 34 = 1 then others ++ [e] else others } ∧
    serves .raisemin 5 (bits x 63 32 = 0 ∧ s.island.fusedMin ≤ bits x 31 8 ∧ bits x 31 8 ≤ s.island.version)
      { s with island := { isle with fusedMin := bits x 31 8 } } ∧
    serves .hkey 6 block { s with island := { isle with key := some (Memory.read s.main arg 32) } }) ∧
  (∀ (s : State) (die x k : Nat), s.island.commands = [die] → (State.healthOf s die).regs.pending = some x → x = 3 →
    let arg := (State.healthOf s die).regs.arg0
    let g := 8 * k / 32 * 32
    let d := (Config.dieOfAddr g).val
    isMain arg 64 = true → arg % 64 = 0 → s.main.bad = [k] → arg ≤ g → g < arg + 64 →
    ∃ t, exec .extend s = .next t ∧ (State.healthOf t d).uecnt = min ((State.healthOf s d).uecnt + 1) 0xFFFFFFFF ∧
      (State.healthOf t d).elog = (if (State.healthOf s d).elog.length < 64 then (State.healthOf s d).elog ++ [g]
        else (State.healthOf s d).elog)) ∧
  (∀ (s : State) (die x : Nat), (State.healthOf s die).regs.pending = some x → x % 256 = 1 →
    s.island.commands = [] →
    let h := State.healthOf s die
    ∃ status n, (bits x 63 48 ≠ 0 → status = 3) ∧ (bits x 63 48 = 0 → status = 0 ∨ status = 2) ∧
      (let h' : Health := { h with regs := { h.regs with pending := none, res := status } }
       exec (.spare die) s = .next { s with freeCount := n, health := AMap.set s.health die h' })) ∧
  (∀ (s : State) (die : Nat),
    let h := State.healthOf s die
    let lost := if h.lost then 2 ^ 62 else 0
    let bad (h : Health) (a : Option Nat) : Health := { h with
      uecnt := min (h.uecnt + 1) 0xFFFFFFFF,
      elog := match a with
        | some a => if h.elog.length < 64 then h.elog ++ [a] else h.elog
        | none => h.elog,
      lost := h.lost || (a.isSome && decide (64 ≤ h.elog.length)) }
    let counts (t : State) (h' : Health) : Prop := t.health = AMap.set s.health die h' ∧ t.warps = s.warps
    (h.elog = [] → exec (.elogRead die) s = .next { s with supRead := lost }) ∧
    (∀ a rest, h.elog = a :: rest → ∃ t, exec (.elogRead die) s = .next t ∧
      t = { s with supRead := 2 ^ 63 + lost + a, health := t.health } ∧ counts t { h with elog := rest }) ∧
    (∀ core, ∃ t, exec (.softError (.corrected die core)) s = .next t ∧ sameBytes s t ∧
      counts t { h with cecnt := min (h.cecnt + 1) 0xFFFFFFFF } ∧
      ∀ (k : Nat) (cs : List EvCounter) (i : Nat) (e : EvCounter), core = some k → dieOf k = die → AMap.get? s.events k = some cs → cs[i]? = some e →
        ∃ ds, AMap.get? t.events k = some ds ∧
          ds[i]? = some (if e.source = some 8 then { e with count := (e.count + 1) % 2 ^ 48 } else e)) ∧
    (∃ t, exec (.softError (.array die)) s = .next t ∧ sameBytes s t ∧ counts t (bad h none)) ∧
    (∀ port, port / 4 = die → ∃ t, exec (.softError (.port port)) s = .next t ∧ sameBytes s t ∧
      counts t (bad h none)) ∧
    (∀ (w L r : Nat) (W : Warp), s.warps[w]? = some W → dieOf (State.coreOf s W) = die →
      (∃ t v, exec (.softError (.vreg w L r)) s = .next t ∧ sameBytes s t ∧
        t.warps = s.warps.set w (Warp.setV W r L v) ∧ t.health = AMap.set s.health die (bad h none)) ∧
      ∃ t v, exec (.softError (.sreg w r)) s = .next t ∧ sameBytes s t ∧
        t.warps = s.warps.set w (Warp.setS W r v) ∧ t.health = AMap.set s.health die (bad h none)) ∧
    (∀ pa, ∃ t, exec (.softError (.main pa)) s = .next t ∧ sameBytes s t ∧ t = { s with main := t.main } ∧
      Memory.uncorrectable t.main (pa / 8 * 8) 8 = true) ∧
    (∀ k off T, s.teams[k]? = some T → ∃ t T', exec (.softError (.shared k off)) s = .next t ∧
      sameBytes s t ∧ t = { s with teams := t.teams } ∧ t.teams[k]? = some T' ∧
      Memory.uncorrectable T'.shm (off / 8 * 8) 8 = true) ∧
    (∀ n A, AMap.get? s.contexts n = some A → ∀ x, ∃ t, exec (.softError (.context n x)) s = .next t ∧
      t = { s with contexts := t.contexts } ∧ AMap.get? t.contexts n = some { A with bad := A.bad ++ [x] }) ∧
    (∀ pa, die = (Config.dieOfAddr pa).val → State.countMain s pa =
      { s with health := AMap.set s.health die (bad h (some (pa / 32 * 32))) }) ∧
    (∃ t, exec .hbmScrub s = .next t ∧ t = { s with health := t.health } ∧
      ∀ k, s.main.bad = [k] → die = (Config.dieOfAddr (8 * k)).val →
        t.health = AMap.set s.health die (bad h (some (8 * k / 32 * 32)))))

/-- Heartbeats, quorum reset, power, register writes and outside stores act as stated. The island sends
each partner a heartbeat, which waits only where a link that its flits exhaust was the last, hears
beats, and sends a partner that falls silent one authenticated reset message with its next epoch if
it has a key. A reset message counts only if its tag verifies, its target is this device, its sender
is a partner, and its epoch exceeds the last one accepted from that sender; any other is dropped and
counted; the third accepted sender resets the dies. A measurement above 95 degrees is reported, and
one of 110 degrees is reported, trips the package and is recorded, whichever of the two events
measures it (log 29, DESIGN CHOICE); a power loss stops the package; the fused minimum stays. A
write to a command page sets an argument or starts a command that is not under way, a write of an
idle queue's QBASE or QCFG sets them, and a write of 0 clears an error counter. A general core, and
a host in the memory mapped for it and outside the translation tables, store exactly the bytes that
they name; a store of a general core where there is no memory is a fault, and another store of a
host does nothing (log 100, DESIGN CHOICE). The register writes follow logs 57 and 78 (DEDUCED), the
reset of the dies logs 71 and 72, and the addresses of the 640 GiB of main memory log 80 (DESIGN
CHOICE); the packets of the island follow log 97. (R339, R341, R360, R361, R362, R363, R364, R366,
R256, R292, R331, 24_device.md) -/
def Obligations.ModuleEvents : Prop :=
  (∀ (s : State) (peer : Nat),
    (∃ t, exec .heartbeatSend s = .next t ∧
      t = { s with sent := t.sent, unsent := t.unsent, seqOut := t.seqOut, ports := t.ports, reports := t.reports } ∧
      ∃ new late, t.sent = s.sent ++ new ∧ t.unsent = s.unsent ++ late ∧
        (new ++ late).length = s.island.partners.length ∧ (∀ p, p ∈ new ++ late → p.kind = 9 ∧ p.data = []) ∧
        (∀ d, d ∈ s.island.partners ↔ ∃ p, p ∈ new ++ late ∧ p.dst = d) ∧
        ((∀ n P, AMap.get? s.ports n = some P → P.counter + s.island.partners.length ≤ 2 ^ 36 - 2) →
          late = [] ∧ new.map (·.dst) = s.island.partners)) ∧
    exec (.heartbeatReceive peer) s =
      .next { s with island := { s.island with silent := s.island.silent.filter fun p => p ≠ peer } } ∧
    (peer ∈ s.island.partners → peer ∉ s.island.silent →
      let I : Island := { s.island with silent := s.island.silent ++ [peer] }
      (s.island.key = none → exec (.partnerSilent peer) s = .next { s with island := I }) ∧
      ∀ key, s.island.key = some key →
        let n := s.island.epoch + 1
        let body := n * 2 ^ 64 + peer * 2 ^ 32 + s.island.dev
        let tag := numOfBytes ((List.range 32).map (Config.kmac256 key (bytesOfNat 32 body)))
        let J : Island := { I with epoch := n }
        ∃ t p, exec (.partnerSilent peer) s = .next t ∧ p.kind = 9 ∧ p.dst = peer ∧ p.data = [tag * 2 ^ 256 + body] ∧
          t = { s with island := J, sent := t.sent, unsent := t.unsent, seqOut := t.seqOut, ports := t.ports,
                       reports := t.reports } ∧
          (t.sent = s.sent ++ [p] ∧ t.unsent = s.unsent ∨ t.sent = s.sent ∧ t.unsent = s.unsent ++ [p] ∧
            ∃ k P, AMap.get? s.ports k = some P ∧ 2 ^ 36 - 2 < P.counter + 2)) ∧
    (let temp (die : Nat) : Nat := Config.temperature s.freeCount die
     let measured (m : State) : Prop := m = { s with freeCount := s.freeCount + 1, health := m.health } ∧
       ∀ die, die < 8 → State.healthOf m die = { State.healthOf s die with temp := temp die }
     ∃ m, measured m ∧ ∀ i, i ∈ [Instr.thermalWarning, .thermalTrip] →
      if (List.range 8).any (fun die => 8 * 110 ≤ temp die) then
        ∃ t, exec i s = .next t ∧ t.island.tripped = true ∧ t.island.booted = false ∧ t.warps = [] ∧
          t.queues = [] ∧ t.main = Memory.empty ∧ t.island.fusedMin = s.island.fusedMin ∧ t.reports = [⟨.thermal, []⟩]
      else exec i s = .next
        (if (List.range 8).any (fun die => 8 * 95 < temp die) then { m with reports := s.reports ++ [⟨.thermal, []⟩] }
         else m))) ∧
  (∀ (s : State) (m : QuorumMsg),
    let isle := s.island
    let x := m.bits.toNat
    let sender := bits x 8 0
    let epoch := bits x 127 64
    let accepted : Prop := (∃ key, isle.key = some key ∧ x / 2 ^ 256 =
        numOfBytes ((List.range 32).map (Config.kmac256 key (bytesOfNat 32 (x % 2 ^ 256))))) ∧
      bits x 40 32 = isle.dev ∧ sender ∈ isle.partners ∧
      ∀ e, AMap.get? isle.epochs sender = some e → e < epoch
    let heard := isle.accepted.filter fun p => p ∉ m.expired
    let senders := heard.filter (fun p => p ≠ sender) ++ [sender]
    (¬ accepted → exec (.quorumResetMessage m) s =
      .next { s with island := { isle with accepted := heard, dropped := isle.dropped + 1 } }) ∧
    (accepted → senders.length < 3 → exec (.quorumResetMessage m) s = .next { s with island :=
      { isle with accepted := senders, epochs := AMap.set isle.epochs sender epoch } }) ∧
    (accepted → 3 ≤ senders.length → ∃ t, exec (.quorumResetMessage m) s = .next t ∧ t.warps = [] ∧
      t.queues = [] ∧ t.main = Memory.empty ∧ t.reports = [⟨.quorumReset, []⟩] ∧ t.island.booted = false ∧
      t.island.key = isle.key ∧ t.island.epochs = AMap.set isle.epochs sender epoch ∧
      t.island.fusedMin = isle.fusedMin)) ∧
  (∀ (s : State) (standby : Bool),
    (∃ t, exec (.powerLoss standby) s = .next t ∧ t.island.booted = false ∧ t.warps = [] ∧ t.queues = [] ∧
      t.main = Memory.empty ∧ t.island.fusedMin = s.island.fusedMin ∧
      (standby = true → t.island.key = s.island.key ∧ t.island.epochs = s.island.epochs))) ∧
  (∀ (s : State) (v : DWord),
    let x := v.toNat
    let writes (pa : Nat) (t : State) : Prop := ∃ n, exec (.registerWrite pa v) s = .next { t with freeCount := n }
    let starts (g : CmdRegs) : CmdRegs := { g with pending := some x }
    (∀ q, q < 256 →
      let Q := State.queue s q
      let put (N : Queue) : State := { s with queues := AMap.set s.queues q N }
      (Q.state = .idle → writes (0xFFB000000 + 0x40 * q) (put { Q with base := bits x 56 12 * 2 ^ 12 })) ∧
      (Q.state = .idle → 4 ≤ bits x 4 0 → bits x 4 0 ≤ 20 → writes (0xFFB000008 + 0x40 * q) (put
        { Q with size := bits x 4 0, prio := bits x 10 8, asid := bits x 31 16, enable := bits x 32 32 = 1,
                 state := if bits x 32 32 = 1 ∧ Q.wptr ≠ Q.rptr then .running else .idle })) ∧
      (Q.state ≠ .idle → writes (0xFFB000000 + 0x40 * q) s ∧ writes (0xFFB000008 + 0x40 * q) s)) ∧
    (∀ die, die < 8 →
      let g := State.ctxRegs s die
      let put (g : CmdRegs) : State := { s with ctxUnits := AMap.set s.ctxUnits die g }
      (g.pending = none → 1 ≤ x % 256 → x % 256 ≤ 3 → writes (0xFF8000000 + 0x10000 * die) (put (starts g))) ∧
      (g.pending ≠ none → writes (0xFF8000000 + 0x10000 * die) (put { g with res := 5 * 2 ^ 8 })) ∧
      writes (0xFF8000008 + 0x10000 * die) (put { g with arg0 := x }) ∧
      writes (0xFF8000010 + 0x10000 * die) (put { g with arg1 := x })) ∧
    (s.winRegs.pending = none → x % 256 = 1 ∨ x % 256 = 2 →
      writes 0xFF9000000 { s with winRegs := starts s.winRegs }) ∧
    (s.winRegs.pending ≠ none → writes 0xFF9000000 s) ∧
    writes 0xFF9000008 { s with winRegs := { s.winRegs with arg0 := x } } ∧
    writes 0xFF9000010 { s with winRegs := { s.winRegs with arg1 := x } } ∧
    writes 0xFF9000028 { s with latecyc := x } ∧ writes 0xFF9000030 { s with grpperm := x } ∧
    (s.xlRegs.pending = none →
      (1 ≤ x % 256 → x % 256 ≤ 3 → writes 0xFFA000000 { s with xlRegs := starts s.xlRegs }) ∧
      (x % 256 = 0 ∨ 3 < x % 256 → writes 0xFFA000000 { s with xlRegs := { s.xlRegs with res := 1 } })) ∧
    (s.xlRegs.pending ≠ none → writes 0xFFA000000 s) ∧
    writes 0xFFA000008 { s with xlRegs := { s.xlRegs with arg0 := x } } ∧
    writes 0xFFA000010 { s with xlRegs := { s.xlRegs with arg1 := x } } ∧
    (∀ die, die < 8 →
      let h := State.healthOf s die
      let put (h : Health) : State := { s with health := AMap.set s.health die h }
      (x = 0 → writes (0xFFC000000 + 0x100 * die) (put { h with cecnt := 0 }) ∧
        writes (0xFFC000008 + 0x100 * die) (put { h with uecnt := 0 })) ∧
      (h.regs.pending = none → x % 256 = 1 →
        writes (0xFFC000018 + 0x100 * die) (put { h with regs := starts h.regs })) ∧
      (h.regs.pending = none → 2 ≤ x % 256 → x % 256 ≤ 6 → ∃ t, t = put { h with regs := starts h.regs } ∧
        writes (0xFFC000018 + 0x100 * die)
          { t with island := { s.island with commands := s.island.commands ++ [die] } }) ∧
      (h.regs.pending ≠ none → writes (0xFFC000018 + 0x100 * die) s) ∧
      writes (0xFFC000020 + 0x100 * die) (put { h with regs := { h.regs with arg0 := x } }))) ∧
  (∀ (s : State) (host pa : Nat) (bytes : List Byte), State.inForest s pa bytes.length = false →
    let mapped : Prop := ∃ b n, (host, b, n) ∈ s.hostMem ∧ b ≤ pa ∧ pa + bytes.length ≤ b + n
    let stores (o : Out State) (scan : Bool) : Prop := ∃ t, o = .next t ∧
      t = { s with main := t.main, execMaps := t.execMaps } ∧
      (scan = false → t.execMaps = s.execMaps) ∧ (scan = true → t.execMaps.length = s.execMaps.length ∧
        ∀ (i : Nat) (m : ExecMap), s.execMaps[i]? = some m → ∃ gone, t.execMaps[i]? = some { m with gone := gone } ∧
          ∀ k, 65536 * k < m.len → (k ∈ gone ↔ k ∈ m.gone ∨ (State.fetchable s m.asid (m.va + 65536 * k) = true ∧
            State.fetchable t m.asid (m.va + 65536 * k) = false) ∨ State.writable t m.asid (m.va + 65536 * k) = true)) ∧
      ∀ a, Memory.byte t.main a = if pa ≤ a ∧ a < pa + bytes.length then bytes.getD (a - pa) 0
        else Memory.byte s.main a
    (isMain pa bytes.length = true → stores (exec (.generalCoreStore (.main pa) bytes) s) true ∧
      (mapped → State.inTables s pa bytes.length = false →
        stores (exec (.hostMemoryWrite ⟨host, pa⟩ bytes) s) false)) ∧
    (isMain pa bytes.length = false → exec (.generalCoreStore (.main pa) bytes) s = .fault .physAddr) ∧
    (¬ mapped ∨ isMain pa bytes.length = false ∨ State.inTables s pa bytes.length = true →
      exec (.hostMemoryWrite ⟨host, pa⟩ bytes) s = .next s) ∧
    (isMain pa bytes.length = true ↔ pa + bytes.length ≤ 0xFF8000000 ∨
      (2 ^ 36 ≤ pa ∧ pa + bytes.length ≤ 640 * 2 ^ 30 + 0x8000000)) ∧
    (∀ g die G, s.grids[g]? = some G → die < G.scr.length → ∃ t, exec (.generalCoreStore (.scratch g die pa) bytes) s =
      .next t ∧ sameBytesBut s t 0 (.scratch g die pa) bytes.length ∧ ∀ i, i < bytes.length →
        State.byteAt t (.scratch g die (pa + i)) = bytes.getD i 0))

/-- A step decodes the words at the program counter and executes that instruction. When the next turn is
a fragment's, on a booted device, the fragment is the one that its core's arbiter serves, no trap of
its warp is due, and the words at its pc, which is a tagged start, are correctable and decode to an
instruction, a step is that instruction's execution, in the state whose turn has been taken, with
the fragment last in the arbiter's order, its translation gathered, and the instruction counted.
When the next turn is a run's, and its next slot decodes, a step is the execution of that lane
instruction. When it is an event's of an agent that acts, a step is the event. A fragment that the
arbiter does not serve does nothing, and one whose fetch faults takes the trap of the fetch, as one
does whose second word lies outside every executable mapping; so does every slot of a run lie in
one; uncorrectable instruction bytes trap with MEMUNC at their address, for a run when it comes to
their slot (log 84, DESIGN CHOICE). The arbiter of a core serves level 1 before level 0, and a
level-0 fragment that has been passed over 64 times first. The model's turns (log 1) and what acts
before BOOT (log 71) are no rule of the specification. (R3, R55, R60, R73, R97, R111, R119, R315,
06_scalar_stream.md) -/
def Obligations.StepRunsDecodedInstruction : Prop :=
  (∀ (s u : State) (w slot : Nat), State.nextTurn s = some (.scalar w slot, u) →
    let v : State := { State.issueTo u w slot with cur := (w, slot) }
    (u.island.booted = false ∨ State.chosen u (w, slot) = false → step s = .next u) ∧
    ∀ c, u.island.booted = true → State.chosen u (w, slot) = true → State.ctx? v = some c →
      c.warp.laneTrap = none → Warp.dueAsync c.warp = none →
      let core := State.coreOf v c.warp
      let asid := State.asidOf v c.warp
      let va := State.scalarVA v c.warp c.frag.pc
      (∀ x pa, State.checkStart v (.core core) asid va false = .ok (x, pa) →
        let w0 := Memory.read x.main pa 4
        let bad := Memory.uncorrectable x.main pa 4
        (bad = true → step s = Ctx.trap c (State.metVirtual v asid va) (4 * 64 + 4) (dword va)) ∧
        (bad = false → scalarLength w0 = 2 → State.mapping? v asid (va + 4) = none →
          State.unmappedFetch x (.core core) asid (va + 4) = .outside →
          step s = Ctx.trap c v (2 * 64 + 2) (dword (va + 4))) ∧
        (∀ y pb, bad = false → scalarLength w0 = 2 → (State.mapping? v asid (va + 4)).isSome = true →
          State.translate x (.core core) asid (va + 4) .fetch = .ok (y, pb) → Memory.uncorrectable y.main pb 4 = true →
          step s = Ctx.trap c (State.metVirtual v asid (va + 4)) (4 * 64 + 4) (dword (va + 4))) ∧
        (∀ i, bad = false → scalarLength w0 = 1 → decodeScalar w0 none = .ok i →
          step s = exec i (State.tick x (State.coreOf x c.warp) 1)) ∧
        (∀ y pb i, bad = false → scalarLength w0 = 2 → (State.mapping? v asid (va + 4)).isSome = true →
          State.translate x (.core core) asid (va + 4) .fetch = .ok (y, pb) →
          Memory.uncorrectable y.main pb 4 = false → decodeScalar w0 (some (Memory.read y.main pb 4)) = .ok i →
          step s = exec i (State.tick y (State.coreOf y c.warp) 1))) ∧
      (State.checkStart v (.core core) asid va false = .error .noStart → step s = Ctx.trap c v (2 * 64) (dword va)) ∧
      (State.checkStart v (.core core) asid va false = .error .outside →
        step s = Ctx.trap c v (2 * 64 + 2) (dword va)) ∧
      (∀ f, State.checkStart v (.core core) asid va false = .error (.xlate f) →
        step s = Ctx.xlFault c v f va false)) ∧
  (∀ (s u : State) (w : Nat) (W : Warp) (e : RunExec) (slot : Slot) (i : Instr),
    State.nextTurn s = some (.lane w, u) → u.island.booted = true → u.warps[w]? = some W →
    State.active u W = true → W.exec = some e →
    e.trail = none → e.entry.code[e.idx]? = some slot →
    let v : State := { u with laneCur := w }
    (slot.lost = false → decodeLane slot.w0 slot.w1 slot.w2 = .ok i → step s = exec i v) ∧
    (slot.lost = true → ∀ c, State.laneCtx? v = some c →
      step s = LaneCtx.trap c v (4 * 64 + 4) e.live (dword (State.runVA v W (LaneCtx.index c))))) ∧
  (∀ (s t : State) (ag : Agent) (asid n va : Nat) (code : List Slot), fetchSlots s ag asid n va = .ok (t, code) →
    ∀ k, k < 3 * code.length → (State.mapping? s asid (va + 4 * k)).isSome = true) ∧
  (∀ (s u : State) (i : Instr), State.nextTurn s = some (.event i, u) → i.kind = .event →
    (State.acts u (.event i) = true → step s = exec i u) ∧ (State.acts u (.event i) = false → step s = .next u)) ∧
  (∀ (s : State) (i : Instr), s.island.booted = true → s.island.loaded = true → State.acts s (.event i) = true) ∧
  (∀ (s : State) (e x : Nat × Nat) (core : Nat) (lev : Bool), State.chosen s e = true →
    State.claim s e = some (core, lev) → x ∈ s.rr →
    (State.claim s x = some (core, true) → lev = true ∨ 64 ≤ State.age s e) ∧
    (State.claim s x = some (core, false) → 64 ≤ State.age s x → lev = false ∧ 64 ≤ State.age s e)) ∧
  (∀ (s : State) (t : Turn) (rest : List Turn), s.agenda = t :: rest →
    State.nextTurn s = some (t, { s with agenda := rest })) ∧
  (∀ s : State, State.nextTurn s = none → step s = .next s)

/-- Words written out from the encodings decode to their instructions. One or two words of most scalar
families, as the encoding tables and the examples of the specification give them, decode to the
instruction that they stand for, and so do slots of lane instructions. (R55, R57, R58, R59, R60,
R61, R64, 04_encodings.md) -/
def Obligations.WordsDecodeToTheirInstructions : Prop :=
  (∀ w i, (w, i) ∈ [(0x003C80E0, Instr.add 15 16 14), (0x042440A2, .lea 9 8 10 2), (0x08143468, .extb 5 6 8 4 true),
      (0x204457FF, .addi 17 10 (-1)), (0x36280048, .movi 10 72), (0x50244004, .sld 9 8 4), (0x5803C000, .spush 120),
      (0x6003FFF8, .br (-8)), (0x62280009, .beqz 10 9), (0x6BF80028, .call 126 40), (0x82000004, .lwait 4),
      (0x88240003, .pget 9 3), (0x8C006003, .waitp 12 3), (0x922470F0, .barInit 9 14 15), (0x962438A0, .scopeset 9 7 10),
      (0xA000C000, .cpyLin 24), (0xA42418A0, .thbind 9 3 10), (0xB0540208, .macqPair 21 8), (0xC02420A0, .eqOpen 9 4 10),
      (0xC200C002, .eqrelSum 24), (0xC8A08112, .ctxAcq 40 16 17), (0xD82468E7, .fmc 9 13 14 7),
      (0xE0000005, .trap 5), (0xE2000000, .tret), (0xE4280014, .rdsr 10 0x14), (0xE6005000, .wrsr 10 0),
      (0xE800C000, .launch 24), (0xECA01001, .evrd 40 2), (0xEE03D000, .ssave 122)] →
    decodeScalar w none = .ok i) ∧
  decodeScalar 0x38600000 (some 0x10000040) = .ok (.movl 24 0x10000040) ∧
  decodeScalar 0x6E040005 (some 7) = .ok (.brv false 1 5 7) ∧
  decodeScalar 0x805CB183 (some 0x40000022) = .ok (.lrun 34 0x40 3 23 22 24 0) ∧
  decodeLane 0x040E1000 0x14480000 2 = .ok (.laneShl
    { ty := .n32, pg := 0, pn := false, nw := true, d := 0, a := .v 40, b := .w2, c := .v 0, fn := 0, w2 := 2 }) ∧
  decodeLane 0x28000030 0x84480000 0 = .ok (.setp
    { ty := .b32, pg := 0, pn := false, nw := false, d := 3, a := .q 8, b := .w2, c := .v 0, fn := 0, w2 := 0 }) ∧
  decodeLane 0x30808040 0x84802841 0 = .ok (.vote
    { ty := .b32, pg := 2, pn := false, nw := false, d := 4, a := .q 9, b := .v 0, c := .arg 2, fn := 1, w2 := 0 }) ∧
  decodeLane 0x39975000 0x80480520 0x200 = .ok (.ats
    { ty := .f32, pg := 5, pn := false, nw := true, d := 0, a := .q 0, b := .w2, c := .v 41, fn := 0, w2 := 0x200 })

/-- Every well-formed scalar and lane instruction decodes from its own words, whatever follows them. For
every well-formed scalar instruction, decoding the bytes of its words, least significant byte first
and followed by any bytes, gives the instruction back with every operand; and so for every
well-formed lane instruction and its three words. An event has no words. (R55, R56, R57, R58, R59,
R60, R61, R62, R63, R64, R65, 04_encodings.md) -/
def Obligations.DecodingUndoesEncoding : Prop :=
  ∀ (i : Instr) (more : List Byte), i.wf = true →
    match i.kind with
    | .scalar => decodeScalarBytes ((encode i).flatMap bytesOfWord ++ more) = .ok i
    | .lane => decodeLaneBytes ((encode i).flatMap bytesOfWord ++ more) = .ok i
    | .event => encode i = []

/-- Whatever decodes is well formed and its words are the only ones that decode to it. If a scalar word,
with the word behind it, decodes to an instruction, the instruction is a well-formed scalar one, and
its encoding is that word alone or, for a two-word form, the two. If the three words of a slot
decode, the instruction is a well-formed lane instruction and those are its words. No two bit
patterns stand for one instruction, and none outside the encodings stands for any. (R55, R58, R59,
R60, R63, R70, R76, 04_encodings.md) -/
def Obligations.DecodedInstructionsAreWellFormed : Prop :=
  (∀ (w : Nat) (next : Option Nat) (i : Instr), w < 2 ^ 32 → (∀ n, next = some n → n < 2 ^ 32) →
    decodeScalar w next = .ok i → i.wf = true ∧ i.kind = .scalar ∧
      (encode i = [w] ∨ ∃ n, next = some n ∧ encode i = [w, n])) ∧
  (∀ (w0 w1 w2 : Nat) (i : Instr), w0 < 2 ^ 32 → w1 < 2 ^ 32 → w2 < 2 ^ 32 → decodeLane w0 w1 w2 = .ok i →
    i.wf = true ∧ i.kind = .lane ∧ encode i = [w0, w1, w2])

/-- Every step keeps main memory in its canonical form. From every state whose main memory lists its
addresses strictly rising and no byte equal to what an unlisted address reads as, each step of any
agent that answers a next state gives such a state. Equal main memories are thus equal data after
any run. The form is the model's, of its own representation (log 4). (01_machine.md,
06_scalar_stream.md, 08_lanes_and_local_memory.md, 09_copies.md, 23_queues_and_launch.md,
24_device.md) -/
def Obligations.MemoryStaysCanonical : Prop :=
  ∀ s t : State, State.canonical s → step s = .next t → State.canonical t

/-- Reset leaves every queue idle, disabled and empty, nothing mapped, no command under way, the error
registers zero, and memory canonical. Right after reset every queue is IDLE and disabled with RPTR,
WPTR, PRIO, its reset count and QFAULT zero, LATECYC is 2^24, the windows are not valid, no command
is under way, the health blocks' ARG and RES and the error counters are zero, no error is logged, no
warp, team, grid or executable mapping exists, no TLB holds an entry, and main memory is in its
canonical form. That memory reads 0 is the model's choice (log 4), and so is that no queue has a
host, no host has memory mapped, and no stream is bound (log 3, DESIGN CHOICE). (R256, R290, R292,
R339, R340, R360, R328, 23_queues_and_launch.md, 24_device.md) -/
def Obligations.ResetState : Prop :=
  State.canonical State.reset ∧
  (∀ q, let Q := State.queue State.reset q
    Q.state = .idle ∧ Q.enable = false ∧ Q.rptr = 0 ∧ Q.wptr = 0 ∧ Q.prio = 0 ∧ Q.rcnt = 0 ∧ Q.fault = 0 ∧ Q.pre = []) ∧
  State.reset.latecyc = 2 ^ 24 ∧ State.reset.windows = [] ∧ State.reset.winRegs.pending = none ∧
  State.reset.xlRegs.pending = none ∧ (∀ die, (State.ctxRegs State.reset die).pending = none) ∧
  (∀ die, let h := State.healthOf State.reset die
    h.cecnt = 0 ∧ h.uecnt = 0 ∧ h.elog = [] ∧ h.regs.pending = none ∧ h.regs.arg0 = 0 ∧ h.regs.res = 0 ∧ h.dieev = List.replicate 16 0) ∧
  State.reset.warps = [] ∧ State.reset.teams = [] ∧ State.reset.grids = [] ∧ State.reset.execMaps = [] ∧
  State.reset.copyRounds = [] ∧ State.reset.sent = [] ∧ State.reset.unsent = [] ∧ State.reset.hubCopies = [] ∧
  State.reset.tlb = [] ∧ State.reset.scans = [] ∧ State.reset.ages = [] ∧ State.reset.seqs = [] ∧
  State.reset.hosts = [] ∧ State.reset.hostMem = [] ∧ State.reset.island.booted = false ∧
  State.reset.island.loaded = false ∧ State.reset.streams = [] ∧ State.reset.grants = [] ∧
  (∀ a, Memory.byte State.reset.main a = 0)
end

