-- ==== Sys2Proof/Laws/State.lean ====
section
/-! SUPPORT. What each update of State leaves of every field: one lemma per field and update, so that no
proof unfolds a record update. -/
namespace Sys2Proof.Machine

/-! ### State.setWarp -/

@[simp] theorem State.setWarp_agenda (s : State) (w : Nat) (W : Warp) :
    (State.setWarp s w W).agenda = s.agenda := rfl
@[simp] theorem State.setWarp_cur (s : State) (w : Nat) (W : Warp) :
    (State.setWarp s w W).cur = s.cur := rfl
@[simp] theorem State.setWarp_laneCur (s : State) (w : Nat) (W : Warp) :
    (State.setWarp s w W).laneCur = s.laneCur := rfl
@[simp] theorem State.setWarp_freeCount (s : State) (w : Nat) (W : Warp) :
    (State.setWarp s w W).freeCount = s.freeCount := rfl
@[simp] theorem State.setWarp_rr (s : State) (w : Nat) (W : Warp) :
    (State.setWarp s w W).rr = s.rr := rfl
@[simp] theorem State.setWarp_ages (s : State) (w : Nat) (W : Warp) :
    (State.setWarp s w W).ages = s.ages := rfl
@[simp] theorem State.setWarp_copyRounds (s : State) (w : Nat) (W : Warp) :
    (State.setWarp s w W).copyRounds = s.copyRounds := rfl
@[simp] theorem State.setWarp_warps (s : State) (w : Nat) (W : Warp) :
    (State.setWarp s w W).warps = s.warps.set w W := rfl
@[simp] theorem State.setWarp_teams (s : State) (w : Nat) (W : Warp) :
    (State.setWarp s w W).teams = s.teams := rfl
@[simp] theorem State.setWarp_grids (s : State) (w : Nat) (W : Warp) :
    (State.setWarp s w W).grids = s.grids := rfl
@[simp] theorem State.setWarp_main (s : State) (w : Nat) (W : Warp) :
    (State.setWarp s w W).main = s.main := rfl
@[simp] theorem State.setWarp_roots (s : State) (w : Nat) (W : Warp) :
    (State.setWarp s w W).roots = s.roots := rfl
@[simp] theorem State.setWarp_tlb (s : State) (w : Nat) (W : Warp) :
    (State.setWarp s w W).tlb = s.tlb := rfl
@[simp] theorem State.setWarp_execMaps (s : State) (w : Nat) (W : Warp) :
    (State.setWarp s w W).execMaps = s.execMaps := rfl
@[simp] theorem State.setWarp_scans (s : State) (w : Nat) (W : Warp) :
    (State.setWarp s w W).scans = s.scans := rfl
@[simp] theorem State.setWarp_reports (s : State) (w : Nat) (W : Warp) :
    (State.setWarp s w W).reports = s.reports := rfl
@[simp] theorem State.setWarp_supRead (s : State) (w : Nat) (W : Warp) :
    (State.setWarp s w W).supRead = s.supRead := rfl
@[simp] theorem State.setWarp_scopes (s : State) (w : Nat) (W : Warp) :
    (State.setWarp s w W).scopes = s.scopes := rfl
@[simp] theorem State.setWarp_arrays (s : State) (w : Nat) (W : Warp) :
    (State.setWarp s w W).arrays = s.arrays := rfl
@[simp] theorem State.setWarp_forests (s : State) (w : Nat) (W : Warp) :
    (State.setWarp s w W).forests = s.forests := rfl
@[simp] theorem State.setWarp_contexts (s : State) (w : Nat) (W : Warp) :
    (State.setWarp s w W).contexts = s.contexts := rfl
@[simp] theorem State.setWarp_ctxUnits (s : State) (w : Nat) (W : Warp) :
    (State.setWarp s w W).ctxUnits = s.ctxUnits := rfl
@[simp] theorem State.setWarp_ctxReports (s : State) (w : Nat) (W : Warp) :
    (State.setWarp s w W).ctxReports = s.ctxReports := rfl
@[simp] theorem State.setWarp_streams (s : State) (w : Nat) (W : Warp) :
    (State.setWarp s w W).streams = s.streams := rfl
@[simp] theorem State.setWarp_fabid (s : State) (w : Nat) (W : Warp) :
    (State.setWarp s w W).fabid = s.fabid := rfl
@[simp] theorem State.setWarp_windows (s : State) (w : Nat) (W : Warp) :
    (State.setWarp s w W).windows = s.windows := rfl
@[simp] theorem State.setWarp_winRegs (s : State) (w : Nat) (W : Warp) :
    (State.setWarp s w W).winRegs = s.winRegs := rfl
@[simp] theorem State.setWarp_latecyc (s : State) (w : Nat) (W : Warp) :
    (State.setWarp s w W).latecyc = s.latecyc := rfl
@[simp] theorem State.setWarp_grpperm (s : State) (w : Nat) (W : Warp) :
    (State.setWarp s w W).grpperm = s.grpperm := rfl
@[simp] theorem State.setWarp_laterep (s : State) (w : Nat) (W : Warp) :
    (State.setWarp s w W).laterep = s.laterep := rfl
@[simp] theorem State.setWarp_ports (s : State) (w : Nat) (W : Warp) :
    (State.setWarp s w W).ports = s.ports := rfl
@[simp] theorem State.setWarp_peers (s : State) (w : Nat) (W : Warp) :
    (State.setWarp s w W).peers = s.peers := rfl
@[simp] theorem State.setWarp_groups (s : State) (w : Nat) (W : Warp) :
    (State.setWarp s w W).groups = s.groups := rfl
@[simp] theorem State.setWarp_hints (s : State) (w : Nat) (W : Warp) :
    (State.setWarp s w W).hints = s.hints := rfl
@[simp] theorem State.setWarp_jobs (s : State) (w : Nat) (W : Warp) :
    (State.setWarp s w W).jobs = s.jobs := rfl
@[simp] theorem State.setWarp_jobPeers (s : State) (w : Nat) (W : Warp) :
    (State.setWarp s w W).jobPeers = s.jobPeers := rfl
@[simp] theorem State.setWarp_notices (s : State) (w : Nat) (W : Warp) :
    (State.setWarp s w W).notices = s.notices := rfl
@[simp] theorem State.setWarp_homes (s : State) (w : Nat) (W : Warp) :
    (State.setWarp s w W).homes = s.homes := rfl
@[simp] theorem State.setWarp_seqs (s : State) (w : Nat) (W : Warp) :
    (State.setWarp s w W).seqs = s.seqs := rfl
@[simp] theorem State.setWarp_seqOut (s : State) (w : Nat) (W : Warp) :
    (State.setWarp s w W).seqOut = s.seqOut := rfl
@[simp] theorem State.setWarp_sent (s : State) (w : Nat) (W : Warp) :
    (State.setWarp s w W).sent = s.sent := rfl
@[simp] theorem State.setWarp_unsent (s : State) (w : Nat) (W : Warp) :
    (State.setWarp s w W).unsent = s.unsent := rfl
@[simp] theorem State.setWarp_xlRegs (s : State) (w : Nat) (W : Warp) :
    (State.setWarp s w W).xlRegs = s.xlRegs := rfl
@[simp] theorem State.setWarp_queues (s : State) (w : Nat) (W : Warp) :
    (State.setWarp s w W).queues = s.queues := rfl
@[simp] theorem State.setWarp_hosts (s : State) (w : Nat) (W : Warp) :
    (State.setWarp s w W).hosts = s.hosts := rfl
@[simp] theorem State.setWarp_hostMem (s : State) (w : Nat) (W : Warp) :
    (State.setWarp s w W).hostMem = s.hostMem := rfl
@[simp] theorem State.setWarp_rounds (s : State) (w : Nat) (W : Warp) :
    (State.setWarp s w W).rounds = s.rounds := rfl
@[simp] theorem State.setWarp_lastQueue (s : State) (w : Nat) (W : Warp) :
    (State.setWarp s w W).lastQueue = s.lastQueue := rfl
@[simp] theorem State.setWarp_hubCopies (s : State) (w : Nat) (W : Warp) :
    (State.setWarp s w W).hubCopies = s.hubCopies := rfl
@[simp] theorem State.setWarp_events (s : State) (w : Nat) (W : Warp) :
    (State.setWarp s w W).events = s.events := rfl
@[simp] theorem State.setWarp_grants (s : State) (w : Nat) (W : Warp) :
    (State.setWarp s w W).grants = s.grants := rfl
@[simp] theorem State.setWarp_health (s : State) (w : Nat) (W : Warp) :
    (State.setWarp s w W).health = s.health := rfl
@[simp] theorem State.setWarp_island (s : State) (w : Nat) (W : Warp) :
    (State.setWarp s w W).island = s.island := rfl

/-! ### State.onWarp -/

@[simp] theorem State.onWarp_agenda (s : State) (w : Nat) (f : Warp → Warp) :
    (State.onWarp s w f).agenda = s.agenda := rfl
@[simp] theorem State.onWarp_cur (s : State) (w : Nat) (f : Warp → Warp) :
    (State.onWarp s w f).cur = s.cur := rfl
@[simp] theorem State.onWarp_laneCur (s : State) (w : Nat) (f : Warp → Warp) :
    (State.onWarp s w f).laneCur = s.laneCur := rfl
@[simp] theorem State.onWarp_freeCount (s : State) (w : Nat) (f : Warp → Warp) :
    (State.onWarp s w f).freeCount = s.freeCount := rfl
@[simp] theorem State.onWarp_rr (s : State) (w : Nat) (f : Warp → Warp) :
    (State.onWarp s w f).rr = s.rr := rfl
@[simp] theorem State.onWarp_ages (s : State) (w : Nat) (f : Warp → Warp) :
    (State.onWarp s w f).ages = s.ages := rfl
@[simp] theorem State.onWarp_copyRounds (s : State) (w : Nat) (f : Warp → Warp) :
    (State.onWarp s w f).copyRounds = s.copyRounds := rfl
@[simp] theorem State.onWarp_warps (s : State) (w : Nat) (f : Warp → Warp) :
    (State.onWarp s w f).warps = s.warps.modify w f := rfl
@[simp] theorem State.onWarp_teams (s : State) (w : Nat) (f : Warp → Warp) :
    (State.onWarp s w f).teams = s.teams := rfl
@[simp] theorem State.onWarp_grids (s : State) (w : Nat) (f : Warp → Warp) :
    (State.onWarp s w f).grids = s.grids := rfl
@[simp] theorem State.onWarp_main (s : State) (w : Nat) (f : Warp → Warp) :
    (State.onWarp s w f).main = s.main := rfl
@[simp] theorem State.onWarp_roots (s : State) (w : Nat) (f : Warp → Warp) :
    (State.onWarp s w f).roots = s.roots := rfl
@[simp] theorem State.onWarp_tlb (s : State) (w : Nat) (f : Warp → Warp) :
    (State.onWarp s w f).tlb = s.tlb := rfl
@[simp] theorem State.onWarp_execMaps (s : State) (w : Nat) (f : Warp → Warp) :
    (State.onWarp s w f).execMaps = s.execMaps := rfl
@[simp] theorem State.onWarp_scans (s : State) (w : Nat) (f : Warp → Warp) :
    (State.onWarp s w f).scans = s.scans := rfl
@[simp] theorem State.onWarp_reports (s : State) (w : Nat) (f : Warp → Warp) :
    (State.onWarp s w f).reports = s.reports := rfl
@[simp] theorem State.onWarp_supRead (s : State) (w : Nat) (f : Warp → Warp) :
    (State.onWarp s w f).supRead = s.supRead := rfl
@[simp] theorem State.onWarp_scopes (s : State) (w : Nat) (f : Warp → Warp) :
    (State.onWarp s w f).scopes = s.scopes := rfl
@[simp] theorem State.onWarp_arrays (s : State) (w : Nat) (f : Warp → Warp) :
    (State.onWarp s w f).arrays = s.arrays := rfl
@[simp] theorem State.onWarp_forests (s : State) (w : Nat) (f : Warp → Warp) :
    (State.onWarp s w f).forests = s.forests := rfl
@[simp] theorem State.onWarp_contexts (s : State) (w : Nat) (f : Warp → Warp) :
    (State.onWarp s w f).contexts = s.contexts := rfl
@[simp] theorem State.onWarp_ctxUnits (s : State) (w : Nat) (f : Warp → Warp) :
    (State.onWarp s w f).ctxUnits = s.ctxUnits := rfl
@[simp] theorem State.onWarp_ctxReports (s : State) (w : Nat) (f : Warp → Warp) :
    (State.onWarp s w f).ctxReports = s.ctxReports := rfl
@[simp] theorem State.onWarp_streams (s : State) (w : Nat) (f : Warp → Warp) :
    (State.onWarp s w f).streams = s.streams := rfl
@[simp] theorem State.onWarp_fabid (s : State) (w : Nat) (f : Warp → Warp) :
    (State.onWarp s w f).fabid = s.fabid := rfl
@[simp] theorem State.onWarp_windows (s : State) (w : Nat) (f : Warp → Warp) :
    (State.onWarp s w f).windows = s.windows := rfl
@[simp] theorem State.onWarp_winRegs (s : State) (w : Nat) (f : Warp → Warp) :
    (State.onWarp s w f).winRegs = s.winRegs := rfl
@[simp] theorem State.onWarp_latecyc (s : State) (w : Nat) (f : Warp → Warp) :
    (State.onWarp s w f).latecyc = s.latecyc := rfl
@[simp] theorem State.onWarp_grpperm (s : State) (w : Nat) (f : Warp → Warp) :
    (State.onWarp s w f).grpperm = s.grpperm := rfl
@[simp] theorem State.onWarp_laterep (s : State) (w : Nat) (f : Warp → Warp) :
    (State.onWarp s w f).laterep = s.laterep := rfl
@[simp] theorem State.onWarp_ports (s : State) (w : Nat) (f : Warp → Warp) :
    (State.onWarp s w f).ports = s.ports := rfl
@[simp] theorem State.onWarp_peers (s : State) (w : Nat) (f : Warp → Warp) :
    (State.onWarp s w f).peers = s.peers := rfl
@[simp] theorem State.onWarp_groups (s : State) (w : Nat) (f : Warp → Warp) :
    (State.onWarp s w f).groups = s.groups := rfl
@[simp] theorem State.onWarp_hints (s : State) (w : Nat) (f : Warp → Warp) :
    (State.onWarp s w f).hints = s.hints := rfl
@[simp] theorem State.onWarp_jobs (s : State) (w : Nat) (f : Warp → Warp) :
    (State.onWarp s w f).jobs = s.jobs := rfl
@[simp] theorem State.onWarp_jobPeers (s : State) (w : Nat) (f : Warp → Warp) :
    (State.onWarp s w f).jobPeers = s.jobPeers := rfl
@[simp] theorem State.onWarp_notices (s : State) (w : Nat) (f : Warp → Warp) :
    (State.onWarp s w f).notices = s.notices := rfl
@[simp] theorem State.onWarp_homes (s : State) (w : Nat) (f : Warp → Warp) :
    (State.onWarp s w f).homes = s.homes := rfl
@[simp] theorem State.onWarp_seqs (s : State) (w : Nat) (f : Warp → Warp) :
    (State.onWarp s w f).seqs = s.seqs := rfl
@[simp] theorem State.onWarp_seqOut (s : State) (w : Nat) (f : Warp → Warp) :
    (State.onWarp s w f).seqOut = s.seqOut := rfl
@[simp] theorem State.onWarp_sent (s : State) (w : Nat) (f : Warp → Warp) :
    (State.onWarp s w f).sent = s.sent := rfl
@[simp] theorem State.onWarp_unsent (s : State) (w : Nat) (f : Warp → Warp) :
    (State.onWarp s w f).unsent = s.unsent := rfl
@[simp] theorem State.onWarp_xlRegs (s : State) (w : Nat) (f : Warp → Warp) :
    (State.onWarp s w f).xlRegs = s.xlRegs := rfl
@[simp] theorem State.onWarp_queues (s : State) (w : Nat) (f : Warp → Warp) :
    (State.onWarp s w f).queues = s.queues := rfl
@[simp] theorem State.onWarp_hosts (s : State) (w : Nat) (f : Warp → Warp) :
    (State.onWarp s w f).hosts = s.hosts := rfl
@[simp] theorem State.onWarp_hostMem (s : State) (w : Nat) (f : Warp → Warp) :
    (State.onWarp s w f).hostMem = s.hostMem := rfl
@[simp] theorem State.onWarp_rounds (s : State) (w : Nat) (f : Warp → Warp) :
    (State.onWarp s w f).rounds = s.rounds := rfl
@[simp] theorem State.onWarp_lastQueue (s : State) (w : Nat) (f : Warp → Warp) :
    (State.onWarp s w f).lastQueue = s.lastQueue := rfl
@[simp] theorem State.onWarp_hubCopies (s : State) (w : Nat) (f : Warp → Warp) :
    (State.onWarp s w f).hubCopies = s.hubCopies := rfl
@[simp] theorem State.onWarp_events (s : State) (w : Nat) (f : Warp → Warp) :
    (State.onWarp s w f).events = s.events := rfl
@[simp] theorem State.onWarp_grants (s : State) (w : Nat) (f : Warp → Warp) :
    (State.onWarp s w f).grants = s.grants := rfl
@[simp] theorem State.onWarp_health (s : State) (w : Nat) (f : Warp → Warp) :
    (State.onWarp s w f).health = s.health := rfl
@[simp] theorem State.onWarp_island (s : State) (w : Nat) (f : Warp → Warp) :
    (State.onWarp s w f).island = s.island := rfl

/-! ### State.onTeam -/

@[simp] theorem State.onTeam_agenda (s : State) (t : Nat) (f : Team → Team) :
    (State.onTeam s t f).agenda = s.agenda := rfl
@[simp] theorem State.onTeam_cur (s : State) (t : Nat) (f : Team → Team) :
    (State.onTeam s t f).cur = s.cur := rfl
@[simp] theorem State.onTeam_laneCur (s : State) (t : Nat) (f : Team → Team) :
    (State.onTeam s t f).laneCur = s.laneCur := rfl
@[simp] theorem State.onTeam_freeCount (s : State) (t : Nat) (f : Team → Team) :
    (State.onTeam s t f).freeCount = s.freeCount := rfl
@[simp] theorem State.onTeam_rr (s : State) (t : Nat) (f : Team → Team) :
    (State.onTeam s t f).rr = s.rr := rfl
@[simp] theorem State.onTeam_ages (s : State) (t : Nat) (f : Team → Team) :
    (State.onTeam s t f).ages = s.ages := rfl
@[simp] theorem State.onTeam_copyRounds (s : State) (t : Nat) (f : Team → Team) :
    (State.onTeam s t f).copyRounds = s.copyRounds := rfl
@[simp] theorem State.onTeam_warps (s : State) (t : Nat) (f : Team → Team) :
    (State.onTeam s t f).warps = s.warps := rfl
@[simp] theorem State.onTeam_teams (s : State) (t : Nat) (f : Team → Team) :
    (State.onTeam s t f).teams = s.teams.modify t f := rfl
@[simp] theorem State.onTeam_grids (s : State) (t : Nat) (f : Team → Team) :
    (State.onTeam s t f).grids = s.grids := rfl
@[simp] theorem State.onTeam_main (s : State) (t : Nat) (f : Team → Team) :
    (State.onTeam s t f).main = s.main := rfl
@[simp] theorem State.onTeam_roots (s : State) (t : Nat) (f : Team → Team) :
    (State.onTeam s t f).roots = s.roots := rfl
@[simp] theorem State.onTeam_tlb (s : State) (t : Nat) (f : Team → Team) :
    (State.onTeam s t f).tlb = s.tlb := rfl
@[simp] theorem State.onTeam_execMaps (s : State) (t : Nat) (f : Team → Team) :
    (State.onTeam s t f).execMaps = s.execMaps := rfl
@[simp] theorem State.onTeam_scans (s : State) (t : Nat) (f : Team → Team) :
    (State.onTeam s t f).scans = s.scans := rfl
@[simp] theorem State.onTeam_reports (s : State) (t : Nat) (f : Team → Team) :
    (State.onTeam s t f).reports = s.reports := rfl
@[simp] theorem State.onTeam_supRead (s : State) (t : Nat) (f : Team → Team) :
    (State.onTeam s t f).supRead = s.supRead := rfl
@[simp] theorem State.onTeam_scopes (s : State) (t : Nat) (f : Team → Team) :
    (State.onTeam s t f).scopes = s.scopes := rfl
@[simp] theorem State.onTeam_arrays (s : State) (t : Nat) (f : Team → Team) :
    (State.onTeam s t f).arrays = s.arrays := rfl
@[simp] theorem State.onTeam_forests (s : State) (t : Nat) (f : Team → Team) :
    (State.onTeam s t f).forests = s.forests := rfl
@[simp] theorem State.onTeam_contexts (s : State) (t : Nat) (f : Team → Team) :
    (State.onTeam s t f).contexts = s.contexts := rfl
@[simp] theorem State.onTeam_ctxUnits (s : State) (t : Nat) (f : Team → Team) :
    (State.onTeam s t f).ctxUnits = s.ctxUnits := rfl
@[simp] theorem State.onTeam_ctxReports (s : State) (t : Nat) (f : Team → Team) :
    (State.onTeam s t f).ctxReports = s.ctxReports := rfl
@[simp] theorem State.onTeam_streams (s : State) (t : Nat) (f : Team → Team) :
    (State.onTeam s t f).streams = s.streams := rfl
@[simp] theorem State.onTeam_fabid (s : State) (t : Nat) (f : Team → Team) :
    (State.onTeam s t f).fabid = s.fabid := rfl
@[simp] theorem State.onTeam_windows (s : State) (t : Nat) (f : Team → Team) :
    (State.onTeam s t f).windows = s.windows := rfl
@[simp] theorem State.onTeam_winRegs (s : State) (t : Nat) (f : Team → Team) :
    (State.onTeam s t f).winRegs = s.winRegs := rfl
@[simp] theorem State.onTeam_latecyc (s : State) (t : Nat) (f : Team → Team) :
    (State.onTeam s t f).latecyc = s.latecyc := rfl
@[simp] theorem State.onTeam_grpperm (s : State) (t : Nat) (f : Team → Team) :
    (State.onTeam s t f).grpperm = s.grpperm := rfl
@[simp] theorem State.onTeam_laterep (s : State) (t : Nat) (f : Team → Team) :
    (State.onTeam s t f).laterep = s.laterep := rfl
@[simp] theorem State.onTeam_ports (s : State) (t : Nat) (f : Team → Team) :
    (State.onTeam s t f).ports = s.ports := rfl
@[simp] theorem State.onTeam_peers (s : State) (t : Nat) (f : Team → Team) :
    (State.onTeam s t f).peers = s.peers := rfl
@[simp] theorem State.onTeam_groups (s : State) (t : Nat) (f : Team → Team) :
    (State.onTeam s t f).groups = s.groups := rfl
@[simp] theorem State.onTeam_hints (s : State) (t : Nat) (f : Team → Team) :
    (State.onTeam s t f).hints = s.hints := rfl
@[simp] theorem State.onTeam_jobs (s : State) (t : Nat) (f : Team → Team) :
    (State.onTeam s t f).jobs = s.jobs := rfl
@[simp] theorem State.onTeam_jobPeers (s : State) (t : Nat) (f : Team → Team) :
    (State.onTeam s t f).jobPeers = s.jobPeers := rfl
@[simp] theorem State.onTeam_notices (s : State) (t : Nat) (f : Team → Team) :
    (State.onTeam s t f).notices = s.notices := rfl
@[simp] theorem State.onTeam_homes (s : State) (t : Nat) (f : Team → Team) :
    (State.onTeam s t f).homes = s.homes := rfl
@[simp] theorem State.onTeam_seqs (s : State) (t : Nat) (f : Team → Team) :
    (State.onTeam s t f).seqs = s.seqs := rfl
@[simp] theorem State.onTeam_seqOut (s : State) (t : Nat) (f : Team → Team) :
    (State.onTeam s t f).seqOut = s.seqOut := rfl
@[simp] theorem State.onTeam_sent (s : State) (t : Nat) (f : Team → Team) :
    (State.onTeam s t f).sent = s.sent := rfl
@[simp] theorem State.onTeam_unsent (s : State) (t : Nat) (f : Team → Team) :
    (State.onTeam s t f).unsent = s.unsent := rfl
@[simp] theorem State.onTeam_xlRegs (s : State) (t : Nat) (f : Team → Team) :
    (State.onTeam s t f).xlRegs = s.xlRegs := rfl
@[simp] theorem State.onTeam_queues (s : State) (t : Nat) (f : Team → Team) :
    (State.onTeam s t f).queues = s.queues := rfl
@[simp] theorem State.onTeam_hosts (s : State) (t : Nat) (f : Team → Team) :
    (State.onTeam s t f).hosts = s.hosts := rfl
@[simp] theorem State.onTeam_hostMem (s : State) (t : Nat) (f : Team → Team) :
    (State.onTeam s t f).hostMem = s.hostMem := rfl
@[simp] theorem State.onTeam_rounds (s : State) (t : Nat) (f : Team → Team) :
    (State.onTeam s t f).rounds = s.rounds := rfl
@[simp] theorem State.onTeam_lastQueue (s : State) (t : Nat) (f : Team → Team) :
    (State.onTeam s t f).lastQueue = s.lastQueue := rfl
@[simp] theorem State.onTeam_hubCopies (s : State) (t : Nat) (f : Team → Team) :
    (State.onTeam s t f).hubCopies = s.hubCopies := rfl
@[simp] theorem State.onTeam_events (s : State) (t : Nat) (f : Team → Team) :
    (State.onTeam s t f).events = s.events := rfl
@[simp] theorem State.onTeam_grants (s : State) (t : Nat) (f : Team → Team) :
    (State.onTeam s t f).grants = s.grants := rfl
@[simp] theorem State.onTeam_health (s : State) (t : Nat) (f : Team → Team) :
    (State.onTeam s t f).health = s.health := rfl
@[simp] theorem State.onTeam_island (s : State) (t : Nat) (f : Team → Team) :
    (State.onTeam s t f).island = s.island := rfl

/-! ### State.onGrid -/

@[simp] theorem State.onGrid_agenda (s : State) (g : Nat) (f : Grid → Grid) :
    (State.onGrid s g f).agenda = s.agenda := rfl
@[simp] theorem State.onGrid_cur (s : State) (g : Nat) (f : Grid → Grid) :
    (State.onGrid s g f).cur = s.cur := rfl
@[simp] theorem State.onGrid_laneCur (s : State) (g : Nat) (f : Grid → Grid) :
    (State.onGrid s g f).laneCur = s.laneCur := rfl
@[simp] theorem State.onGrid_freeCount (s : State) (g : Nat) (f : Grid → Grid) :
    (State.onGrid s g f).freeCount = s.freeCount := rfl
@[simp] theorem State.onGrid_rr (s : State) (g : Nat) (f : Grid → Grid) :
    (State.onGrid s g f).rr = s.rr := rfl
@[simp] theorem State.onGrid_ages (s : State) (g : Nat) (f : Grid → Grid) :
    (State.onGrid s g f).ages = s.ages := rfl
@[simp] theorem State.onGrid_copyRounds (s : State) (g : Nat) (f : Grid → Grid) :
    (State.onGrid s g f).copyRounds = s.copyRounds := rfl
@[simp] theorem State.onGrid_warps (s : State) (g : Nat) (f : Grid → Grid) :
    (State.onGrid s g f).warps = s.warps := rfl
@[simp] theorem State.onGrid_teams (s : State) (g : Nat) (f : Grid → Grid) :
    (State.onGrid s g f).teams = s.teams := rfl
@[simp] theorem State.onGrid_grids (s : State) (g : Nat) (f : Grid → Grid) :
    (State.onGrid s g f).grids = s.grids.modify g f := rfl
@[simp] theorem State.onGrid_main (s : State) (g : Nat) (f : Grid → Grid) :
    (State.onGrid s g f).main = s.main := rfl
@[simp] theorem State.onGrid_roots (s : State) (g : Nat) (f : Grid → Grid) :
    (State.onGrid s g f).roots = s.roots := rfl
@[simp] theorem State.onGrid_tlb (s : State) (g : Nat) (f : Grid → Grid) :
    (State.onGrid s g f).tlb = s.tlb := rfl
@[simp] theorem State.onGrid_execMaps (s : State) (g : Nat) (f : Grid → Grid) :
    (State.onGrid s g f).execMaps = s.execMaps := rfl
@[simp] theorem State.onGrid_scans (s : State) (g : Nat) (f : Grid → Grid) :
    (State.onGrid s g f).scans = s.scans := rfl
@[simp] theorem State.onGrid_reports (s : State) (g : Nat) (f : Grid → Grid) :
    (State.onGrid s g f).reports = s.reports := rfl
@[simp] theorem State.onGrid_supRead (s : State) (g : Nat) (f : Grid → Grid) :
    (State.onGrid s g f).supRead = s.supRead := rfl
@[simp] theorem State.onGrid_scopes (s : State) (g : Nat) (f : Grid → Grid) :
    (State.onGrid s g f).scopes = s.scopes := rfl
@[simp] theorem State.onGrid_arrays (s : State) (g : Nat) (f : Grid → Grid) :
    (State.onGrid s g f).arrays = s.arrays := rfl
@[simp] theorem State.onGrid_forests (s : State) (g : Nat) (f : Grid → Grid) :
    (State.onGrid s g f).forests = s.forests := rfl
@[simp] theorem State.onGrid_contexts (s : State) (g : Nat) (f : Grid → Grid) :
    (State.onGrid s g f).contexts = s.contexts := rfl
@[simp] theorem State.onGrid_ctxUnits (s : State) (g : Nat) (f : Grid → Grid) :
    (State.onGrid s g f).ctxUnits = s.ctxUnits := rfl
@[simp] theorem State.onGrid_ctxReports (s : State) (g : Nat) (f : Grid → Grid) :
    (State.onGrid s g f).ctxReports = s.ctxReports := rfl
@[simp] theorem State.onGrid_streams (s : State) (g : Nat) (f : Grid → Grid) :
    (State.onGrid s g f).streams = s.streams := rfl
@[simp] theorem State.onGrid_fabid (s : State) (g : Nat) (f : Grid → Grid) :
    (State.onGrid s g f).fabid = s.fabid := rfl
@[simp] theorem State.onGrid_windows (s : State) (g : Nat) (f : Grid → Grid) :
    (State.onGrid s g f).windows = s.windows := rfl
@[simp] theorem State.onGrid_winRegs (s : State) (g : Nat) (f : Grid → Grid) :
    (State.onGrid s g f).winRegs = s.winRegs := rfl
@[simp] theorem State.onGrid_latecyc (s : State) (g : Nat) (f : Grid → Grid) :
    (State.onGrid s g f).latecyc = s.latecyc := rfl
@[simp] theorem State.onGrid_grpperm (s : State) (g : Nat) (f : Grid → Grid) :
    (State.onGrid s g f).grpperm = s.grpperm := rfl
@[simp] theorem State.onGrid_laterep (s : State) (g : Nat) (f : Grid → Grid) :
    (State.onGrid s g f).laterep = s.laterep := rfl
@[simp] theorem State.onGrid_ports (s : State) (g : Nat) (f : Grid → Grid) :
    (State.onGrid s g f).ports = s.ports := rfl
@[simp] theorem State.onGrid_peers (s : State) (g : Nat) (f : Grid → Grid) :
    (State.onGrid s g f).peers = s.peers := rfl
@[simp] theorem State.onGrid_groups (s : State) (g : Nat) (f : Grid → Grid) :
    (State.onGrid s g f).groups = s.groups := rfl
@[simp] theorem State.onGrid_hints (s : State) (g : Nat) (f : Grid → Grid) :
    (State.onGrid s g f).hints = s.hints := rfl
@[simp] theorem State.onGrid_jobs (s : State) (g : Nat) (f : Grid → Grid) :
    (State.onGrid s g f).jobs = s.jobs := rfl
@[simp] theorem State.onGrid_jobPeers (s : State) (g : Nat) (f : Grid → Grid) :
    (State.onGrid s g f).jobPeers = s.jobPeers := rfl
@[simp] theorem State.onGrid_notices (s : State) (g : Nat) (f : Grid → Grid) :
    (State.onGrid s g f).notices = s.notices := rfl
@[simp] theorem State.onGrid_homes (s : State) (g : Nat) (f : Grid → Grid) :
    (State.onGrid s g f).homes = s.homes := rfl
@[simp] theorem State.onGrid_seqs (s : State) (g : Nat) (f : Grid → Grid) :
    (State.onGrid s g f).seqs = s.seqs := rfl
@[simp] theorem State.onGrid_seqOut (s : State) (g : Nat) (f : Grid → Grid) :
    (State.onGrid s g f).seqOut = s.seqOut := rfl
@[simp] theorem State.onGrid_sent (s : State) (g : Nat) (f : Grid → Grid) :
    (State.onGrid s g f).sent = s.sent := rfl
@[simp] theorem State.onGrid_unsent (s : State) (g : Nat) (f : Grid → Grid) :
    (State.onGrid s g f).unsent = s.unsent := rfl
@[simp] theorem State.onGrid_xlRegs (s : State) (g : Nat) (f : Grid → Grid) :
    (State.onGrid s g f).xlRegs = s.xlRegs := rfl
@[simp] theorem State.onGrid_queues (s : State) (g : Nat) (f : Grid → Grid) :
    (State.onGrid s g f).queues = s.queues := rfl
@[simp] theorem State.onGrid_hosts (s : State) (g : Nat) (f : Grid → Grid) :
    (State.onGrid s g f).hosts = s.hosts := rfl
@[simp] theorem State.onGrid_hostMem (s : State) (g : Nat) (f : Grid → Grid) :
    (State.onGrid s g f).hostMem = s.hostMem := rfl
@[simp] theorem State.onGrid_rounds (s : State) (g : Nat) (f : Grid → Grid) :
    (State.onGrid s g f).rounds = s.rounds := rfl
@[simp] theorem State.onGrid_lastQueue (s : State) (g : Nat) (f : Grid → Grid) :
    (State.onGrid s g f).lastQueue = s.lastQueue := rfl
@[simp] theorem State.onGrid_hubCopies (s : State) (g : Nat) (f : Grid → Grid) :
    (State.onGrid s g f).hubCopies = s.hubCopies := rfl
@[simp] theorem State.onGrid_events (s : State) (g : Nat) (f : Grid → Grid) :
    (State.onGrid s g f).events = s.events := rfl
@[simp] theorem State.onGrid_grants (s : State) (g : Nat) (f : Grid → Grid) :
    (State.onGrid s g f).grants = s.grants := rfl
@[simp] theorem State.onGrid_health (s : State) (g : Nat) (f : Grid → Grid) :
    (State.onGrid s g f).health = s.health := rfl
@[simp] theorem State.onGrid_island (s : State) (g : Nat) (f : Grid → Grid) :
    (State.onGrid s g f).island = s.island := rfl

/-! ### State.report -/

@[simp] theorem State.report_agenda (s : State) (k : ReportKind) (d : List Nat) :
    (State.report s k d).agenda = s.agenda := rfl
@[simp] theorem State.report_cur (s : State) (k : ReportKind) (d : List Nat) :
    (State.report s k d).cur = s.cur := rfl
@[simp] theorem State.report_laneCur (s : State) (k : ReportKind) (d : List Nat) :
    (State.report s k d).laneCur = s.laneCur := rfl
@[simp] theorem State.report_freeCount (s : State) (k : ReportKind) (d : List Nat) :
    (State.report s k d).freeCount = s.freeCount := rfl
@[simp] theorem State.report_rr (s : State) (k : ReportKind) (d : List Nat) :
    (State.report s k d).rr = s.rr := rfl
@[simp] theorem State.report_ages (s : State) (k : ReportKind) (d : List Nat) :
    (State.report s k d).ages = s.ages := rfl
@[simp] theorem State.report_copyRounds (s : State) (k : ReportKind) (d : List Nat) :
    (State.report s k d).copyRounds = s.copyRounds := rfl
@[simp] theorem State.report_warps (s : State) (k : ReportKind) (d : List Nat) :
    (State.report s k d).warps = s.warps := rfl
@[simp] theorem State.report_teams (s : State) (k : ReportKind) (d : List Nat) :
    (State.report s k d).teams = s.teams := rfl
@[simp] theorem State.report_grids (s : State) (k : ReportKind) (d : List Nat) :
    (State.report s k d).grids = s.grids := rfl
@[simp] theorem State.report_main (s : State) (k : ReportKind) (d : List Nat) :
    (State.report s k d).main = s.main := rfl
@[simp] theorem State.report_roots (s : State) (k : ReportKind) (d : List Nat) :
    (State.report s k d).roots = s.roots := rfl
@[simp] theorem State.report_tlb (s : State) (k : ReportKind) (d : List Nat) :
    (State.report s k d).tlb = s.tlb := rfl
@[simp] theorem State.report_execMaps (s : State) (k : ReportKind) (d : List Nat) :
    (State.report s k d).execMaps = s.execMaps := rfl
@[simp] theorem State.report_scans (s : State) (k : ReportKind) (d : List Nat) :
    (State.report s k d).scans = s.scans := rfl
@[simp] theorem State.report_reports (s : State) (k : ReportKind) (d : List Nat) :
    (State.report s k d).reports = s.reports ++ [⟨k, d⟩] := rfl
@[simp] theorem State.report_supRead (s : State) (k : ReportKind) (d : List Nat) :
    (State.report s k d).supRead = s.supRead := rfl
@[simp] theorem State.report_scopes (s : State) (k : ReportKind) (d : List Nat) :
    (State.report s k d).scopes = s.scopes := rfl
@[simp] theorem State.report_arrays (s : State) (k : ReportKind) (d : List Nat) :
    (State.report s k d).arrays = s.arrays := rfl
@[simp] theorem State.report_forests (s : State) (k : ReportKind) (d : List Nat) :
    (State.report s k d).forests = s.forests := rfl
@[simp] theorem State.report_contexts (s : State) (k : ReportKind) (d : List Nat) :
    (State.report s k d).contexts = s.contexts := rfl
@[simp] theorem State.report_ctxUnits (s : State) (k : ReportKind) (d : List Nat) :
    (State.report s k d).ctxUnits = s.ctxUnits := rfl
@[simp] theorem State.report_ctxReports (s : State) (k : ReportKind) (d : List Nat) :
    (State.report s k d).ctxReports = s.ctxReports := rfl
@[simp] theorem State.report_streams (s : State) (k : ReportKind) (d : List Nat) :
    (State.report s k d).streams = s.streams := rfl
@[simp] theorem State.report_fabid (s : State) (k : ReportKind) (d : List Nat) :
    (State.report s k d).fabid = s.fabid := rfl
@[simp] theorem State.report_windows (s : State) (k : ReportKind) (d : List Nat) :
    (State.report s k d).windows = s.windows := rfl
@[simp] theorem State.report_winRegs (s : State) (k : ReportKind) (d : List Nat) :
    (State.report s k d).winRegs = s.winRegs := rfl
@[simp] theorem State.report_latecyc (s : State) (k : ReportKind) (d : List Nat) :
    (State.report s k d).latecyc = s.latecyc := rfl
@[simp] theorem State.report_grpperm (s : State) (k : ReportKind) (d : List Nat) :
    (State.report s k d).grpperm = s.grpperm := rfl
@[simp] theorem State.report_laterep (s : State) (k : ReportKind) (d : List Nat) :
    (State.report s k d).laterep = s.laterep := rfl
@[simp] theorem State.report_ports (s : State) (k : ReportKind) (d : List Nat) :
    (State.report s k d).ports = s.ports := rfl
@[simp] theorem State.report_peers (s : State) (k : ReportKind) (d : List Nat) :
    (State.report s k d).peers = s.peers := rfl
@[simp] theorem State.report_groups (s : State) (k : ReportKind) (d : List Nat) :
    (State.report s k d).groups = s.groups := rfl
@[simp] theorem State.report_hints (s : State) (k : ReportKind) (d : List Nat) :
    (State.report s k d).hints = s.hints := rfl
@[simp] theorem State.report_jobs (s : State) (k : ReportKind) (d : List Nat) :
    (State.report s k d).jobs = s.jobs := rfl
@[simp] theorem State.report_jobPeers (s : State) (k : ReportKind) (d : List Nat) :
    (State.report s k d).jobPeers = s.jobPeers := rfl
@[simp] theorem State.report_notices (s : State) (k : ReportKind) (d : List Nat) :
    (State.report s k d).notices = s.notices := rfl
@[simp] theorem State.report_homes (s : State) (k : ReportKind) (d : List Nat) :
    (State.report s k d).homes = s.homes := rfl
@[simp] theorem State.report_seqs (s : State) (k : ReportKind) (d : List Nat) :
    (State.report s k d).seqs = s.seqs := rfl
@[simp] theorem State.report_seqOut (s : State) (k : ReportKind) (d : List Nat) :
    (State.report s k d).seqOut = s.seqOut := rfl
@[simp] theorem State.report_sent (s : State) (k : ReportKind) (d : List Nat) :
    (State.report s k d).sent = s.sent := rfl
@[simp] theorem State.report_unsent (s : State) (k : ReportKind) (d : List Nat) :
    (State.report s k d).unsent = s.unsent := rfl
@[simp] theorem State.report_xlRegs (s : State) (k : ReportKind) (d : List Nat) :
    (State.report s k d).xlRegs = s.xlRegs := rfl
@[simp] theorem State.report_queues (s : State) (k : ReportKind) (d : List Nat) :
    (State.report s k d).queues = s.queues := rfl
@[simp] theorem State.report_hosts (s : State) (k : ReportKind) (d : List Nat) :
    (State.report s k d).hosts = s.hosts := rfl
@[simp] theorem State.report_hostMem (s : State) (k : ReportKind) (d : List Nat) :
    (State.report s k d).hostMem = s.hostMem := rfl
@[simp] theorem State.report_rounds (s : State) (k : ReportKind) (d : List Nat) :
    (State.report s k d).rounds = s.rounds := rfl
@[simp] theorem State.report_lastQueue (s : State) (k : ReportKind) (d : List Nat) :
    (State.report s k d).lastQueue = s.lastQueue := rfl
@[simp] theorem State.report_hubCopies (s : State) (k : ReportKind) (d : List Nat) :
    (State.report s k d).hubCopies = s.hubCopies := rfl
@[simp] theorem State.report_events (s : State) (k : ReportKind) (d : List Nat) :
    (State.report s k d).events = s.events := rfl
@[simp] theorem State.report_grants (s : State) (k : ReportKind) (d : List Nat) :
    (State.report s k d).grants = s.grants := rfl
@[simp] theorem State.report_health (s : State) (k : ReportKind) (d : List Nat) :
    (State.report s k d).health = s.health := rfl
@[simp] theorem State.report_island (s : State) (k : ReportKind) (d : List Nat) :
    (State.report s k d).island = s.island := rfl

/-! ### State.onQueue -/

@[simp] theorem State.onQueue_agenda (s : State) (q : Nat) (f : Queue → Queue) :
    (State.onQueue s q f).agenda = s.agenda := rfl
@[simp] theorem State.onQueue_cur (s : State) (q : Nat) (f : Queue → Queue) :
    (State.onQueue s q f).cur = s.cur := rfl
@[simp] theorem State.onQueue_laneCur (s : State) (q : Nat) (f : Queue → Queue) :
    (State.onQueue s q f).laneCur = s.laneCur := rfl
@[simp] theorem State.onQueue_freeCount (s : State) (q : Nat) (f : Queue → Queue) :
    (State.onQueue s q f).freeCount = s.freeCount := rfl
@[simp] theorem State.onQueue_rr (s : State) (q : Nat) (f : Queue → Queue) :
    (State.onQueue s q f).rr = s.rr := rfl
@[simp] theorem State.onQueue_ages (s : State) (q : Nat) (f : Queue → Queue) :
    (State.onQueue s q f).ages = s.ages := rfl
@[simp] theorem State.onQueue_copyRounds (s : State) (q : Nat) (f : Queue → Queue) :
    (State.onQueue s q f).copyRounds = s.copyRounds := rfl
@[simp] theorem State.onQueue_warps (s : State) (q : Nat) (f : Queue → Queue) :
    (State.onQueue s q f).warps = s.warps := rfl
@[simp] theorem State.onQueue_teams (s : State) (q : Nat) (f : Queue → Queue) :
    (State.onQueue s q f).teams = s.teams := rfl
@[simp] theorem State.onQueue_grids (s : State) (q : Nat) (f : Queue → Queue) :
    (State.onQueue s q f).grids = s.grids := rfl
@[simp] theorem State.onQueue_main (s : State) (q : Nat) (f : Queue → Queue) :
    (State.onQueue s q f).main = s.main := rfl
@[simp] theorem State.onQueue_roots (s : State) (q : Nat) (f : Queue → Queue) :
    (State.onQueue s q f).roots = s.roots := rfl
@[simp] theorem State.onQueue_tlb (s : State) (q : Nat) (f : Queue → Queue) :
    (State.onQueue s q f).tlb = s.tlb := rfl
@[simp] theorem State.onQueue_execMaps (s : State) (q : Nat) (f : Queue → Queue) :
    (State.onQueue s q f).execMaps = s.execMaps := rfl
@[simp] theorem State.onQueue_scans (s : State) (q : Nat) (f : Queue → Queue) :
    (State.onQueue s q f).scans = s.scans := rfl
@[simp] theorem State.onQueue_reports (s : State) (q : Nat) (f : Queue → Queue) :
    (State.onQueue s q f).reports = s.reports := rfl
@[simp] theorem State.onQueue_supRead (s : State) (q : Nat) (f : Queue → Queue) :
    (State.onQueue s q f).supRead = s.supRead := rfl
@[simp] theorem State.onQueue_scopes (s : State) (q : Nat) (f : Queue → Queue) :
    (State.onQueue s q f).scopes = s.scopes := rfl
@[simp] theorem State.onQueue_arrays (s : State) (q : Nat) (f : Queue → Queue) :
    (State.onQueue s q f).arrays = s.arrays := rfl
@[simp] theorem State.onQueue_forests (s : State) (q : Nat) (f : Queue → Queue) :
    (State.onQueue s q f).forests = s.forests := rfl
@[simp] theorem State.onQueue_contexts (s : State) (q : Nat) (f : Queue → Queue) :
    (State.onQueue s q f).contexts = s.contexts := rfl
@[simp] theorem State.onQueue_ctxUnits (s : State) (q : Nat) (f : Queue → Queue) :
    (State.onQueue s q f).ctxUnits = s.ctxUnits := rfl
@[simp] theorem State.onQueue_ctxReports (s : State) (q : Nat) (f : Queue → Queue) :
    (State.onQueue s q f).ctxReports = s.ctxReports := rfl
@[simp] theorem State.onQueue_streams (s : State) (q : Nat) (f : Queue → Queue) :
    (State.onQueue s q f).streams = s.streams := rfl
@[simp] theorem State.onQueue_fabid (s : State) (q : Nat) (f : Queue → Queue) :
    (State.onQueue s q f).fabid = s.fabid := rfl
@[simp] theorem State.onQueue_windows (s : State) (q : Nat) (f : Queue → Queue) :
    (State.onQueue s q f).windows = s.windows := rfl
@[simp] theorem State.onQueue_winRegs (s : State) (q : Nat) (f : Queue → Queue) :
    (State.onQueue s q f).winRegs = s.winRegs := rfl
@[simp] theorem State.onQueue_latecyc (s : State) (q : Nat) (f : Queue → Queue) :
    (State.onQueue s q f).latecyc = s.latecyc := rfl
@[simp] theorem State.onQueue_grpperm (s : State) (q : Nat) (f : Queue → Queue) :
    (State.onQueue s q f).grpperm = s.grpperm := rfl
@[simp] theorem State.onQueue_laterep (s : State) (q : Nat) (f : Queue → Queue) :
    (State.onQueue s q f).laterep = s.laterep := rfl
@[simp] theorem State.onQueue_ports (s : State) (q : Nat) (f : Queue → Queue) :
    (State.onQueue s q f).ports = s.ports := rfl
@[simp] theorem State.onQueue_peers (s : State) (q : Nat) (f : Queue → Queue) :
    (State.onQueue s q f).peers = s.peers := rfl
@[simp] theorem State.onQueue_groups (s : State) (q : Nat) (f : Queue → Queue) :
    (State.onQueue s q f).groups = s.groups := rfl
@[simp] theorem State.onQueue_hints (s : State) (q : Nat) (f : Queue → Queue) :
    (State.onQueue s q f).hints = s.hints := rfl
@[simp] theorem State.onQueue_jobs (s : State) (q : Nat) (f : Queue → Queue) :
    (State.onQueue s q f).jobs = s.jobs := rfl
@[simp] theorem State.onQueue_jobPeers (s : State) (q : Nat) (f : Queue → Queue) :
    (State.onQueue s q f).jobPeers = s.jobPeers := rfl
@[simp] theorem State.onQueue_notices (s : State) (q : Nat) (f : Queue → Queue) :
    (State.onQueue s q f).notices = s.notices := rfl
@[simp] theorem State.onQueue_homes (s : State) (q : Nat) (f : Queue → Queue) :
    (State.onQueue s q f).homes = s.homes := rfl
@[simp] theorem State.onQueue_seqs (s : State) (q : Nat) (f : Queue → Queue) :
    (State.onQueue s q f).seqs = s.seqs := rfl
@[simp] theorem State.onQueue_seqOut (s : State) (q : Nat) (f : Queue → Queue) :
    (State.onQueue s q f).seqOut = s.seqOut := rfl
@[simp] theorem State.onQueue_sent (s : State) (q : Nat) (f : Queue → Queue) :
    (State.onQueue s q f).sent = s.sent := rfl
@[simp] theorem State.onQueue_unsent (s : State) (q : Nat) (f : Queue → Queue) :
    (State.onQueue s q f).unsent = s.unsent := rfl
@[simp] theorem State.onQueue_xlRegs (s : State) (q : Nat) (f : Queue → Queue) :
    (State.onQueue s q f).xlRegs = s.xlRegs := rfl
@[simp] theorem State.onQueue_queues (s : State) (q : Nat) (f : Queue → Queue) :
    (State.onQueue s q f).queues = AMap.set s.queues q (f (State.queue s q)) := rfl
@[simp] theorem State.onQueue_hosts (s : State) (q : Nat) (f : Queue → Queue) :
    (State.onQueue s q f).hosts = s.hosts := rfl
@[simp] theorem State.onQueue_hostMem (s : State) (q : Nat) (f : Queue → Queue) :
    (State.onQueue s q f).hostMem = s.hostMem := rfl
@[simp] theorem State.onQueue_rounds (s : State) (q : Nat) (f : Queue → Queue) :
    (State.onQueue s q f).rounds = s.rounds := rfl
@[simp] theorem State.onQueue_lastQueue (s : State) (q : Nat) (f : Queue → Queue) :
    (State.onQueue s q f).lastQueue = s.lastQueue := rfl
@[simp] theorem State.onQueue_hubCopies (s : State) (q : Nat) (f : Queue → Queue) :
    (State.onQueue s q f).hubCopies = s.hubCopies := rfl
@[simp] theorem State.onQueue_events (s : State) (q : Nat) (f : Queue → Queue) :
    (State.onQueue s q f).events = s.events := rfl
@[simp] theorem State.onQueue_grants (s : State) (q : Nat) (f : Queue → Queue) :
    (State.onQueue s q f).grants = s.grants := rfl
@[simp] theorem State.onQueue_health (s : State) (q : Nat) (f : Queue → Queue) :
    (State.onQueue s q f).health = s.health := rfl
@[simp] theorem State.onQueue_island (s : State) (q : Nat) (f : Queue → Queue) :
    (State.onQueue s q f).island = s.island := rfl

/-! ### State.rotate -/

@[simp] theorem State.rotate_agenda (s : State) (w slot : Nat) :
    (State.rotate s w slot).agenda = s.agenda := rfl
@[simp] theorem State.rotate_cur (s : State) (w slot : Nat) :
    (State.rotate s w slot).cur = s.cur := rfl
@[simp] theorem State.rotate_laneCur (s : State) (w slot : Nat) :
    (State.rotate s w slot).laneCur = s.laneCur := rfl
@[simp] theorem State.rotate_freeCount (s : State) (w slot : Nat) :
    (State.rotate s w slot).freeCount = s.freeCount := rfl
@[simp] theorem State.rotate_rr (s : State) (w slot : Nat) :
    (State.rotate s w slot).rr = (s.rr.filter fun e => !(e.1 = w && e.2 = slot)) ++ [(w, slot)] := rfl
@[simp] theorem State.rotate_ages (s : State) (w slot : Nat) :
    (State.rotate s w slot).ages = s.ages := rfl
@[simp] theorem State.rotate_copyRounds (s : State) (w slot : Nat) :
    (State.rotate s w slot).copyRounds = s.copyRounds := rfl
@[simp] theorem State.rotate_warps (s : State) (w slot : Nat) :
    (State.rotate s w slot).warps = s.warps := rfl
@[simp] theorem State.rotate_teams (s : State) (w slot : Nat) :
    (State.rotate s w slot).teams = s.teams := rfl
@[simp] theorem State.rotate_grids (s : State) (w slot : Nat) :
    (State.rotate s w slot).grids = s.grids := rfl
@[simp] theorem State.rotate_main (s : State) (w slot : Nat) :
    (State.rotate s w slot).main = s.main := rfl
@[simp] theorem State.rotate_roots (s : State) (w slot : Nat) :
    (State.rotate s w slot).roots = s.roots := rfl
@[simp] theorem State.rotate_tlb (s : State) (w slot : Nat) :
    (State.rotate s w slot).tlb = s.tlb := rfl
@[simp] theorem State.rotate_execMaps (s : State) (w slot : Nat) :
    (State.rotate s w slot).execMaps = s.execMaps := rfl
@[simp] theorem State.rotate_scans (s : State) (w slot : Nat) :
    (State.rotate s w slot).scans = s.scans := rfl
@[simp] theorem State.rotate_reports (s : State) (w slot : Nat) :
    (State.rotate s w slot).reports = s.reports := rfl
@[simp] theorem State.rotate_supRead (s : State) (w slot : Nat) :
    (State.rotate s w slot).supRead = s.supRead := rfl
@[simp] theorem State.rotate_scopes (s : State) (w slot : Nat) :
    (State.rotate s w slot).scopes = s.scopes := rfl
@[simp] theorem State.rotate_arrays (s : State) (w slot : Nat) :
    (State.rotate s w slot).arrays = s.arrays := rfl
@[simp] theorem State.rotate_forests (s : State) (w slot : Nat) :
    (State.rotate s w slot).forests = s.forests := rfl
@[simp] theorem State.rotate_contexts (s : State) (w slot : Nat) :
    (State.rotate s w slot).contexts = s.contexts := rfl
@[simp] theorem State.rotate_ctxUnits (s : State) (w slot : Nat) :
    (State.rotate s w slot).ctxUnits = s.ctxUnits := rfl
@[simp] theorem State.rotate_ctxReports (s : State) (w slot : Nat) :
    (State.rotate s w slot).ctxReports = s.ctxReports := rfl
@[simp] theorem State.rotate_streams (s : State) (w slot : Nat) :
    (State.rotate s w slot).streams = s.streams := rfl
@[simp] theorem State.rotate_fabid (s : State) (w slot : Nat) :
    (State.rotate s w slot).fabid = s.fabid := rfl
@[simp] theorem State.rotate_windows (s : State) (w slot : Nat) :
    (State.rotate s w slot).windows = s.windows := rfl
@[simp] theorem State.rotate_winRegs (s : State) (w slot : Nat) :
    (State.rotate s w slot).winRegs = s.winRegs := rfl
@[simp] theorem State.rotate_latecyc (s : State) (w slot : Nat) :
    (State.rotate s w slot).latecyc = s.latecyc := rfl
@[simp] theorem State.rotate_grpperm (s : State) (w slot : Nat) :
    (State.rotate s w slot).grpperm = s.grpperm := rfl
@[simp] theorem State.rotate_laterep (s : State) (w slot : Nat) :
    (State.rotate s w slot).laterep = s.laterep := rfl
@[simp] theorem State.rotate_ports (s : State) (w slot : Nat) :
    (State.rotate s w slot).ports = s.ports := rfl
@[simp] theorem State.rotate_peers (s : State) (w slot : Nat) :
    (State.rotate s w slot).peers = s.peers := rfl
@[simp] theorem State.rotate_groups (s : State) (w slot : Nat) :
    (State.rotate s w slot).groups = s.groups := rfl
@[simp] theorem State.rotate_hints (s : State) (w slot : Nat) :
    (State.rotate s w slot).hints = s.hints := rfl
@[simp] theorem State.rotate_jobs (s : State) (w slot : Nat) :
    (State.rotate s w slot).jobs = s.jobs := rfl
@[simp] theorem State.rotate_jobPeers (s : State) (w slot : Nat) :
    (State.rotate s w slot).jobPeers = s.jobPeers := rfl
@[simp] theorem State.rotate_notices (s : State) (w slot : Nat) :
    (State.rotate s w slot).notices = s.notices := rfl
@[simp] theorem State.rotate_homes (s : State) (w slot : Nat) :
    (State.rotate s w slot).homes = s.homes := rfl
@[simp] theorem State.rotate_seqs (s : State) (w slot : Nat) :
    (State.rotate s w slot).seqs = s.seqs := rfl
@[simp] theorem State.rotate_seqOut (s : State) (w slot : Nat) :
    (State.rotate s w slot).seqOut = s.seqOut := rfl
@[simp] theorem State.rotate_sent (s : State) (w slot : Nat) :
    (State.rotate s w slot).sent = s.sent := rfl
@[simp] theorem State.rotate_unsent (s : State) (w slot : Nat) :
    (State.rotate s w slot).unsent = s.unsent := rfl
@[simp] theorem State.rotate_xlRegs (s : State) (w slot : Nat) :
    (State.rotate s w slot).xlRegs = s.xlRegs := rfl
@[simp] theorem State.rotate_queues (s : State) (w slot : Nat) :
    (State.rotate s w slot).queues = s.queues := rfl
@[simp] theorem State.rotate_hosts (s : State) (w slot : Nat) :
    (State.rotate s w slot).hosts = s.hosts := rfl
@[simp] theorem State.rotate_hostMem (s : State) (w slot : Nat) :
    (State.rotate s w slot).hostMem = s.hostMem := rfl
@[simp] theorem State.rotate_rounds (s : State) (w slot : Nat) :
    (State.rotate s w slot).rounds = s.rounds := rfl
@[simp] theorem State.rotate_lastQueue (s : State) (w slot : Nat) :
    (State.rotate s w slot).lastQueue = s.lastQueue := rfl
@[simp] theorem State.rotate_hubCopies (s : State) (w slot : Nat) :
    (State.rotate s w slot).hubCopies = s.hubCopies := rfl
@[simp] theorem State.rotate_events (s : State) (w slot : Nat) :
    (State.rotate s w slot).events = s.events := rfl
@[simp] theorem State.rotate_grants (s : State) (w slot : Nat) :
    (State.rotate s w slot).grants = s.grants := rfl
@[simp] theorem State.rotate_health (s : State) (w slot : Nat) :
    (State.rotate s w slot).health = s.health := rfl
@[simp] theorem State.rotate_island (s : State) (w slot : Nat) :
    (State.rotate s w slot).island = s.island := rfl

/-! ### State.tick -/

@[simp] theorem State.tick_agenda (s : State) (c k : Nat) : (State.tick s c k).agenda = s.agenda := by
  unfold State.tick; split <;> rfl
@[simp] theorem State.tick_cur (s : State) (c k : Nat) : (State.tick s c k).cur = s.cur := by
  unfold State.tick; split <;> rfl
@[simp] theorem State.tick_laneCur (s : State) (c k : Nat) : (State.tick s c k).laneCur = s.laneCur := by
  unfold State.tick; split <;> rfl
@[simp] theorem State.tick_freeCount (s : State) (c k : Nat) : (State.tick s c k).freeCount = s.freeCount := by
  unfold State.tick; split <;> rfl
@[simp] theorem State.tick_rr (s : State) (c k : Nat) : (State.tick s c k).rr = s.rr := by
  unfold State.tick; split <;> rfl
@[simp] theorem State.tick_ages (s : State) (c k : Nat) : (State.tick s c k).ages = s.ages := by
  unfold State.tick; split <;> rfl
@[simp] theorem State.tick_copyRounds (s : State) (c k : Nat) : (State.tick s c k).copyRounds = s.copyRounds := by
  unfold State.tick; split <;> rfl
@[simp] theorem State.tick_warps (s : State) (c k : Nat) : (State.tick s c k).warps = s.warps := by
  unfold State.tick; split <;> rfl
@[simp] theorem State.tick_teams (s : State) (c k : Nat) : (State.tick s c k).teams = s.teams := by
  unfold State.tick; split <;> rfl
@[simp] theorem State.tick_grids (s : State) (c k : Nat) : (State.tick s c k).grids = s.grids := by
  unfold State.tick; split <;> rfl
@[simp] theorem State.tick_main (s : State) (c k : Nat) : (State.tick s c k).main = s.main := by
  unfold State.tick; split <;> rfl
@[simp] theorem State.tick_roots (s : State) (c k : Nat) : (State.tick s c k).roots = s.roots := by
  unfold State.tick; split <;> rfl
@[simp] theorem State.tick_tlb (s : State) (c k : Nat) : (State.tick s c k).tlb = s.tlb := by
  unfold State.tick; split <;> rfl
@[simp] theorem State.tick_execMaps (s : State) (c k : Nat) : (State.tick s c k).execMaps = s.execMaps := by
  unfold State.tick; split <;> rfl
@[simp] theorem State.tick_scans (s : State) (c k : Nat) : (State.tick s c k).scans = s.scans := by
  unfold State.tick; split <;> rfl
@[simp] theorem State.tick_reports (s : State) (c k : Nat) : (State.tick s c k).reports = s.reports := by
  unfold State.tick; split <;> rfl
@[simp] theorem State.tick_supRead (s : State) (c k : Nat) : (State.tick s c k).supRead = s.supRead := by
  unfold State.tick; split <;> rfl
@[simp] theorem State.tick_scopes (s : State) (c k : Nat) : (State.tick s c k).scopes = s.scopes := by
  unfold State.tick; split <;> rfl
@[simp] theorem State.tick_arrays (s : State) (c k : Nat) : (State.tick s c k).arrays = s.arrays := by
  unfold State.tick; split <;> rfl
@[simp] theorem State.tick_forests (s : State) (c k : Nat) : (State.tick s c k).forests = s.forests := by
  unfold State.tick; split <;> rfl
@[simp] theorem State.tick_contexts (s : State) (c k : Nat) : (State.tick s c k).contexts = s.contexts := by
  unfold State.tick; split <;> rfl
@[simp] theorem State.tick_ctxUnits (s : State) (c k : Nat) : (State.tick s c k).ctxUnits = s.ctxUnits := by
  unfold State.tick; split <;> rfl
@[simp] theorem State.tick_ctxReports (s : State) (c k : Nat) : (State.tick s c k).ctxReports = s.ctxReports := by
  unfold State.tick; split <;> rfl
@[simp] theorem State.tick_streams (s : State) (c k : Nat) : (State.tick s c k).streams = s.streams := by
  unfold State.tick; split <;> rfl
@[simp] theorem State.tick_fabid (s : State) (c k : Nat) : (State.tick s c k).fabid = s.fabid := by
  unfold State.tick; split <;> rfl
@[simp] theorem State.tick_windows (s : State) (c k : Nat) : (State.tick s c k).windows = s.windows := by
  unfold State.tick; split <;> rfl
@[simp] theorem State.tick_winRegs (s : State) (c k : Nat) : (State.tick s c k).winRegs = s.winRegs := by
  unfold State.tick; split <;> rfl
@[simp] theorem State.tick_latecyc (s : State) (c k : Nat) : (State.tick s c k).latecyc = s.latecyc := by
  unfold State.tick; split <;> rfl
@[simp] theorem State.tick_grpperm (s : State) (c k : Nat) : (State.tick s c k).grpperm = s.grpperm := by
  unfold State.tick; split <;> rfl
@[simp] theorem State.tick_laterep (s : State) (c k : Nat) : (State.tick s c k).laterep = s.laterep := by
  unfold State.tick; split <;> rfl
@[simp] theorem State.tick_ports (s : State) (c k : Nat) : (State.tick s c k).ports = s.ports := by
  unfold State.tick; split <;> rfl
@[simp] theorem State.tick_peers (s : State) (c k : Nat) : (State.tick s c k).peers = s.peers := by
  unfold State.tick; split <;> rfl
@[simp] theorem State.tick_groups (s : State) (c k : Nat) : (State.tick s c k).groups = s.groups := by
  unfold State.tick; split <;> rfl
@[simp] theorem State.tick_hints (s : State) (c k : Nat) : (State.tick s c k).hints = s.hints := by
  unfold State.tick; split <;> rfl
@[simp] theorem State.tick_jobs (s : State) (c k : Nat) : (State.tick s c k).jobs = s.jobs := by
  unfold State.tick; split <;> rfl
@[simp] theorem State.tick_jobPeers (s : State) (c k : Nat) : (State.tick s c k).jobPeers = s.jobPeers := by
  unfold State.tick; split <;> rfl
@[simp] theorem State.tick_notices (s : State) (c k : Nat) : (State.tick s c k).notices = s.notices := by
  unfold State.tick; split <;> rfl
@[simp] theorem State.tick_homes (s : State) (c k : Nat) : (State.tick s c k).homes = s.homes := by
  unfold State.tick; split <;> rfl
@[simp] theorem State.tick_seqs (s : State) (c k : Nat) : (State.tick s c k).seqs = s.seqs := by
  unfold State.tick; split <;> rfl
@[simp] theorem State.tick_seqOut (s : State) (c k : Nat) : (State.tick s c k).seqOut = s.seqOut := by
  unfold State.tick; split <;> rfl
@[simp] theorem State.tick_sent (s : State) (c k : Nat) : (State.tick s c k).sent = s.sent := by
  unfold State.tick; split <;> rfl
@[simp] theorem State.tick_unsent (s : State) (c k : Nat) : (State.tick s c k).unsent = s.unsent := by
  unfold State.tick; split <;> rfl
@[simp] theorem State.tick_xlRegs (s : State) (c k : Nat) : (State.tick s c k).xlRegs = s.xlRegs := by
  unfold State.tick; split <;> rfl
@[simp] theorem State.tick_queues (s : State) (c k : Nat) : (State.tick s c k).queues = s.queues := by
  unfold State.tick; split <;> rfl
@[simp] theorem State.tick_hosts (s : State) (c k : Nat) : (State.tick s c k).hosts = s.hosts := by
  unfold State.tick; split <;> rfl
@[simp] theorem State.tick_hostMem (s : State) (c k : Nat) : (State.tick s c k).hostMem = s.hostMem := by
  unfold State.tick; split <;> rfl
@[simp] theorem State.tick_rounds (s : State) (c k : Nat) : (State.tick s c k).rounds = s.rounds := by
  unfold State.tick; split <;> rfl
@[simp] theorem State.tick_lastQueue (s : State) (c k : Nat) : (State.tick s c k).lastQueue = s.lastQueue := by
  unfold State.tick; split <;> rfl
@[simp] theorem State.tick_hubCopies (s : State) (c k : Nat) : (State.tick s c k).hubCopies = s.hubCopies := by
  unfold State.tick; split <;> rfl
@[simp] theorem State.tick_grants (s : State) (c k : Nat) : (State.tick s c k).grants = s.grants := by
  unfold State.tick; split <;> rfl
@[simp] theorem State.tick_health (s : State) (c k : Nat) : (State.tick s c k).health = s.health := by
  unfold State.tick; split <;> rfl
@[simp] theorem State.tick_island (s : State) (c k : Nat) : (State.tick s c k).island = s.island := by
  unfold State.tick; split <;> rfl

end Sys2Proof.Machine
end

