-- ==== Sys2Proof/Laws/Store.lean ====
section
/-! SUPPORT. Reading back what was written, and the canonical form of maps and memories. -/
namespace Sys2Proof.Machine

/-! ### Maps -/

theorem SMap.get_erase_same {w : Nat} (m : SMap w) (k : Nat) : SMap.get (SMap.erase m k) k = 0 := by
  induction m with
  | nil => rfl
  | cons e rest ih =>
    by_cases h : e.1 = k <;> simp [SMap.erase, SMap.get, h, ih]

theorem SMap.get_erase_other {w : Nat} (m : SMap w) (k j : Nat) (h : j ≠ k) :
    SMap.get (SMap.erase m k) j = SMap.get m j := by
  induction m with
  | nil => rfl
  | cons e rest ih =>
    by_cases h1 : e.1 = k
    · have : e.1 ≠ j := fun x => h (x.symm.trans h1)
      simp [SMap.erase, SMap.get, h1, ih, h.symm]
    · simp [SMap.erase, SMap.get, h1, ih]

theorem SMap.get_insert_same {w : Nat} (m : SMap w) (k : Nat) (v : BitVec w) :
    SMap.get (SMap.insert m k v) k = v := by
  induction m with
  | nil => simp [SMap.insert, SMap.get]
  | cons e rest ih =>
    by_cases h1 : k < e.1
    · simp [SMap.insert, SMap.get, h1]
    · by_cases h2 : k = e.1
      · simp [SMap.insert, SMap.get, h2]
      · have h3 : e.1 ≠ k := fun x => h2 x.symm
        simp [SMap.insert, SMap.get, h1, h2, h3, ih]

theorem SMap.get_insert_other {w : Nat} (m : SMap w) (k j : Nat) (v : BitVec w) (h : j ≠ k) :
    SMap.get (SMap.insert m k v) j = SMap.get m j := by
  induction m with
  | nil => simp [SMap.insert, SMap.get, h.symm]
  | cons e rest ih =>
    by_cases h1 : k < e.1
    · simp [SMap.insert, SMap.get, h1, h.symm]
    · by_cases h2 : k = e.1
      · subst h2; simp [SMap.insert, SMap.get, h.symm]
      · simp [SMap.insert, SMap.get, h1, h2, ih]

/-- A key reads what was last written to it. -/
@[simp] theorem SMap.get_set_same {w : Nat} (m : SMap w) (k : Nat) (v : BitVec w) :
    SMap.get (SMap.set m k v) k = v := by
  unfold SMap.set; split
  · next h => rw [SMap.get_erase_same, h]
  · exact SMap.get_insert_same m k v

/-- A write leaves every other key alone. -/
theorem SMap.get_set_other {w : Nat} (m : SMap w) (k j : Nat) (v : BitVec w) (h : j ≠ k) :
    SMap.get (SMap.set m k v) j = SMap.get m j := by
  unfold SMap.set; split
  · exact SMap.get_erase_other m k j h
  · exact SMap.get_insert_other m k j v h

theorem SMap.wfFrom_weaken {w : Nat} (m : SMap w) (lo lo' : Nat) (h : lo ≤ lo')
    (hm : SMap.wfFrom lo' m) : SMap.wfFrom lo m := by
  cases m with
  | nil => rfl
  | cons e rest =>
    simp only [SMap.wfFrom, Bool.and_eq_true, decide_eq_true_eq] at hm ⊢
    exact ⟨⟨by omega, hm.1.2⟩, hm.2⟩

theorem SMap.wfFrom_erase {w : Nat} (m : SMap w) (lo k : Nat) (hm : SMap.wfFrom lo m) :
    SMap.wfFrom lo (SMap.erase m k) := by
  induction m generalizing lo with
  | nil => rfl
  | cons e rest ih =>
    simp only [SMap.wfFrom, Bool.and_eq_true, decide_eq_true_eq] at hm
    by_cases h : e.1 = k
    · simp only [SMap.erase, h, if_true]
      exact SMap.wfFrom_weaken _ lo (e.1 + 1) (by omega) (ih _ hm.2)
    · simp only [SMap.erase, h, if_false, SMap.wfFrom, Bool.and_eq_true, decide_eq_true_eq]
      exact ⟨hm.1, ih _ hm.2⟩

theorem SMap.wfFrom_insert {w : Nat} (m : SMap w) (lo k : Nat) (v : BitVec w) (hk : lo ≤ k) (hv : v ≠ 0)
    (hm : SMap.wfFrom lo m) : SMap.wfFrom lo (SMap.insert m k v) := by
  induction m generalizing lo with
  | nil => simp only [SMap.insert, SMap.wfFrom, Bool.and_eq_true, decide_eq_true_eq, bne_iff_ne]
           exact ⟨⟨hk, hv⟩, trivial⟩
  | cons e rest ih =>
    simp only [SMap.wfFrom, Bool.and_eq_true, decide_eq_true_eq] at hm
    by_cases h1 : k < e.1
    · simp only [SMap.insert, h1, if_true, SMap.wfFrom, Bool.and_eq_true, decide_eq_true_eq, bne_iff_ne]
      exact ⟨⟨hk, hv⟩, ⟨by omega, by simpa using hm.1.2⟩, hm.2⟩
    · by_cases h2 : k = e.1
      · subst h2
        simp only [SMap.insert, Nat.lt_irrefl, if_true, if_false, SMap.wfFrom, Bool.and_eq_true,
          decide_eq_true_eq, bne_iff_ne]
        exact ⟨⟨hk, hv⟩, hm.2⟩
      · simp only [SMap.insert, h1, h2, if_false, SMap.wfFrom, Bool.and_eq_true, decide_eq_true_eq]
        exact ⟨hm.1, ih _ (by omega) hm.2⟩

/-- A write keeps the canonical form. -/
theorem SMap.wf_set {w : Nat} (m : SMap w) (k : Nat) (v : BitVec w) (hm : SMap.wf m) :
    SMap.wf (SMap.set m k v) := by
  unfold SMap.wf SMap.set at *; split
  · exact SMap.wfFrom_erase m 0 k hm
  · next h => exact SMap.wfFrom_insert m 0 k v (by omega) h hm

theorem AMap.get?_set_same {α : Type} (m : AMap α) (k : Nat) (v : α) :
    AMap.get? (AMap.set m k v) k = some v := by
  induction m with
  | nil => simp [AMap.set, AMap.get?]
  | cons e rest ih =>
    by_cases h : e.1 = k <;> simp [AMap.set, AMap.get?, h, ih]

theorem AMap.get?_set_other {α : Type} (m : AMap α) (k j : Nat) (v : α) (h : j ≠ k) :
    AMap.get? (AMap.set m k v) j = AMap.get? m j := by
  induction m with
  | nil => simp [AMap.set, AMap.get?, h.symm]
  | cons e rest ih =>
    by_cases h1 : e.1 = k
    · subst h1; simp [AMap.set, AMap.get?, h.symm]
    · simp [AMap.set, AMap.get?, h1, ih]

/-! ### Memories -/

theorem writeCells_wf (m : List Host.Cell) (a n v : Nat) (h : SMap.wf (w := 8) m) :
    SMap.wf (w := 8) (writeCells m a n v) := by
  induction n generalizing m a v with
  | zero => exact h
  | succ n ih => exact ih _ _ _ (SMap.wf_set _ _ _ h)

theorem writeCellBytes_wf (m : List Host.Cell) (a : Nat) (bs : List Byte) (h : SMap.wf (w := 8) m) :
    SMap.wf (w := 8) (writeCellBytes m a bs) := by
  induction bs generalizing m a with
  | nil => exact h
  | cons b bs ih => exact ih _ _ (SMap.wf_set _ _ _ h)

/-- A write of bytes as a number keeps the canonical form. -/
theorem Memory.wf_write (m : Memory) (a n v : Nat) (h : Memory.wf m) : Memory.wf (Memory.write m a n v) :=
  writeCells_wf m.cells a n v h

/-- A write of a list of bytes keeps the canonical form. -/
theorem Memory.wf_writeBytes (m : Memory) (a : Nat) (bs : List Byte) (h : Memory.wf m) :
    Memory.wf (Memory.writeBytes m a bs) := writeCellBytes_wf m.cells a bs h

/-- A write of one byte keeps the canonical form. -/
theorem Memory.wf_setByte (m : Memory) (a : Nat) (v : Byte) (h : Memory.wf m) :
    Memory.wf (Memory.setByte m a v) := SMap.wf_set _ _ _ h

theorem Memory.wf_empty : Memory.wf Memory.empty := rfl

theorem writeCells_get_other (m : List Host.Cell) (a n v b : Nat) (h : b < a ∨ a + n ≤ b) :
    SMap.get (w := 8) (writeCells m a n v) b = SMap.get (w := 8) m b := by
  induction n generalizing m a v with
  | zero => rfl
  | succ n ih => rw [writeCells, ih _ _ _ (by omega), SMap.get_set_other _ _ _ _ (by omega)]

/-- A write leaves every byte outside its range alone. -/
theorem Memory.byte_write_other (m : Memory) (a n v b : Nat) (h : b < a ∨ a + n ≤ b) :
    Memory.byte (Memory.write m a n v) b = Memory.byte m b := writeCells_get_other m.cells a n v b h

theorem writeCells_get_in (m : List Host.Cell) (a n v i : Nat) (h : i < n) :
    SMap.get (w := 8) (writeCells m a n v) (a + i) = BitVec.ofNat 8 (v / 256 ^ i) := by
  induction n generalizing m a v i with
  | zero => omega
  | succ n ih =>
    cases i with
    | zero =>
      rw [writeCells, writeCells_get_other _ _ _ _ _ (by omega), Nat.add_zero, SMap.get_set_same]
      simp
    | succ i =>
      have e : a + (i + 1) = (a + 1) + i := by omega
      rw [writeCells, e, ih _ _ _ _ (by omega), Nat.div_div_eq_div_mul, Nat.pow_succ, Nat.mul_comm]

/-- Each byte of a write reads back, least significant byte lowest (R3). -/
theorem Memory.byte_write_in (m : Memory) (a n v i : Nat) (h : i < n) :
    Memory.byte (Memory.write m a n v) (a + i) = BitVec.ofNat 8 (v / 256 ^ i) :=
  writeCells_get_in m.cells a n v i h

theorem Memory.read_congr (m m' : Memory) (a n : Nat)
    (h : ∀ i, i < n → Memory.byte m (a + i) = Memory.byte m' (a + i)) :
    Memory.read m a n = Memory.read m' a n := by
  induction n generalizing a with
  | zero => rfl
  | succ n ih =>
    have h0 := h 0 (by omega)
    simp only [Nat.add_zero] at h0
    rw [Memory.read, Memory.read, h0, ih (a + 1)]
    intro i hi
    have := h (i + 1) (by omega)
    rwa [show a + (i + 1) = a + 1 + i by omega] at this

/-- What was written reads back. -/
theorem Memory.read_write_same (m : Memory) (a n v : Nat) :
    Memory.read (Memory.write m a n v) a n = v % 256 ^ n := by
  have key : ∀ n a v (M : Memory),
      (∀ i, i < n → Memory.byte M (a + i) = BitVec.ofNat 8 (v / 256 ^ i)) →
      Memory.read M a n = v % 256 ^ n := by
    intro n
    induction n with
    | zero => intro a v M _; simp [Memory.read, Nat.mod_one]
    | succ n ih =>
      intro a v M h
      have h0 := h 0 (by omega)
      simp only [Nat.add_zero, Nat.pow_zero, Nat.div_one] at h0
      rw [Memory.read, h0, ih (a + 1) (v / 256) M]
      · rw [BitVec.toNat_ofNat, show 256 ^ (n + 1) = 256 * 256 ^ n by rw [Nat.pow_succ, Nat.mul_comm],
          Nat.mod_mul]
      · intro i hi
        have := h (i + 1) (by omega)
        rw [show a + (i + 1) = a + 1 + i by omega] at this
        rw [this, Nat.div_div_eq_div_mul, Nat.pow_succ, Nat.mul_comm]
  exact key n a v _ fun i hi => Memory.byte_write_in m a n v i hi

/-- A read outside a write's range gives what it gave before. -/
theorem Memory.read_write_other (m : Memory) (a n v b k : Nat) (h : b + k ≤ a ∨ a + n ≤ b) :
    Memory.read (Memory.write m a n v) b k = Memory.read m b k :=
  Memory.read_congr _ _ _ _ fun i hi => Memory.byte_write_other m a n v (b + i) (by omega)

end Sys2Proof.Machine
end

