-- ==== Sys2Proof/Laws/Warp.lean ====
section
/-! SUPPORT. What each update of a warp leaves of every field of it. -/
namespace Sys2Proof.Machine

/-! ### Warp.setS -/

@[simp] theorem Warp.setS_team (W : Warp) (r : Nat) (v : Word) : (Warp.setS W r v).team = W.team := by
  unfold Warp.setS; split <;> rfl
@[simp] theorem Warp.setS_index (W : Warp) (r : Nat) (v : Word) : (Warp.setS W r v).index = W.index := by
  unfold Warp.setS; split <;> rfl
@[simp] theorem Warp.setS_vregs (W : Warp) (r : Nat) (v : Word) : (Warp.setS W r v).vregs = W.vregs := by
  unfold Warp.setS; split <;> rfl
@[simp] theorem Warp.setS_preds (W : Warp) (r : Nat) (v : Word) : (Warp.setS W r v).preds = W.preds := by
  unfold Warp.setS; split <;> rfl
@[simp] theorem Warp.setS_nv (W : Warp) (r : Nat) (v : Word) : (Warp.setS W r v).nv = W.nv := by
  unfold Warp.setS; split <;> rfl
@[simp] theorem Warp.setS_frags (W : Warp) (r : Nat) (v : Word) : (Warp.setS W r v).frags = W.frags := by
  unfold Warp.setS; split <;> rfl
@[simp] theorem Warp.setS_exited (W : Warp) (r : Nat) (v : Word) : (Warp.setS W r v).exited = W.exited := by
  unfold Warp.setS; split <;> rfl
@[simp] theorem Warp.setS_queue (W : Warp) (r : Nat) (v : Word) : (Warp.setS W r v).queue = W.queue := by
  unfold Warp.setS; split <;> rfl
@[simp] theorem Warp.setS_exec (W : Warp) (r : Nat) (v : Word) : (Warp.setS W r v).exec = W.exec := by
  unfold Warp.setS; split <;> rfl
@[simp] theorem Warp.setS_nextRun (W : Warp) (r : Nat) (v : Word) : (Warp.setS W r v).nextRun = W.nextRun := by
  unfold Warp.setS; split <;> rfl
@[simp] theorem Warp.setS_reqs (W : Warp) (r : Nat) (v : Word) : (Warp.setS W r v).reqs = W.reqs := by
  unfold Warp.setS; split <;> rfl
@[simp] theorem Warp.setS_nextReq (W : Warp) (r : Nat) (v : Word) : (Warp.setS W r v).nextReq = W.nextReq := by
  unfold Warp.setS; split <;> rfl
@[simp] theorem Warp.setS_spill (W : Warp) (r : Nat) (v : Word) : (Warp.setS W r v).spill = W.spill := by
  unfold Warp.setS; split <;> rfl
@[simp] theorem Warp.setS_spillLen (W : Warp) (r : Nat) (v : Word) : (Warp.setS W r v).spillLen = W.spillLen := by
  unfold Warp.setS; split <;> rfl
@[simp] theorem Warp.setS_sptr (W : Warp) (r : Nat) (v : Word) : (Warp.setS W r v).sptr = W.sptr := by
  unfold Warp.setS; split <;> rfl
@[simp] theorem Warp.setS_tvec (W : Warp) (r : Nat) (v : Word) : (Warp.setS W r v).tvec = W.tvec := by
  unfold Warp.setS; split <;> rfl
@[simp] theorem Warp.setS_tctl (W : Warp) (r : Nat) (v : Word) : (Warp.setS W r v).tctl = W.tctl := by
  unfold Warp.setS; split <;> rfl
@[simp] theorem Warp.setS_tlev (W : Warp) (r : Nat) (v : Word) : (Warp.setS W r v).tlev = W.tlev := by
  unfold Warp.setS; split <;> rfl
@[simp] theorem Warp.setS_idem (W : Warp) (r : Nat) (v : Word) : (Warp.setS W r v).idem = W.idem := by
  unfold Warp.setS; split <;> rfl
@[simp] theorem Warp.setS_mstat (W : Warp) (r : Nat) (v : Word) : (Warp.setS W r v).mstat = W.mstat := by
  unfold Warp.setS; split <;> rfl
@[simp] theorem Warp.setS_cych (W : Warp) (r : Nat) (v : Word) : (Warp.setS W r v).cych = W.cych := by
  unfold Warp.setS; split <;> rfl
@[simp] theorem Warp.setS_tsbase (W : Warp) (r : Nat) (v : Word) : (Warp.setS W r v).tsbase = W.tsbase := by
  unfold Warp.setS; split <;> rfl
@[simp] theorem Warp.setS_tsbaseh (W : Warp) (r : Nat) (v : Word) : (Warp.setS W r v).tsbaseh = W.tsbaseh := by
  unfold Warp.setS; split <;> rfl
@[simp] theorem Warp.setS_svch (W : Warp) (r : Nat) (v : Word) : (Warp.setS W r v).svch = W.svch := by
  unfold Warp.setS; split <;> rfl
@[simp] theorem Warp.setS_bank1 (W : Warp) (r : Nat) (v : Word) : (Warp.setS W r v).bank1 = W.bank1 := by
  unfold Warp.setS; split <;> rfl
@[simp] theorem Warp.setS_bank2 (W : Warp) (r : Nat) (v : Word) : (Warp.setS W r v).bank2 = W.bank2 := by
  unfold Warp.setS; split <;> rfl
@[simp] theorem Warp.setS_async (W : Warp) (r : Nat) (v : Word) : (Warp.setS W r v).async = W.async := by
  unfold Warp.setS; split <;> rfl
@[simp] theorem Warp.setS_laneTrap (W : Warp) (r : Nat) (v : Word) : (Warp.setS W r v).laneTrap = W.laneTrap := by
  unfold Warp.setS; split <;> rfl
@[simp] theorem Warp.setS_killed (W : Warp) (r : Nat) (v : Word) : (Warp.setS W r v).killed = W.killed := by
  unfold Warp.setS; split <;> rfl
@[simp] theorem Warp.setS_ended (W : Warp) (r : Nat) (v : Word) : (Warp.setS W r v).ended = W.ended := by
  unfold Warp.setS; split <;> rfl
@[simp] theorem Warp.setS_arrivals (W : Warp) (r : Nat) (v : Word) : (Warp.setS W r v).arrivals = W.arrivals := by
  unfold Warp.setS; split <;> rfl
@[simp] theorem Warp.setS_batch (W : Warp) (r : Nat) (v : Word) : (Warp.setS W r v).batch = W.batch := by
  unfold Warp.setS; split <;> rfl
@[simp] theorem Warp.setS_epoch (W : Warp) (r : Nat) (v : Word) : (Warp.setS W r v).epoch = W.epoch := by
  unfold Warp.setS; split <;> rfl
@[simp] theorem Warp.setS_mfail (W : Warp) (r : Nat) (v : Word) : (Warp.setS W r v).mfail = W.mfail := by
  unfold Warp.setS; split <;> rfl
@[simp] theorem Warp.setS_mtouch (W : Warp) (r : Nat) (v : Word) : (Warp.setS W r v).mtouch = W.mtouch := by
  unfold Warp.setS; split <;> rfl
@[simp] theorem Warp.setS_ahead (W : Warp) (r : Nat) (v : Word) : (Warp.setS W r v).ahead = W.ahead := by
  unfold Warp.setS; split <;> rfl
@[simp] theorem Warp.setS_mimage (W : Warp) (r : Nat) (v : Word) : (Warp.setS W r v).mimage = W.mimage := by
  unfold Warp.setS; split <;> rfl
@[simp] theorem Warp.setS_mrecs (W : Warp) (r : Nat) (v : Word) : (Warp.setS W r v).mrecs = W.mrecs := by
  unfold Warp.setS; split <;> rfl
@[simp] theorem Warp.setS_nextCtx (W : Warp) (r : Nat) (v : Word) : (Warp.setS W r v).nextCtx = W.nextCtx := by
  unfold Warp.setS; split <;> rfl

/-! ### Warp.setV -/

@[simp] theorem Warp.setV_team (W : Warp) (r l : Nat) (v : Word) : (Warp.setV W r l v).team = W.team := rfl
@[simp] theorem Warp.setV_index (W : Warp) (r l : Nat) (v : Word) : (Warp.setV W r l v).index = W.index := rfl
@[simp] theorem Warp.setV_sregs (W : Warp) (r l : Nat) (v : Word) : (Warp.setV W r l v).sregs = W.sregs := rfl
@[simp] theorem Warp.setV_preds (W : Warp) (r l : Nat) (v : Word) : (Warp.setV W r l v).preds = W.preds := rfl
@[simp] theorem Warp.setV_nv (W : Warp) (r l : Nat) (v : Word) : (Warp.setV W r l v).nv = W.nv := rfl
@[simp] theorem Warp.setV_frags (W : Warp) (r l : Nat) (v : Word) : (Warp.setV W r l v).frags = W.frags := rfl
@[simp] theorem Warp.setV_exited (W : Warp) (r l : Nat) (v : Word) : (Warp.setV W r l v).exited = W.exited := rfl
@[simp] theorem Warp.setV_queue (W : Warp) (r l : Nat) (v : Word) : (Warp.setV W r l v).queue = W.queue := rfl
@[simp] theorem Warp.setV_exec (W : Warp) (r l : Nat) (v : Word) : (Warp.setV W r l v).exec = W.exec := rfl
@[simp] theorem Warp.setV_nextRun (W : Warp) (r l : Nat) (v : Word) : (Warp.setV W r l v).nextRun = W.nextRun := rfl
@[simp] theorem Warp.setV_reqs (W : Warp) (r l : Nat) (v : Word) : (Warp.setV W r l v).reqs = W.reqs := rfl
@[simp] theorem Warp.setV_nextReq (W : Warp) (r l : Nat) (v : Word) : (Warp.setV W r l v).nextReq = W.nextReq := rfl
@[simp] theorem Warp.setV_spill (W : Warp) (r l : Nat) (v : Word) : (Warp.setV W r l v).spill = W.spill := rfl
@[simp] theorem Warp.setV_spillLen (W : Warp) (r l : Nat) (v : Word) : (Warp.setV W r l v).spillLen = W.spillLen := rfl
@[simp] theorem Warp.setV_sptr (W : Warp) (r l : Nat) (v : Word) : (Warp.setV W r l v).sptr = W.sptr := rfl
@[simp] theorem Warp.setV_tvec (W : Warp) (r l : Nat) (v : Word) : (Warp.setV W r l v).tvec = W.tvec := rfl
@[simp] theorem Warp.setV_tctl (W : Warp) (r l : Nat) (v : Word) : (Warp.setV W r l v).tctl = W.tctl := rfl
@[simp] theorem Warp.setV_tlev (W : Warp) (r l : Nat) (v : Word) : (Warp.setV W r l v).tlev = W.tlev := rfl
@[simp] theorem Warp.setV_idem (W : Warp) (r l : Nat) (v : Word) : (Warp.setV W r l v).idem = W.idem := rfl
@[simp] theorem Warp.setV_mstat (W : Warp) (r l : Nat) (v : Word) : (Warp.setV W r l v).mstat = W.mstat := rfl
@[simp] theorem Warp.setV_cych (W : Warp) (r l : Nat) (v : Word) : (Warp.setV W r l v).cych = W.cych := rfl
@[simp] theorem Warp.setV_tsbase (W : Warp) (r l : Nat) (v : Word) : (Warp.setV W r l v).tsbase = W.tsbase := rfl
@[simp] theorem Warp.setV_tsbaseh (W : Warp) (r l : Nat) (v : Word) : (Warp.setV W r l v).tsbaseh = W.tsbaseh := rfl
@[simp] theorem Warp.setV_svch (W : Warp) (r l : Nat) (v : Word) : (Warp.setV W r l v).svch = W.svch := rfl
@[simp] theorem Warp.setV_bank1 (W : Warp) (r l : Nat) (v : Word) : (Warp.setV W r l v).bank1 = W.bank1 := rfl
@[simp] theorem Warp.setV_bank2 (W : Warp) (r l : Nat) (v : Word) : (Warp.setV W r l v).bank2 = W.bank2 := rfl
@[simp] theorem Warp.setV_async (W : Warp) (r l : Nat) (v : Word) : (Warp.setV W r l v).async = W.async := rfl
@[simp] theorem Warp.setV_laneTrap (W : Warp) (r l : Nat) (v : Word) : (Warp.setV W r l v).laneTrap = W.laneTrap := rfl
@[simp] theorem Warp.setV_killed (W : Warp) (r l : Nat) (v : Word) : (Warp.setV W r l v).killed = W.killed := rfl
@[simp] theorem Warp.setV_ended (W : Warp) (r l : Nat) (v : Word) : (Warp.setV W r l v).ended = W.ended := rfl
@[simp] theorem Warp.setV_arrivals (W : Warp) (r l : Nat) (v : Word) : (Warp.setV W r l v).arrivals = W.arrivals := rfl
@[simp] theorem Warp.setV_batch (W : Warp) (r l : Nat) (v : Word) : (Warp.setV W r l v).batch = W.batch := rfl
@[simp] theorem Warp.setV_epoch (W : Warp) (r l : Nat) (v : Word) : (Warp.setV W r l v).epoch = W.epoch := rfl
@[simp] theorem Warp.setV_mfail (W : Warp) (r l : Nat) (v : Word) : (Warp.setV W r l v).mfail = W.mfail := rfl
@[simp] theorem Warp.setV_mtouch (W : Warp) (r l : Nat) (v : Word) : (Warp.setV W r l v).mtouch = W.mtouch := rfl
@[simp] theorem Warp.setV_ahead (W : Warp) (r l : Nat) (v : Word) : (Warp.setV W r l v).ahead = W.ahead := rfl
@[simp] theorem Warp.setV_mimage (W : Warp) (r l : Nat) (v : Word) : (Warp.setV W r l v).mimage = W.mimage := rfl
@[simp] theorem Warp.setV_mrecs (W : Warp) (r l : Nat) (v : Word) : (Warp.setV W r l v).mrecs = W.mrecs := rfl
@[simp] theorem Warp.setV_nextCtx (W : Warp) (r l : Nat) (v : Word) : (Warp.setV W r l v).nextCtx = W.nextCtx := rfl
@[simp] theorem Warp.setV_owed (W : Warp) (r l : Nat) (v : Word) : (Warp.setV W r l v).owed = W.owed := rfl

/-! ### Warp.setP -/

@[simp] theorem Warp.setP_team (W : Warp) (n : Nat) (m : Word) : (Warp.setP W n m).team = W.team := by
  unfold Warp.setP; split <;> rfl
@[simp] theorem Warp.setP_index (W : Warp) (n : Nat) (m : Word) : (Warp.setP W n m).index = W.index := by
  unfold Warp.setP; split <;> rfl
@[simp] theorem Warp.setP_sregs (W : Warp) (n : Nat) (m : Word) : (Warp.setP W n m).sregs = W.sregs := by
  unfold Warp.setP; split <;> rfl
@[simp] theorem Warp.setP_vregs (W : Warp) (n : Nat) (m : Word) : (Warp.setP W n m).vregs = W.vregs := by
  unfold Warp.setP; split <;> rfl
@[simp] theorem Warp.setP_nv (W : Warp) (n : Nat) (m : Word) : (Warp.setP W n m).nv = W.nv := by
  unfold Warp.setP; split <;> rfl
@[simp] theorem Warp.setP_frags (W : Warp) (n : Nat) (m : Word) : (Warp.setP W n m).frags = W.frags := by
  unfold Warp.setP; split <;> rfl
@[simp] theorem Warp.setP_exited (W : Warp) (n : Nat) (m : Word) : (Warp.setP W n m).exited = W.exited := by
  unfold Warp.setP; split <;> rfl
@[simp] theorem Warp.setP_queue (W : Warp) (n : Nat) (m : Word) : (Warp.setP W n m).queue = W.queue := by
  unfold Warp.setP; split <;> rfl
@[simp] theorem Warp.setP_exec (W : Warp) (n : Nat) (m : Word) : (Warp.setP W n m).exec = W.exec := by
  unfold Warp.setP; split <;> rfl
@[simp] theorem Warp.setP_nextRun (W : Warp) (n : Nat) (m : Word) : (Warp.setP W n m).nextRun = W.nextRun := by
  unfold Warp.setP; split <;> rfl
@[simp] theorem Warp.setP_reqs (W : Warp) (n : Nat) (m : Word) : (Warp.setP W n m).reqs = W.reqs := by
  unfold Warp.setP; split <;> rfl
@[simp] theorem Warp.setP_nextReq (W : Warp) (n : Nat) (m : Word) : (Warp.setP W n m).nextReq = W.nextReq := by
  unfold Warp.setP; split <;> rfl
@[simp] theorem Warp.setP_spill (W : Warp) (n : Nat) (m : Word) : (Warp.setP W n m).spill = W.spill := by
  unfold Warp.setP; split <;> rfl
@[simp] theorem Warp.setP_spillLen (W : Warp) (n : Nat) (m : Word) : (Warp.setP W n m).spillLen = W.spillLen := by
  unfold Warp.setP; split <;> rfl
@[simp] theorem Warp.setP_sptr (W : Warp) (n : Nat) (m : Word) : (Warp.setP W n m).sptr = W.sptr := by
  unfold Warp.setP; split <;> rfl
@[simp] theorem Warp.setP_tvec (W : Warp) (n : Nat) (m : Word) : (Warp.setP W n m).tvec = W.tvec := by
  unfold Warp.setP; split <;> rfl
@[simp] theorem Warp.setP_tctl (W : Warp) (n : Nat) (m : Word) : (Warp.setP W n m).tctl = W.tctl := by
  unfold Warp.setP; split <;> rfl
@[simp] theorem Warp.setP_tlev (W : Warp) (n : Nat) (m : Word) : (Warp.setP W n m).tlev = W.tlev := by
  unfold Warp.setP; split <;> rfl
@[simp] theorem Warp.setP_idem (W : Warp) (n : Nat) (m : Word) : (Warp.setP W n m).idem = W.idem := by
  unfold Warp.setP; split <;> rfl
@[simp] theorem Warp.setP_mstat (W : Warp) (n : Nat) (m : Word) : (Warp.setP W n m).mstat = W.mstat := by
  unfold Warp.setP; split <;> rfl
@[simp] theorem Warp.setP_cych (W : Warp) (n : Nat) (m : Word) : (Warp.setP W n m).cych = W.cych := by
  unfold Warp.setP; split <;> rfl
@[simp] theorem Warp.setP_tsbase (W : Warp) (n : Nat) (m : Word) : (Warp.setP W n m).tsbase = W.tsbase := by
  unfold Warp.setP; split <;> rfl
@[simp] theorem Warp.setP_tsbaseh (W : Warp) (n : Nat) (m : Word) : (Warp.setP W n m).tsbaseh = W.tsbaseh := by
  unfold Warp.setP; split <;> rfl
@[simp] theorem Warp.setP_svch (W : Warp) (n : Nat) (m : Word) : (Warp.setP W n m).svch = W.svch := by
  unfold Warp.setP; split <;> rfl
@[simp] theorem Warp.setP_bank1 (W : Warp) (n : Nat) (m : Word) : (Warp.setP W n m).bank1 = W.bank1 := by
  unfold Warp.setP; split <;> rfl
@[simp] theorem Warp.setP_bank2 (W : Warp) (n : Nat) (m : Word) : (Warp.setP W n m).bank2 = W.bank2 := by
  unfold Warp.setP; split <;> rfl
@[simp] theorem Warp.setP_async (W : Warp) (n : Nat) (m : Word) : (Warp.setP W n m).async = W.async := by
  unfold Warp.setP; split <;> rfl
@[simp] theorem Warp.setP_laneTrap (W : Warp) (n : Nat) (m : Word) : (Warp.setP W n m).laneTrap = W.laneTrap := by
  unfold Warp.setP; split <;> rfl
@[simp] theorem Warp.setP_killed (W : Warp) (n : Nat) (m : Word) : (Warp.setP W n m).killed = W.killed := by
  unfold Warp.setP; split <;> rfl
@[simp] theorem Warp.setP_ended (W : Warp) (n : Nat) (m : Word) : (Warp.setP W n m).ended = W.ended := by
  unfold Warp.setP; split <;> rfl
@[simp] theorem Warp.setP_arrivals (W : Warp) (n : Nat) (m : Word) : (Warp.setP W n m).arrivals = W.arrivals := by
  unfold Warp.setP; split <;> rfl
@[simp] theorem Warp.setP_batch (W : Warp) (n : Nat) (m : Word) : (Warp.setP W n m).batch = W.batch := by
  unfold Warp.setP; split <;> rfl
@[simp] theorem Warp.setP_epoch (W : Warp) (n : Nat) (m : Word) : (Warp.setP W n m).epoch = W.epoch := by
  unfold Warp.setP; split <;> rfl
@[simp] theorem Warp.setP_mfail (W : Warp) (n : Nat) (m : Word) : (Warp.setP W n m).mfail = W.mfail := by
  unfold Warp.setP; split <;> rfl
@[simp] theorem Warp.setP_mtouch (W : Warp) (n : Nat) (m : Word) : (Warp.setP W n m).mtouch = W.mtouch := by
  unfold Warp.setP; split <;> rfl
@[simp] theorem Warp.setP_ahead (W : Warp) (n : Nat) (m : Word) : (Warp.setP W n m).ahead = W.ahead := by
  unfold Warp.setP; split <;> rfl
@[simp] theorem Warp.setP_mimage (W : Warp) (n : Nat) (m : Word) : (Warp.setP W n m).mimage = W.mimage := by
  unfold Warp.setP; split <;> rfl
@[simp] theorem Warp.setP_mrecs (W : Warp) (n : Nat) (m : Word) : (Warp.setP W n m).mrecs = W.mrecs := by
  unfold Warp.setP; split <;> rfl
@[simp] theorem Warp.setP_nextCtx (W : Warp) (n : Nat) (m : Word) : (Warp.setP W n m).nextCtx = W.nextCtx := by
  unfold Warp.setP; split <;> rfl
@[simp] theorem Warp.setP_owed (W : Warp) (n : Nat) (m : Word) : (Warp.setP W n m).owed = W.owed := by
  unfold Warp.setP; split <;> rfl

/-! ### Warp.setFrag -/

@[simp] theorem Warp.setFrag_team (W : Warp) (i : Nat) (f : Option Frag) : (Warp.setFrag W i f).team = W.team := rfl
@[simp] theorem Warp.setFrag_index (W : Warp) (i : Nat) (f : Option Frag) : (Warp.setFrag W i f).index = W.index := rfl
@[simp] theorem Warp.setFrag_sregs (W : Warp) (i : Nat) (f : Option Frag) : (Warp.setFrag W i f).sregs = W.sregs := rfl
@[simp] theorem Warp.setFrag_vregs (W : Warp) (i : Nat) (f : Option Frag) : (Warp.setFrag W i f).vregs = W.vregs := rfl
@[simp] theorem Warp.setFrag_preds (W : Warp) (i : Nat) (f : Option Frag) : (Warp.setFrag W i f).preds = W.preds := rfl
@[simp] theorem Warp.setFrag_nv (W : Warp) (i : Nat) (f : Option Frag) : (Warp.setFrag W i f).nv = W.nv := rfl
@[simp] theorem Warp.setFrag_exited (W : Warp) (i : Nat) (f : Option Frag) : (Warp.setFrag W i f).exited = W.exited := rfl
@[simp] theorem Warp.setFrag_queue (W : Warp) (i : Nat) (f : Option Frag) : (Warp.setFrag W i f).queue = W.queue := rfl
@[simp] theorem Warp.setFrag_exec (W : Warp) (i : Nat) (f : Option Frag) : (Warp.setFrag W i f).exec = W.exec := rfl
@[simp] theorem Warp.setFrag_nextRun (W : Warp) (i : Nat) (f : Option Frag) : (Warp.setFrag W i f).nextRun = W.nextRun := rfl
@[simp] theorem Warp.setFrag_reqs (W : Warp) (i : Nat) (f : Option Frag) : (Warp.setFrag W i f).reqs = W.reqs := rfl
@[simp] theorem Warp.setFrag_nextReq (W : Warp) (i : Nat) (f : Option Frag) : (Warp.setFrag W i f).nextReq = W.nextReq := rfl
@[simp] theorem Warp.setFrag_spill (W : Warp) (i : Nat) (f : Option Frag) : (Warp.setFrag W i f).spill = W.spill := rfl
@[simp] theorem Warp.setFrag_spillLen (W : Warp) (i : Nat) (f : Option Frag) : (Warp.setFrag W i f).spillLen = W.spillLen := rfl
@[simp] theorem Warp.setFrag_sptr (W : Warp) (i : Nat) (f : Option Frag) : (Warp.setFrag W i f).sptr = W.sptr := rfl
@[simp] theorem Warp.setFrag_tvec (W : Warp) (i : Nat) (f : Option Frag) : (Warp.setFrag W i f).tvec = W.tvec := rfl
@[simp] theorem Warp.setFrag_tctl (W : Warp) (i : Nat) (f : Option Frag) : (Warp.setFrag W i f).tctl = W.tctl := rfl
@[simp] theorem Warp.setFrag_tlev (W : Warp) (i : Nat) (f : Option Frag) : (Warp.setFrag W i f).tlev = W.tlev := rfl
@[simp] theorem Warp.setFrag_idem (W : Warp) (i : Nat) (f : Option Frag) : (Warp.setFrag W i f).idem = W.idem := rfl
@[simp] theorem Warp.setFrag_mstat (W : Warp) (i : Nat) (f : Option Frag) : (Warp.setFrag W i f).mstat = W.mstat := rfl
@[simp] theorem Warp.setFrag_cych (W : Warp) (i : Nat) (f : Option Frag) : (Warp.setFrag W i f).cych = W.cych := rfl
@[simp] theorem Warp.setFrag_tsbase (W : Warp) (i : Nat) (f : Option Frag) : (Warp.setFrag W i f).tsbase = W.tsbase := rfl
@[simp] theorem Warp.setFrag_tsbaseh (W : Warp) (i : Nat) (f : Option Frag) : (Warp.setFrag W i f).tsbaseh = W.tsbaseh := rfl
@[simp] theorem Warp.setFrag_svch (W : Warp) (i : Nat) (f : Option Frag) : (Warp.setFrag W i f).svch = W.svch := rfl
@[simp] theorem Warp.setFrag_bank1 (W : Warp) (i : Nat) (f : Option Frag) : (Warp.setFrag W i f).bank1 = W.bank1 := rfl
@[simp] theorem Warp.setFrag_bank2 (W : Warp) (i : Nat) (f : Option Frag) : (Warp.setFrag W i f).bank2 = W.bank2 := rfl
@[simp] theorem Warp.setFrag_async (W : Warp) (i : Nat) (f : Option Frag) : (Warp.setFrag W i f).async = W.async := rfl
@[simp] theorem Warp.setFrag_laneTrap (W : Warp) (i : Nat) (f : Option Frag) : (Warp.setFrag W i f).laneTrap = W.laneTrap := rfl
@[simp] theorem Warp.setFrag_killed (W : Warp) (i : Nat) (f : Option Frag) : (Warp.setFrag W i f).killed = W.killed := rfl
@[simp] theorem Warp.setFrag_ended (W : Warp) (i : Nat) (f : Option Frag) : (Warp.setFrag W i f).ended = W.ended := rfl
@[simp] theorem Warp.setFrag_arrivals (W : Warp) (i : Nat) (f : Option Frag) : (Warp.setFrag W i f).arrivals = W.arrivals := rfl
@[simp] theorem Warp.setFrag_batch (W : Warp) (i : Nat) (f : Option Frag) : (Warp.setFrag W i f).batch = W.batch := rfl
@[simp] theorem Warp.setFrag_epoch (W : Warp) (i : Nat) (f : Option Frag) : (Warp.setFrag W i f).epoch = W.epoch := rfl
@[simp] theorem Warp.setFrag_mfail (W : Warp) (i : Nat) (f : Option Frag) : (Warp.setFrag W i f).mfail = W.mfail := rfl
@[simp] theorem Warp.setFrag_mtouch (W : Warp) (i : Nat) (f : Option Frag) : (Warp.setFrag W i f).mtouch = W.mtouch := rfl
@[simp] theorem Warp.setFrag_ahead (W : Warp) (i : Nat) (f : Option Frag) : (Warp.setFrag W i f).ahead = W.ahead := rfl
@[simp] theorem Warp.setFrag_mimage (W : Warp) (i : Nat) (f : Option Frag) : (Warp.setFrag W i f).mimage = W.mimage := rfl
@[simp] theorem Warp.setFrag_mrecs (W : Warp) (i : Nat) (f : Option Frag) : (Warp.setFrag W i f).mrecs = W.mrecs := rfl
@[simp] theorem Warp.setFrag_nextCtx (W : Warp) (i : Nat) (f : Option Frag) : (Warp.setFrag W i f).nextCtx = W.nextCtx := rfl
@[simp] theorem Warp.setFrag_owed (W : Warp) (i : Nat) (f : Option Frag) : (Warp.setFrag W i f).owed = W.owed := rfl

/-! ### Warp.onFrag -/

@[simp] theorem Warp.onFrag_team (W : Warp) (i : Nat) (g : Frag → Frag) : (Warp.onFrag W i g).team = W.team := rfl
@[simp] theorem Warp.onFrag_index (W : Warp) (i : Nat) (g : Frag → Frag) : (Warp.onFrag W i g).index = W.index := rfl
@[simp] theorem Warp.onFrag_sregs (W : Warp) (i : Nat) (g : Frag → Frag) : (Warp.onFrag W i g).sregs = W.sregs := rfl
@[simp] theorem Warp.onFrag_vregs (W : Warp) (i : Nat) (g : Frag → Frag) : (Warp.onFrag W i g).vregs = W.vregs := rfl
@[simp] theorem Warp.onFrag_preds (W : Warp) (i : Nat) (g : Frag → Frag) : (Warp.onFrag W i g).preds = W.preds := rfl
@[simp] theorem Warp.onFrag_nv (W : Warp) (i : Nat) (g : Frag → Frag) : (Warp.onFrag W i g).nv = W.nv := rfl
@[simp] theorem Warp.onFrag_exited (W : Warp) (i : Nat) (g : Frag → Frag) : (Warp.onFrag W i g).exited = W.exited := rfl
@[simp] theorem Warp.onFrag_queue (W : Warp) (i : Nat) (g : Frag → Frag) : (Warp.onFrag W i g).queue = W.queue := rfl
@[simp] theorem Warp.onFrag_exec (W : Warp) (i : Nat) (g : Frag → Frag) : (Warp.onFrag W i g).exec = W.exec := rfl
@[simp] theorem Warp.onFrag_nextRun (W : Warp) (i : Nat) (g : Frag → Frag) : (Warp.onFrag W i g).nextRun = W.nextRun := rfl
@[simp] theorem Warp.onFrag_reqs (W : Warp) (i : Nat) (g : Frag → Frag) : (Warp.onFrag W i g).reqs = W.reqs := rfl
@[simp] theorem Warp.onFrag_nextReq (W : Warp) (i : Nat) (g : Frag → Frag) : (Warp.onFrag W i g).nextReq = W.nextReq := rfl
@[simp] theorem Warp.onFrag_spill (W : Warp) (i : Nat) (g : Frag → Frag) : (Warp.onFrag W i g).spill = W.spill := rfl
@[simp] theorem Warp.onFrag_spillLen (W : Warp) (i : Nat) (g : Frag → Frag) : (Warp.onFrag W i g).spillLen = W.spillLen := rfl
@[simp] theorem Warp.onFrag_sptr (W : Warp) (i : Nat) (g : Frag → Frag) : (Warp.onFrag W i g).sptr = W.sptr := rfl
@[simp] theorem Warp.onFrag_tvec (W : Warp) (i : Nat) (g : Frag → Frag) : (Warp.onFrag W i g).tvec = W.tvec := rfl
@[simp] theorem Warp.onFrag_tctl (W : Warp) (i : Nat) (g : Frag → Frag) : (Warp.onFrag W i g).tctl = W.tctl := rfl
@[simp] theorem Warp.onFrag_tlev (W : Warp) (i : Nat) (g : Frag → Frag) : (Warp.onFrag W i g).tlev = W.tlev := rfl
@[simp] theorem Warp.onFrag_idem (W : Warp) (i : Nat) (g : Frag → Frag) : (Warp.onFrag W i g).idem = W.idem := rfl
@[simp] theorem Warp.onFrag_mstat (W : Warp) (i : Nat) (g : Frag → Frag) : (Warp.onFrag W i g).mstat = W.mstat := rfl
@[simp] theorem Warp.onFrag_cych (W : Warp) (i : Nat) (g : Frag → Frag) : (Warp.onFrag W i g).cych = W.cych := rfl
@[simp] theorem Warp.onFrag_tsbase (W : Warp) (i : Nat) (g : Frag → Frag) : (Warp.onFrag W i g).tsbase = W.tsbase := rfl
@[simp] theorem Warp.onFrag_tsbaseh (W : Warp) (i : Nat) (g : Frag → Frag) : (Warp.onFrag W i g).tsbaseh = W.tsbaseh := rfl
@[simp] theorem Warp.onFrag_svch (W : Warp) (i : Nat) (g : Frag → Frag) : (Warp.onFrag W i g).svch = W.svch := rfl
@[simp] theorem Warp.onFrag_bank1 (W : Warp) (i : Nat) (g : Frag → Frag) : (Warp.onFrag W i g).bank1 = W.bank1 := rfl
@[simp] theorem Warp.onFrag_bank2 (W : Warp) (i : Nat) (g : Frag → Frag) : (Warp.onFrag W i g).bank2 = W.bank2 := rfl
@[simp] theorem Warp.onFrag_async (W : Warp) (i : Nat) (g : Frag → Frag) : (Warp.onFrag W i g).async = W.async := rfl
@[simp] theorem Warp.onFrag_laneTrap (W : Warp) (i : Nat) (g : Frag → Frag) : (Warp.onFrag W i g).laneTrap = W.laneTrap := rfl
@[simp] theorem Warp.onFrag_killed (W : Warp) (i : Nat) (g : Frag → Frag) : (Warp.onFrag W i g).killed = W.killed := rfl
@[simp] theorem Warp.onFrag_ended (W : Warp) (i : Nat) (g : Frag → Frag) : (Warp.onFrag W i g).ended = W.ended := rfl
@[simp] theorem Warp.onFrag_arrivals (W : Warp) (i : Nat) (g : Frag → Frag) : (Warp.onFrag W i g).arrivals = W.arrivals := rfl
@[simp] theorem Warp.onFrag_batch (W : Warp) (i : Nat) (g : Frag → Frag) : (Warp.onFrag W i g).batch = W.batch := rfl
@[simp] theorem Warp.onFrag_epoch (W : Warp) (i : Nat) (g : Frag → Frag) : (Warp.onFrag W i g).epoch = W.epoch := rfl
@[simp] theorem Warp.onFrag_mfail (W : Warp) (i : Nat) (g : Frag → Frag) : (Warp.onFrag W i g).mfail = W.mfail := rfl
@[simp] theorem Warp.onFrag_mtouch (W : Warp) (i : Nat) (g : Frag → Frag) : (Warp.onFrag W i g).mtouch = W.mtouch := rfl
@[simp] theorem Warp.onFrag_ahead (W : Warp) (i : Nat) (g : Frag → Frag) : (Warp.onFrag W i g).ahead = W.ahead := rfl
@[simp] theorem Warp.onFrag_mimage (W : Warp) (i : Nat) (g : Frag → Frag) : (Warp.onFrag W i g).mimage = W.mimage := rfl
@[simp] theorem Warp.onFrag_mrecs (W : Warp) (i : Nat) (g : Frag → Frag) : (Warp.onFrag W i g).mrecs = W.mrecs := rfl
@[simp] theorem Warp.onFrag_nextCtx (W : Warp) (i : Nat) (g : Frag → Frag) : (Warp.onFrag W i g).nextCtx = W.nextCtx := rfl
@[simp] theorem Warp.onFrag_owed (W : Warp) (i : Nat) (g : Frag → Frag) : (Warp.onFrag W i g).owed = W.owed := rfl

/-! ### Warp.issue -/

@[simp] theorem Warp.issue_team (W : Warp) (r : Req) : (Warp.issue W r).team = W.team := rfl
@[simp] theorem Warp.issue_index (W : Warp) (r : Req) : (Warp.issue W r).index = W.index := rfl
@[simp] theorem Warp.issue_sregs (W : Warp) (r : Req) : (Warp.issue W r).sregs = W.sregs := rfl
@[simp] theorem Warp.issue_vregs (W : Warp) (r : Req) : (Warp.issue W r).vregs = W.vregs := rfl
@[simp] theorem Warp.issue_preds (W : Warp) (r : Req) : (Warp.issue W r).preds = W.preds := rfl
@[simp] theorem Warp.issue_nv (W : Warp) (r : Req) : (Warp.issue W r).nv = W.nv := rfl
@[simp] theorem Warp.issue_frags (W : Warp) (r : Req) : (Warp.issue W r).frags = W.frags := rfl
@[simp] theorem Warp.issue_exited (W : Warp) (r : Req) : (Warp.issue W r).exited = W.exited := rfl
@[simp] theorem Warp.issue_queue (W : Warp) (r : Req) : (Warp.issue W r).queue = W.queue := rfl
@[simp] theorem Warp.issue_exec (W : Warp) (r : Req) : (Warp.issue W r).exec = W.exec := rfl
@[simp] theorem Warp.issue_nextRun (W : Warp) (r : Req) : (Warp.issue W r).nextRun = W.nextRun := rfl
@[simp] theorem Warp.issue_spill (W : Warp) (r : Req) : (Warp.issue W r).spill = W.spill := rfl
@[simp] theorem Warp.issue_spillLen (W : Warp) (r : Req) : (Warp.issue W r).spillLen = W.spillLen := rfl
@[simp] theorem Warp.issue_sptr (W : Warp) (r : Req) : (Warp.issue W r).sptr = W.sptr := rfl
@[simp] theorem Warp.issue_tvec (W : Warp) (r : Req) : (Warp.issue W r).tvec = W.tvec := rfl
@[simp] theorem Warp.issue_tctl (W : Warp) (r : Req) : (Warp.issue W r).tctl = W.tctl := rfl
@[simp] theorem Warp.issue_tlev (W : Warp) (r : Req) : (Warp.issue W r).tlev = W.tlev := rfl
@[simp] theorem Warp.issue_idem (W : Warp) (r : Req) : (Warp.issue W r).idem = W.idem := rfl
@[simp] theorem Warp.issue_mstat (W : Warp) (r : Req) : (Warp.issue W r).mstat = W.mstat := rfl
@[simp] theorem Warp.issue_cych (W : Warp) (r : Req) : (Warp.issue W r).cych = W.cych := rfl
@[simp] theorem Warp.issue_tsbase (W : Warp) (r : Req) : (Warp.issue W r).tsbase = W.tsbase := rfl
@[simp] theorem Warp.issue_tsbaseh (W : Warp) (r : Req) : (Warp.issue W r).tsbaseh = W.tsbaseh := rfl
@[simp] theorem Warp.issue_svch (W : Warp) (r : Req) : (Warp.issue W r).svch = W.svch := rfl
@[simp] theorem Warp.issue_bank1 (W : Warp) (r : Req) : (Warp.issue W r).bank1 = W.bank1 := rfl
@[simp] theorem Warp.issue_bank2 (W : Warp) (r : Req) : (Warp.issue W r).bank2 = W.bank2 := rfl
@[simp] theorem Warp.issue_async (W : Warp) (r : Req) : (Warp.issue W r).async = W.async := rfl
@[simp] theorem Warp.issue_laneTrap (W : Warp) (r : Req) : (Warp.issue W r).laneTrap = W.laneTrap := rfl
@[simp] theorem Warp.issue_killed (W : Warp) (r : Req) : (Warp.issue W r).killed = W.killed := rfl
@[simp] theorem Warp.issue_ended (W : Warp) (r : Req) : (Warp.issue W r).ended = W.ended := rfl
@[simp] theorem Warp.issue_arrivals (W : Warp) (r : Req) : (Warp.issue W r).arrivals = W.arrivals := rfl
@[simp] theorem Warp.issue_batch (W : Warp) (r : Req) : (Warp.issue W r).batch = W.batch := rfl
@[simp] theorem Warp.issue_epoch (W : Warp) (r : Req) : (Warp.issue W r).epoch = W.epoch := rfl
@[simp] theorem Warp.issue_mfail (W : Warp) (r : Req) : (Warp.issue W r).mfail = W.mfail := rfl
@[simp] theorem Warp.issue_mtouch (W : Warp) (r : Req) : (Warp.issue W r).mtouch = W.mtouch := rfl
@[simp] theorem Warp.issue_ahead (W : Warp) (r : Req) : (Warp.issue W r).ahead = W.ahead := rfl
@[simp] theorem Warp.issue_mimage (W : Warp) (r : Req) : (Warp.issue W r).mimage = W.mimage := rfl
@[simp] theorem Warp.issue_mrecs (W : Warp) (r : Req) : (Warp.issue W r).mrecs = W.mrecs := rfl
@[simp] theorem Warp.issue_nextCtx (W : Warp) (r : Req) : (Warp.issue W r).nextCtx = W.nextCtx := rfl
@[simp] theorem Warp.issue_owed (W : Warp) (r : Req) : (Warp.issue W r).owed = W.owed := rfl

end Sys2Proof.Machine
end

