-- ==== Sys2Proof/Laws/Ops.lean ====
section
/-! SUPPORT. What the shared operations over fragments and runs can do, said once. -/
namespace Sys2Proof.Machine

/-! ### Registers -/

theorem Warp.s_setS_same (W : Warp) (d : Nat) (v : Word) :
    Warp.s (Warp.setS W d v) d = if d = 0 then 0 else v := by
  unfold Warp.s Warp.setS; split <;> simp_all

theorem Warp.s_setS_other (W : Warp) (d r : Nat) (v : Word) (h : r ≠ d) :
    Warp.s (Warp.setS W d v) r = Warp.s W r := by
  unfold Warp.s Warp.setS
  by_cases hr : r = 0
  · simp [hr]
  · by_cases hd : d = 0 <;> simp [hr, hd, SMap.get_set_other _ _ _ _ h]

/-- A record of another key stays when one is removed. -/
theorem AMap.get?_erase_ne {α : Type} (m : AMap α) {k r : Nat} (h : r ≠ k) :
    AMap.get? (AMap.erase m k) r = AMap.get? m r := by
  unfold AMap.erase
  induction m with
  | nil => rfl
  | cons e m ih =>
    obtain ⟨a, v⟩ := e
    by_cases ha : a = k
    · subst ha; simpa [AMap.get?, Ne.symm h] using ih
    · by_cases hr : a = r
      · subst hr; simp [AMap.get?, ha]
      · simp [AMap.get?, ha, hr, ih]

theorem Warp.owed_setS_other (W : Warp) (d r : Nat) (v : Word) (h : r ≠ d) :
    AMap.get? (Warp.setS W d v).owed r = AMap.get? W.owed r := by
  unfold Warp.setS
  split
  · rfl
  · exact AMap.get?_erase_ne _ h

theorem Warp.s_congr {V W : Warp} (h : V.sregs = W.sregs) (r : Nat) : Warp.s V r = Warp.s W r := by
  unfold Warp.s; rw [h]

theorem Warp.s_zero (W : Warp) : Warp.s W 0 = 0 := rfl

/-! ### Fragments -/

theorem Warp.waitingAt_congr {V W : Warp} (h : V.frags = W.frags) (sp : Split) :
    Warp.waitingAt V sp = Warp.waitingAt W sp := by
  simp only [Warp.waitingAt, Warp.live, Warp.frag?, h]

theorem Warp.clear_only (es : List (Nat × Frag)) (W : Warp) :
    (es.foldl (fun W e => Warp.setFrag W e.1 none) W) =
      { W with frags := es.foldl (fun fr e => fr.set e.1 none) W.frags } := by
  induction es generalizing W with
  | nil => rfl
  | cons e es ih => simp only [List.foldl_cons]; rw [ih]; rfl

/-- A fusion changes the split table and nothing else. -/
theorem Warp.fusion_only (W : Warp) (sp : Split) (lo : Nat) (V : Warp)
    (h : Warp.fusion W sp = some (lo, V)) : V = { W with frags := V.frags } := by
  unfold Warp.fusion at h
  split at h
  · cases h
  · dsimp only at h
    split at h
    · cases h; rw [Warp.clear_only]; rfl
    · cases h

/-- A fusion depends on the split table and the exited lanes alone. -/
theorem Warp.fusion_congr {V W : Warp} (h : V.frags = W.frags) (hx : V.exited = W.exited) (sp : Split) :
    (Warp.fusion V sp).map (fun e => (e.1, e.2.frags)) = (Warp.fusion W sp).map fun e => (e.1, e.2.frags) := by
  unfold Warp.fusion
  rw [Warp.waitingAt_congr h, hx]
  split
  · rfl
  · simp only [Warp.clear_only]
    split <;> simp [Warp.setFrag, h]

/-- Arriving changes the split table and nothing else. -/
theorem Warp.settle_only (n : Nat) (W : Warp) (slot : Nat) :
    Warp.settle n W slot = { W with frags := (Warp.settle n W slot).frags } := by
  have key : ∃ fr, Warp.settle n W slot = { W with frags := fr } := by
    induction n generalizing W slot with
    | zero => exact ⟨W.frags, rfl⟩
    | succ n ih =>
      unfold Warp.settle
      split
      · exact ⟨W.frags, rfl⟩
      · split
        · exact ⟨W.frags, rfl⟩
        · split
          · dsimp only
            split
            · next lo V hf =>
              have h1 := Warp.fusion_only _ _ _ _ hf
              obtain ⟨fr, h2⟩ := ih V lo
              exact ⟨fr, by rw [h2, h1]; rfl⟩
            · exact ⟨_, rfl⟩
          · exact ⟨W.frags, rfl⟩
  obtain ⟨fr, h⟩ := key
  rw [h]

theorem Warp.settle_congr (n : Nat) (V W : Warp) (slot : Nat) (h : V.frags = W.frags)
    (hx : V.exited = W.exited) : (Warp.settle n V slot).frags = (Warp.settle n W slot).frags := by
  induction n generalizing V W slot with
  | zero => exact h
  | succ n ih =>
    unfold Warp.settle
    rw [show Warp.frag? V slot = Warp.frag? W slot by simp only [Warp.frag?, h]]
    split
    · exact h
    · next f hf =>
      split
      · exact h
      · next sp rest hj =>
        split
        · have hc := Warp.fusion_congr (V := Warp.setFrag V slot (some { f with wait := .atJoin }))
            (W := Warp.setFrag W slot (some { f with wait := .atJoin }))
            (by simp [Warp.setFrag, h]) hx sp
          dsimp only
          have hV := Warp.fusion_only (Warp.setFrag V slot (some { f with wait := .atJoin })) sp
          have hW := Warp.fusion_only (Warp.setFrag W slot (some { f with wait := .atJoin })) sp
          split
          · next lo V2 e1 =>
            split
            · next lo' W2 e2 =>
              rw [e1, e2] at hc
              simp only [Option.map_some, Option.some.injEq, Prod.mk.injEq] at hc
              rw [hc.1]
              refine ih _ _ _ hc.2 ?_
              rw [hV _ _ e1, hW _ _ e2]; exact hx
            · next e2 => rw [e1, e2] at hc; cases hc
          · next e1 =>
            split
            · next lo' W2 e2 => rw [e1, e2] at hc; cases hc
            · simp [Warp.setFrag, h]
        · exact h

/-- Arriving at an address changes the split table and nothing else. -/
theorem Warp.arrive_only (W : Warp) (slot : Nat) (pc : Word) :
    Warp.arrive W slot pc = { W with frags := (Warp.arrive W slot pc).frags } := by
  unfold Warp.arrive
  split
  · rfl
  · rw [Warp.settle_only]; rfl

/-- Where a fragment arrives depends on the split table and the exited lanes alone. -/
theorem Warp.arrive_congr {V W : Warp} (h : V.frags = W.frags) (hx : V.exited = W.exited) (slot : Nat)
    (pc : Word) : (Warp.arrive V slot pc).frags = (Warp.arrive W slot pc).frags := by
  unfold Warp.arrive
  rw [show Warp.frag? V slot = Warp.frag? W slot by simp only [Warp.frag?, h]]
  split
  · exact h
  · exact Warp.settle_congr _ _ _ _ (by simp [Warp.setFrag, h]) hx

/-! ### The executing fragment -/

theorem State.ctx?_warp {s : State} {c : Ctx} (h : State.ctx? s = some c) :
    s.warps[c.w]? = some c.warp := by
  unfold State.ctx? State.warp? at h
  cases hW : s.warps[s.cur.1]? with
  | none => rw [hW] at h; cases h
  | some W =>
    rw [hW] at h
    simp only [Option.bind_some, Option.map_eq_some_iff] at h
    obtain ⟨f, _, rfl⟩ := h
    exact hW

theorem State.ctx?_frag {s : State} {c : Ctx} (h : State.ctx? s = some c) :
    Warp.frag? c.warp c.slot = some c.frag := by
  unfold State.ctx? State.warp? at h
  cases hW : s.warps[s.cur.1]? with
  | none => rw [hW] at h; cases h
  | some W =>
    rw [hW] at h
    simp only [Option.bind_some, Option.map_eq_some_iff] at h
    obtain ⟨f, hf, rfl⟩ := h
    exact hf

theorem withFrag_ctx {s : State} {c : Ctx} (h : State.ctx? s = some c) (k : Ctx → Out State) :
    withFrag s k = k (Ctx.issuing c) := by
  unfold withFrag; rw [h]

theorem State.onWarp_eq {s : State} {w : Nat} {W : Warp} (h : s.warps[w]? = some W) (f : Warp → Warp) :
    State.onWarp s w f = State.setWarp s w (f W) := by
  unfold State.onWarp State.setWarp
  congr 1
  apply List.ext_getElem?
  intro i
  rw [List.getElem?_modify, List.getElem?_set]
  by_cases hi : w = i
  · subst hi
    have : w < s.warps.length := by
      rcases Nat.lt_or_ge w s.warps.length with h' | h'
      · exact h'
      · rw [List.getElem?_eq_none h'] at h; cases h
    have e : s.warps[w] = W := by rw [List.getElem?_eq_getElem this] at h; exact Option.some.inj h
    simp [this, e]
  · simp [hi]

theorem State.onWarp_onWarp (s : State) (w : Nat) (f g : Warp → Warp) :
    State.onWarp (State.onWarp s w f) w g = State.onWarp s w fun W => g (f W) := by
  unfold State.onWarp
  congr 1
  apply List.ext_getElem?
  intro i
  simp only [List.getElem?_modify]
  by_cases hi : w = i
  · simp [hi, Option.map_map, Function.comp_def]
  · simp [hi]

theorem State.setWarp_lt {s : State} {w : Nat} {W : Warp} (h : s.warps[w]? = some W) :
    w < s.warps.length := by
  rcases Nat.lt_or_ge w s.warps.length with h' | h'
  · exact h'
  · rw [List.getElem?_eq_none h'] at h; cases h

/-- Bytes that read as before, twice. -/
theorem sameBytes_trans {s t u : State} (h : sameBytes s t) (k : sameBytes t u) : sameBytes s u :=
  fun l => (k l).trans (h l)

/-- A warp replaced by one with the same spill stack leaves every byte. -/
theorem sameBytes_setWarp {s : State} {w : Nat} {W : Warp} (h : s.warps[w]? = some W) (V : Warp)
    (hs : V.spill = W.spill) : sameBytes s (State.setWarp s w V) := by
  intro l
  cases l with
  | main a => rfl
  | shared t a => rfl
  | scratch g die a => rfl
  | spill w' a =>
    have hw := State.setWarp_lt h
    by_cases hi : w = w'
    · subst hi
      have e : s.warps[w] = W := by rw [List.getElem?_eq_getElem hw] at h; exact Option.some.inj h
      simp [State.byteAt, State.setWarp, hs, hw, e]
    · simp [State.byteAt, State.setWarp, hi]

/-- Everything that an instruction which writes a scalar register and completes does. -/
theorem Ctx.result_frame {s : State} {c : Ctx} (hw : s.warps[c.w]? = some c.warp) (d : Nat) (v : Word) :
    yields (Ctx.result c d v s) s c 1 d v := by
  refine ⟨_, Warp.arrive (Warp.setS c.warp d v) c.slot (c.frag.pc + word (4 * 1)), rfl, ⟨?_, ⟨?_, ?_⟩, ?_, ?_⟩, ?_⟩
  · show State.onWarp (State.onWarp s c.w _) c.w _ = _
    rw [State.onWarp_onWarp, State.onWarp_eq hw]; rfl
  · rw [Warp.arrive_only]; unfold Warp.setS; split <;> rfl
  · intro r hr
    rw [Warp.arrive_only]
    have hd : r ≠ d := by simpa using hr
    exact ⟨Warp.s_setS_other _ _ _ _ hd, Warp.owed_setS_other _ _ _ _ hd⟩
  · exact Warp.arrive_congr (by simp) (by simp) _ _
  · show sameBytes s (State.onWarp (State.onWarp s c.w _) c.w _)
    rw [State.onWarp_onWarp, State.onWarp_eq hw]
    refine sameBytes_setWarp hw _ ?_
    show (Warp.arrive _ _ _).spill = _
    rw [Warp.arrive_only]; simp
  · rw [Warp.arrive_only]; exact Warp.s_setS_same _ _ _

/-- The same of the fragment that State.cur names. -/
theorem Ctx.result_yields {s : State} {c : Ctx} (h : State.ctx? s = some c) (d : Nat) (v : Word) :
    yields (Ctx.result c d v s) s c 1 d v := Ctx.result_frame (State.ctx?_warp h) d v

/-- Everything that an instruction of `n` words which only completes does. -/
theorem Ctx.advance_frame {s : State} {c : Ctx} (hw : s.warps[c.w]? = some c.warp) (n : Nat) :
    passes (.next (Ctx.advance c n s)) s c n := by
  refine ⟨_, Warp.arrive c.warp c.slot (c.frag.pc + word (4 * n)), rfl, ?_, ⟨?_, ?_⟩, rfl, ?_⟩
  · show State.onWarp s c.w _ = _
    rw [State.onWarp_eq hw]; rfl
  · rw [Warp.arrive_only]
  · intro r _; rw [Warp.arrive_only]; exact ⟨rfl, rfl⟩
  · show sameBytes s (State.onWarp s c.w _)
    rw [State.onWarp_eq hw]
    refine sameBytes_setWarp hw _ ?_
    show (Warp.arrive _ _ _).spill = _
    rw [Warp.arrive_only]

/-- The same of the fragment that State.cur names. -/
theorem Ctx.advance_passes {s : State} {c : Ctx} (h : State.ctx? s = some c) (n : Nat) :
    passes (.next (Ctx.advance c n s)) s c n := Ctx.advance_frame (State.ctx?_warp h) n

/-- The warp of a fragment changed by a function. -/
theorem Ctx.on_eq {s : State} {c : Ctx} (h : State.ctx? s = some c) (f : Warp → Warp) :
    Ctx.on c s f = State.setWarp s c.w (f c.warp) := State.onWarp_eq (State.ctx?_warp h) f

/-- The changed warp stands in the changed state. -/
theorem State.setWarp_get {s : State} {w : Nat} {W : Warp} (h : s.warps[w]? = some W) (V : Warp) :
    (State.setWarp s w V).warps[w]? = some V := by
  simp [State.setWarp, State.setWarp_lt h]

/-- Everything that an instruction does which changes its warp by a function, writes a scalar register
and completes. -/
theorem Ctx.result_yieldsOn {s : State} {c : Ctx} (h : State.ctx? s = some c) (d : Nat) (v : Word)
    (f : Warp → Warp) : yieldsOn (Ctx.result c d v (Ctx.on c s f)) s c 1 d v f := by
  rw [Ctx.on_eq h]
  exact Ctx.result_frame (c := { c with warp := f c.warp }) (State.setWarp_get (State.ctx?_warp h) _) d v

/-- Everything that an instruction of `n` words does which changes its warp by a function and completes. -/
theorem Ctx.advance_passesOn {s : State} {c : Ctx} (h : State.ctx? s = some c) (n : Nat)
    (f : Warp → Warp) : passesOn (.next (Ctx.advance c n (Ctx.on c s f))) s c n f := by
  rw [Ctx.on_eq h]
  exact Ctx.advance_frame (c := { c with warp := f c.warp }) (State.setWarp_get (State.ctx?_warp h) _) n

/-- A fragment that begins a wait changes nothing else. -/
theorem Ctx.wait_waits {s : State} {c : Ctx} (h : State.ctx? s = some c) (k : Wait) :
    waits (Ctx.wait c k s) s c k := by
  unfold waits Ctx.wait Ctx.on
  rw [State.onWarp_eq (State.ctx?_warp h)]

/-- The warp replaced by itself is the same state. -/
theorem State.setWarp_self {s : State} {w : Nat} {W : Warp} (h : s.warps[w]? = some W) :
    State.setWarp s w W = s := by
  have hw := State.setWarp_lt h
  have e : s.warps[w] = W := by rw [List.getElem?_eq_getElem hw] at h; exact Option.some.inj h
  unfold State.setWarp
  rw [← e, List.set_getElem_self]

/-- A fragment's instruction that meets a trapping condition only takes its trap, when nothing of the warp
holds the trap back (R315). -/
theorem Ctx.trap_traps {s : State} {c : Ctx} (h : State.ctx? s = some c) (hm : Ctx.mayTrap c) (cause : Nat)
    (tval : DWord) (write : Bool) : traps (Ctx.trap c s cause tval write) s c cause tval write := by
  have hr : Warp.returnHeld c.warp = c.warp := by unfold Warp.returnHeld; rw [hm.1]
  unfold traps Ctx.trap Warp.trapDue
  simp only [hr, hm.1, hm.2.1, hm.2.2, Option.isSome_none, Bool.or_self, Bool.false_eq_true, if_false]
  rw [State.setWarp_self (State.ctx?_warp h)]

/-- A translation changes only its agent's TLB (R328, R329). -/
theorem State.translate_only {s u : State} {ag : Agent} {asid va pa : Nat} {acc : Access}
    (h : State.translate s ag asid va acc = .ok (u, pa)) : u = { s with tlb := u.tlb } := by
  unfold State.translate at h
  split at h
  · split at h
    · cases h; rfl
    · cases h
  · split at h
    · cases h
    · split at h
      · cases h
      · split at h
        · cases h
        · dsimp only at h
          split at h
          · cases h; rfl
          · cases h

/-- And so does the check of a start (R73). -/
theorem State.checkStart_only {s u : State} {ag : Agent} {asid va pa : Nat} {lane : Bool}
    (h : State.checkStart s ag asid va lane = .ok (u, pa)) : u = { s with tlb := u.tlb } := by
  unfold State.checkStart at h
  cases hm : State.mapping? s asid va with
  | none => simp [hm] at h
  | some m =>
    simp only [hm] at h
    split at h
    all_goals
      split at h
      · split at h
        · rename_i r hr; cases h; exact State.translate_only hr
        · cases h
      · cases h

/-- A control transfer whose target can be fetched: the registers that `f` writes, and the fragment
arrives there. -/
theorem Ctx.jump_branches {s u : State} {c : Ctx} {target : Word} {pa : Nat} (h : State.ctx? s = some c)
    (ht : Ctx.target c s target = .ok (u, pa)) (ds : List Nat)
    (f : Warp → Warp)
    (hf : f c.warp = { c.warp with sregs := (f c.warp).sregs, owed := (f c.warp).owed })
    (hs : ∀ r, r ∉ ds → Warp.s (f c.warp) r = Warp.s c.warp r ∧
      AMap.get? (f c.warp).owed r = AMap.get? c.warp.owed r) :
    branches (Ctx.jump c s target f) s u c target ds (Warp.arrive (f c.warp) c.slot target) := by
  have hu : u = { s with tlb := u.tlb } := State.checkStart_only ht
  have hw : u.warps[c.w]? = some c.warp := by rw [hu]; exact State.ctx?_warp h
  have e : Ctx.jump c s target f = .next (State.setWarp u c.w (Warp.arrive (f c.warp) c.slot target)) := by
    unfold Ctx.jump
    unfold Ctx.target at ht
    simp only [ht]
    show Host.Outcome.next (State.onWarp u c.w _) = _
    rw [State.onWarp_eq hw]
  refine ⟨e, hu, ⟨?_, ?_⟩, ?_, ?_⟩
  · rw [Warp.arrive_only]; rw [hf]
  · intro r hr; rw [Warp.arrive_only]; exact hs r hr
  · exact Warp.arrive_congr (by rw [hf]) (by rw [hf]) _ _
  · refine sameBytes_trans (t := u) ?_ (sameBytes_setWarp hw _ ?_)
    · rw [hu]; intro l; cases l <;> rfl
    · rw [Warp.arrive_only]; rw [hf]

end Sys2Proof.Machine
end

