-- ==== Sys2Proof/Laws/Frags.lean ====
section
/-! SUPPORT. Entries of the split table: what replacing or changing one does to the others, and that
arriving at an instruction does not depend on what a fragment waited in. -/
namespace Sys2Proof.Machine

/-- A fragment stands in an entry of the table. -/
theorem Warp.frag?_eq_some {W : Warp} {i : Nat} {f : Frag} :
    Warp.frag? W i = some f ↔ W.frags[i]? = some (some f) := by
  unfold Warp.frag?
  cases W.frags[i]? with
  | none => simp
  | some o => cases o <;> simp

theorem Warp.frag?_lt {W : Warp} {i : Nat} {f : Frag} (h : Warp.frag? W i = some f) : i < W.frags.length := by
  have := Warp.frag?_eq_some.mp h
  rcases Nat.lt_or_ge i W.frags.length with h' | h'
  · exact h'
  · rw [List.getElem?_eq_none h'] at this; cases this

theorem Warp.frag?_congr {V W : Warp} (h : V.frags = W.frags) (i : Nat) : Warp.frag? V i = Warp.frag? W i := by
  unfold Warp.frag?; rw [h]

/-- An entry replaced reads as what replaces it. -/
theorem Warp.frag?_setFrag_same {W : Warp} {i : Nat} (h : i < W.frags.length) (o : Option Frag) :
    Warp.frag? (Warp.setFrag W i o) i = o := by
  unfold Warp.frag? Warp.setFrag; simp [h]

/-- And leaves the others. -/
theorem Warp.frag?_setFrag_other {W : Warp} {i j : Nat} (h : j ≠ i) (o : Option Frag) :
    Warp.frag? (Warp.setFrag W i o) j = Warp.frag? W j := by
  unfold Warp.frag? Warp.setFrag; simp [Ne.symm h]

/-- A fragment changed in place is its entry replaced. -/
theorem Warp.onFrag_eq {W : Warp} {i : Nat} {f : Frag} (h : Warp.frag? W i = some f) (g : Frag → Frag) :
    Warp.onFrag W i g = Warp.setFrag W i (some (g f)) := by
  have h := Warp.frag?_eq_some.mp h
  unfold Warp.onFrag Warp.setFrag
  congr 1
  apply List.ext_getElem?
  intro j
  rw [List.getElem?_modify, List.getElem?_set]
  by_cases hj : i = j
  · subst hj
    have hl : i < W.frags.length := by
      rcases Nat.lt_or_ge i W.frags.length with h' | h'
      · exact h'
      · rw [List.getElem?_eq_none h'] at h; cases h
    simp only [h, if_true]; simp [hl]
  · simp [hj]

/-- An entry replaced twice. -/
theorem Warp.setFrag_setFrag (W : Warp) (i : Nat) (o p : Option Frag) :
    Warp.setFrag (Warp.setFrag W i o) i p = Warp.setFrag W i p := by
  unfold Warp.setFrag; simp

/-- A fragment's arrival at an instruction, when it stands in an entry. -/
theorem Warp.arrive_some {W : Warp} {i : Nat} {f : Frag} (h : Warp.frag? W i = some f) (pc : Word) :
    Warp.arrive W i pc =
      Warp.settle (f.joins.length + 1) (Warp.setFrag W i (some { f with pc := pc, wait := .ready })) i := by
  unfold Warp.arrive; rw [h]

/-- What a fragment waited in is nothing to its arrival. -/
theorem Warp.arrive_setFrag {W : Warp} {i : Nat} {f : Frag} (h : Warp.frag? W i = some f) (k : Wait) (pc : Word) :
    Warp.arrive (Warp.setFrag W i (some { f with wait := k })) i pc = Warp.arrive W i pc := by
  rw [Warp.arrive_some h, Warp.arrive_some (Warp.frag?_setFrag_same (Warp.frag?_lt h) _), Warp.setFrag_setFrag]

/-- The same of a fragment changed in place. -/
theorem Warp.arrive_onFrag {W : Warp} {i : Nat} {f : Frag} (h : Warp.frag? W i = some f) (k : Wait) (pc : Word) :
    Warp.arrive (Warp.onFrag W i fun f => { f with wait := k }) i pc = Warp.arrive W i pc := by
  rw [Warp.onFrag_eq h, Warp.arrive_setFrag h]

end Sys2Proof.Machine
end

