-- ==== Sys2Proof/Laws/Main.lean ====
section
/-! SUPPORT. What shared operations do to main memory: most leave it, and those that store to it keep its
canonical form; with the same said of what an instruction answers. -/
namespace Sys2Proof.Machine

/-! ### Operations that leave main memory -/

@[simp] theorem State.killOps_main (s : State) (w : Nat) : (State.killOps s w).main = s.main := rfl
@[simp] theorem State.free_main (s : State) : (State.free s).1.main = s.main := rfl
@[simp] theorem Ctx.on_main (c : Ctx) (s : State) (f : Warp → Warp) : (Ctx.on c s f).main = s.main := by
  simp [Ctx.on]
@[simp] theorem Ctx.advance_main (c : Ctx) (n : Nat) (s : State) : (Ctx.advance c n s).main = s.main := by
  simp [Ctx.advance]
@[simp] theorem State.haltQueue_main (s : State) (q r va : Nat) : (State.haltQueue s q r va).main = s.main := by
  unfold State.haltQueue; simp only; split <;> simp
@[simp] theorem State.haltWarp_main (s : State) (W : Warp) (r : Nat) : (State.haltWarp s W r).main = s.main := by
  unfold State.haltWarp; split
  · rfl
  · split <;> simp
@[simp] theorem State.setBar_main (s : State) (t off : Nat) (b : Bar) : (State.setBar s t off b).main = s.main := rfl
@[simp] theorem State.wakeBar_main (s : State) (t off r : Nat) : (State.wakeBar s t off r).main = s.main := rfl
@[simp] theorem State.arriveBar_main (s : State) (t off : Nat) : (State.arriveBar s t off).main = s.main := by
  unfold State.arriveBar; simp only; split <;> simp
@[simp] theorem State.onHealth_main (s : State) (die : Nat) (f : Health → Health) :
    (State.onHealth s die f).main = s.main := rfl
@[simp] theorem State.countBad_main (s : State) (die : Nat) (a : Option Nat) :
    (State.countBad s die a).main = s.main := rfl
@[simp] theorem State.countMain_main (s : State) (pa : Nat) : (State.countMain s pa).main = s.main := rfl

/-- A failed translation leaves main memory alone, whatever its walk met. -/
@[simp] theorem State.walked_main (s : State) (f : XlFault) : (State.walked s f).main = s.main := by
  unfold State.walked; split <;> simp
@[simp] theorem State.metPlace_main (s : State) (w : Nat) (p : Place) : (State.metPlace s w p).main = s.main := rfl
@[simp] theorem State.metVirtual_main (s : State) (asid va : Nat) : (State.metVirtual s asid va).main = s.main := by
  unfold State.metVirtual; split <;> simp
@[simp] theorem State.mendBar_main (s : State) (t off : Nat) : (State.mendBar s t off).main = s.main := by
  unfold State.mendBar; split
  · rfl
  · split <;> rfl
@[simp] theorem State.lowerWaiters_main (s : State) (W : Warp) (k t off : Nat) :
    (State.lowerWaiters s W k t off).main = s.main := by
  unfold State.lowerWaiters; split <;> simp
@[simp] theorem State.leaveWait_main (s : State) (w : Nat) (W : Warp) (k : Nat) :
    (State.leaveWait s w W k).main = s.main := by
  unfold State.leaveWait; split
  · rfl
  · split <;> simp
@[simp] theorem killWarp_main (s : State) (w : Nat) (W : Warp) (t : Trap) : (killWarp s w W t).main = s.main := by
  simp [killWarp]
@[simp] theorem enterTrap_main (s : State) (w : Nat) (W : Warp) (k : Option Nat) (t : Trap) :
    (enterTrap s w W k t).main = s.main := by
  unfold enterTrap; split
  · simp
  · split
    · simp
    · simp only; split <;> simp
@[simp] theorem takeTrap_main (s : State) (w : Nat) (k : Option Nat) (t : Trap) :
    (takeTrap s w k t).main = s.main := by
  unfold takeTrap; split
  · rfl
  · split <;> simp
@[simp] theorem State.writePlace_main (s : State) (w : Nat) (p : Place) (n v : Nat) :
    (State.writePlace s w p n v).main = s.main := by
  unfold State.writePlace; split <;> simp
@[simp] theorem State.dropArrays_main (s : State) (g : Nat → Bool) : (State.dropArrays s g).main = s.main := rfl
@[simp] theorem LaneCtx.push_main (c : LaneCtx) (s : State) (l : List DWord) (wbs : List WriteBack)
    (rs : List Req) : (LaneCtx.push c s l wbs rs).main = s.main := by
  simp [LaneCtx.push]

/-- A fold of operations that leave main memory leaves it. -/
theorem foldl_main {α : Type} (f : State → α → State) (hf : ∀ s a, (f s a).main = s.main) (xs : List α)
    (s : State) : (xs.foldl f s).main = s.main := by
  induction xs generalizing s with
  | nil => rfl
  | cons a xs ih => rw [List.foldl_cons, ih, hf]

@[simp] theorem idemAbort_main (s : State) (t cause va : Nat) : (idemAbort s t cause va).main = s.main := by
  unfold idemAbort; split
  · rfl
  · simp only [State.report_main, State.onTeam_main, State.dropArrays_main]
    exact foldl_main _ (fun _ _ => by simp) _ _

theorem takePending_main {s t : State} {w : Nat} (h : takePending s w = some t) : t.main = s.main := by
  unfold takePending at h
  split at h
  · cases h
  · dsimp only at h
    split at h
    · cases h
    · split at h
      · obtain ⟨k, -, rfl⟩ := Option.map_eq_some_iff.mp h; simp
      · split at h
        · cases h
        · obtain ⟨k, -, rfl⟩ := Option.map_eq_some_iff.mp h; simp

theorem State.translate_main {s u : State} {ag : Agent} {asid va pa : Nat} {acc : Access}
    (h : State.translate s ag asid va acc = .ok (u, pa)) : u.main = s.main := by
  rw [State.translate_only h]

theorem State.checkStart_main {s u : State} {ag : Agent} {asid va pa : Nat} {lane : Bool}
    (h : State.checkStart s ag asid va lane = .ok (u, pa)) : u.main = s.main := by
  rw [State.checkStart_only h]

/-! ### What an instruction answers -/

/-- A next state of this answer has a canonical main memory. -/
def staysCanonical (o : Out State) : Prop := ∀ t, o = .next t → State.canonical t

theorem staysCanonical_next {t : State} (h : State.canonical t) : staysCanonical (.next t) := by
  intro u e; cases e; exact h

theorem staysCanonical_main {s t : State} (h : State.canonical s) (e : t.main = s.main) :
    staysCanonical (.next t) := staysCanonical_next (by unfold State.canonical; rw [e]; exact h)

theorem staysCanonical_fault (f : Fault) : staysCanonical (.fault f) := by intro u e; cases e

theorem staysCanonical_refused (r : Refusal) : staysCanonical (.refused r) := by intro u e; cases e

theorem withFrag_staysCanonical {s : State} {k : Ctx → Out State}
    (hk : ∀ c, State.ctx? s = some c → staysCanonical (k (Ctx.issuing c))) : staysCanonical (withFrag s k) := by
  unfold withFrag; split
  · rename_i c hc; exact hk c hc
  · exact staysCanonical_refused _

theorem withRun_staysCanonical {s : State} {k : LaneCtx → Out State}
    (hk : ∀ c, State.laneCtx? s = some c → staysCanonical (k c)) : staysCanonical (withRun s k) := by
  unfold withRun; split
  · rename_i c hc; exact hk c hc
  · exact staysCanonical_refused _

theorem Ctx.wait_staysCanonical (c : Ctx) (k : Wait) {s : State} (h : State.canonical s) :
    staysCanonical (Ctx.wait c k s) := staysCanonical_main h (by simp)

theorem Ctx.result_staysCanonical (c : Ctx) (d : Nat) (v : Word) {s : State} (h : State.canonical s) :
    staysCanonical (Ctx.result c d v s) := staysCanonical_main h (by simp)

theorem Ctx.trap_staysCanonical (c : Ctx) (cause : Nat) (v : DWord) (write : Bool) {s : State}
    (h : State.canonical s) : staysCanonical (Ctx.trap c s cause v write) := by
  unfold Ctx.trap; dsimp only; split <;> exact staysCanonical_main h (by simp)

theorem Ctx.lateTrap_staysCanonical (c : Ctx) (cause : Nat) (v : DWord) (write : Bool) {s : State}
    (h : State.canonical s) : staysCanonical (Ctx.lateTrap c s cause v write) := by
  unfold Ctx.lateTrap; dsimp only; split
  · exact staysCanonical_main h (by simp [Ctx.reissue])
  · split
    · exact Ctx.wait_staysCanonical _ _ (by unfold State.canonical; rw [Ctx.on_main]; exact h)
    · exact Ctx.trap_staysCanonical _ _ _ _ h

theorem Ctx.meets_staysCanonical (c : Ctx) (cause : Nat) (v : DWord) (write : Bool) {s : State}
    (h : State.canonical s) : staysCanonical (Ctx.meets c s cause v write) := by
  unfold Ctx.meets; split
  · exact Ctx.trap_staysCanonical _ _ _ _ h
  · exact Ctx.lateTrap_staysCanonical _ _ _ _ h

theorem Ctx.xlFault_staysCanonical (c : Ctx) (f : XlFault) (va : Nat) (write : Bool) {s : State}
    (h : State.canonical s) : staysCanonical (Ctx.xlFault c s f va write) := by
  unfold Ctx.xlFault; split
  · exact staysCanonical_main h (by simp)
  · exact Ctx.meets_staysCanonical _ _ _ _ (by simpa [State.canonical] using h)

/-- A fetch that cannot be made keeps it: an abort, or a trap. -/
theorem Ctx.fetchFault_staysCanonical (c : Ctx) (start : Nat) (f : FetchFault) (va : Nat) {s : State}
    (h : State.canonical s) : staysCanonical (Ctx.fetchFault c s start f va) := by
  unfold Ctx.fetchFault; split
  · exact Ctx.xlFault_staysCanonical _ _ _ _ h
  · exact Ctx.trap_staysCanonical _ _ _ _ (by simpa [State.canonical] using h)
  · exact Ctx.trap_staysCanonical _ _ _ _ h

theorem Ctx.jump_staysCanonical (c : Ctx) (target : Word) (f : Warp → Warp) {s : State}
    (h : State.canonical s) : staysCanonical (Ctx.jump c s target f) := by
  unfold Ctx.jump; dsimp only; split
  · exact Ctx.fetchFault_staysCanonical _ _ _ _ h
  · rename_i u pa hu
    exact staysCanonical_main h (by simp [State.checkStart_main hu])

theorem LaneCtx.give_staysCanonical (c : LaneCtx) (o : LaneOp) (wide : Bool) (f : Nat → Nat) {s : State}
    (h : State.canonical s) : staysCanonical (LaneCtx.give c o s wide f) := staysCanonical_main h (by simp)

theorem LaneCtx.givePred_staysCanonical (c : LaneCtx) (o : LaneOp) (f : Nat → Bool) {s : State}
    (h : State.canonical s) : staysCanonical (LaneCtx.givePred c o s f) := staysCanonical_main h (by simp)

theorem LaneCtx.ask_staysCanonical (c : LaneCtx) (o : LaneOp) (rs : List Req) {s : State}
    (h : State.canonical s) : staysCanonical (LaneCtx.ask c o s rs) := staysCanonical_main h (by simp)

theorem LaneCtx.trap_staysCanonical (c : LaneCtx) (cause : Nat) (m : Word) (v : DWord) (write : Bool)
    {s : State} (h : State.canonical s) : staysCanonical (LaneCtx.trap c s cause m v write) := by
  unfold LaneCtx.trap; dsimp only
  refine staysCanonical_main h ?_
  generalize hu : State.tick _ _ _ = u
  have hm : u.main = s.main := by rw [← hu]; simp
  cases hp : takePending u c.w with
  | none => exact hm
  | some t => exact (takePending_main hp).trans hm

/-! ### Stores to main memory -/

/-- A store of a number keeps the canonical form. -/
theorem State.canonical_write {s : State} (h : State.canonical s) (a n v : Nat) :
    State.canonical { s with main := Memory.write s.main a n v } := Memory.wf_write _ _ _ _ h

/-- And so does a store of bytes. -/
theorem State.canonical_writeBytes {s : State} (h : State.canonical s) (a : Nat) (bs : List Byte) :
    State.canonical { s with main := Memory.writeBytes s.main a bs } := Memory.wf_writeBytes _ _ _ h

/-- A forest's spoiling leaves main memory. -/
@[simp] theorem State.spoilForests_main (s : State) (pa n : Nat) : (State.spoilForests s pa n).main = s.main := by
  unfold State.spoilForests; split
  · exact foldl_main _ (fun _ _ => by split <;> rfl) _ _
  · rfl

/-- The one store of a number to main memory (R232) keeps the canonical form. -/
theorem State.canonical_putMain {s : State} (h : State.canonical s) (pa n v : Nat) :
    State.canonical (State.putMain s pa n v) := by
  refine State.canonical_write (s := State.spoilForests s pa n) ?_ pa n v
  unfold State.canonical; rw [State.spoilForests_main]; exact h

/-- And so does the one store of bytes. -/
theorem State.canonical_putMainBytes {s : State} (h : State.canonical s) (pa : Nat) (bs : List Byte) :
    State.canonical (State.putMainBytes s pa bs) := by
  refine State.canonical_writeBytes (s := State.spoilForests s pa bs.length) ?_ pa bs
  unfold State.canonical; rw [State.spoilForests_main]; exact h

/-- A store of a copy where an end lies keeps it. -/
theorem State.canonical_writeWhere {s : State} (h : State.canonical s) (w : Nat) (p : Where) (n v : Nat) :
    State.canonical (State.writeWhere s w p n v) := by
  unfold State.writeWhere; split
  · unfold State.canonical; rw [State.writePlace_main]; exact h
  · exact State.canonical_putMain h _ _ _

end Sys2Proof.Machine
end

