-- ==== Sys2Proof/Laws/Run.lean ====
section
/-! SUPPORT. What the shared operations of lane instructions do: each leaves its run with a latch, with
write-backs or with requests, or traps it, and changes nothing else. -/
namespace Sys2Proof.Machine

/-- The executing run stands in its warp. -/
theorem State.laneCtx?_warp {s : State} {c : LaneCtx} (h : State.laneCtx? s = some c) :
    s.warps[c.w]? = some c.warp ∧ c.warp.exec = some c.ex := by
  unfold State.laneCtx? State.warp? at h
  cases hw : s.warps[s.laneCur]? with
  | none => simp [hw] at h
  | some W =>
    cases he : W.exec with
    | none => simp [hw, he] at h
    | some e =>
      simp only [hw, he, Option.bind_some] at h
      split at h
      · cases h
      · cases h; exact ⟨hw, he⟩

/-- A lane meaning over the executing run. -/
theorem withRun_ctx {s : State} {c : LaneCtx} (h : State.laneCtx? s = some c) (k : LaneCtx → Out State) :
    withRun s k = k c := by
  unfold withRun; rw [h]

/-- Counting an event changes only the event counters. -/
theorem State.tick_only (s : State) (core source : Nat) :
    State.tick s core source = { s with events := (State.tick s core source).events } := by
  unfold State.tick; split <;> rfl

/-- Counting an event leaves every byte. -/
theorem sameBytes_tick (s : State) (core source : Nat) : sameBytes s (State.tick s core source) := by
  intro l
  rw [State.tick_only]
  cases l <;> rfl

/-- A run after one instruction more. -/
theorem LaneCtx.push_frame {s : State} {c : LaneCtx} (h : State.laneCtx? s = some c)
    (latch : List DWord) (wbs : List WriteBack) (reqs : List Req) :
    runFrame s (LaneCtx.push c s latch wbs reqs) c latch wbs reqs := by
  have hw := (State.laneCtx?_warp h).1
  unfold LaneCtx.push
  rw [State.onWarp_eq hw]
  constructor
  · rw [State.tick_only]; rfl
  · refine sameBytes_trans ?_ (sameBytes_tick _ _ _)
    exact sameBytes_setWarp hw _ rfl

/-- Everything that an instruction which gives its lanes values does. -/
theorem LaneCtx.give_gives {s : State} {c : LaneCtx} (h : State.laneCtx? s = some c) (i : LaneOp)
    (wide : Bool) (f : Nat → Nat) : laneGives (LaneCtx.give c i s wide f) s c i wide f :=
  ⟨_, rfl, LaneCtx.push_frame h _ _ _⟩

/-- Everything that an instruction which gives its lanes values of its type does. -/
theorem LaneCtx.giveTy_gives {s : State} {c : LaneCtx} (h : State.laneCtx? s = some c) (i : LaneOp)
    (f : Nat → Nat) :
    laneGives (LaneCtx.giveTy c i s f) s c i (wideTy i.ty) fun L => writtenForm i.ty (f L) :=
  LaneCtx.give_gives h i _ _

/-- Everything that an instruction which gives its lanes truth values does. -/
theorem LaneCtx.givePred_decides {s : State} {c : LaneCtx} (h : State.laneCtx? s = some c) (i : LaneOp)
    (f : Nat → Bool) : laneDecides (LaneCtx.givePred c i s f) s c i f := by
  refine ⟨_, rfl, ?_⟩
  have e : (lanes.map fun L => if LaneCtx.part c i L && f L then (1 : DWord) else 0)
      = latchOf c i fun L => if f L then 1 else 0 := by
    unfold latchOf lanes
    refine List.map_congr_left fun L _ => ?_
    cases hp : LaneCtx.part c i L <;> cases hf : f L <;> simp [hf]
  have := LaneCtx.push_frame h (latchOf c i fun L => if f L then 1 else 0)
    (if i.nw then [] else (List.range 32).flatMap fun L =>
      if LaneCtx.part c i L then [WriteBack.preg L i.d (f L)] else []) []
  rw [← e] at this
  rw [← e]
  exact this

/-- Everything that an instruction which collects requests does, when a lane takes part. -/
theorem LaneCtx.ask_asks {s : State} {c : LaneCtx} (h : State.laneCtx? s = some c) (i : LaneOp)
    (hp : LaneCtx.partMask c i ≠ 0) (reqs : List Req) : laneAsks (LaneCtx.ask c i s reqs) s c reqs := by
  refine ⟨_, rfl, ?_⟩
  rw [if_neg hp]
  exact LaneCtx.push_frame h _ _ _

/-- And when none takes part: nothing is requested. -/
theorem LaneCtx.ask_none {s : State} {c : LaneCtx} (h : State.laneCtx? s = some c) (i : LaneOp)
    (hp : LaneCtx.partMask c i = 0) (reqs : List Req) : laneAsks (LaneCtx.ask c i s reqs) s c [] := by
  refine ⟨_, rfl, ?_⟩
  rw [if_pos hp]
  exact LaneCtx.push_frame h _ _ _

/-- Everything that an instruction which traps its run does. -/
theorem LaneCtx.trap_traps {s : State} {c : LaneCtx} (h : State.laneCtx? s = some c) (cause : Nat)
    (m : Word) (tval : DWord) : laneTraps (LaneCtx.trap c s cause m tval) s c cause m tval := by
  have hw := (State.laneCtx?_warp h).1
  unfold laneTraps LaneCtx.trap
  rw [State.onWarp_eq hw]
  exact ⟨_, State.tick_only _ _ _, rfl⟩

end Sys2Proof.Machine
end

