-- ==== Sys2Proof/Tests/Slice0.lean ====
section
/-! SUPPORT. The model's own tests: ill-formed instructions that the check refuses, words that decode
to their instructions, single steps with results from the specification, and for every statement
states that meet its hypotheses. -/
namespace Sys2Proof.Tests

open Sys2Proof Sys2Proof.Machine

/-! ### Small states -/

/-- A fragment of all lanes at a byte offset. -/
def frag (pc : Word := 0) (joins : List Split := []) (wait : Wait := .ready) (mask : Word := BitVec.allOnes 32) :
    Frag :=
  { mask := mask, pc := pc, joins := joins, hlev := 0, wait := wait }

/-- The split table that holds some fragments and no others. -/
def table (fs : List Frag) : List (Option Frag) := fs.map some ++ List.replicate (32 - fs.length) none

/-- A warp with 64 vector registers, a spill stack of 4,096 bytes and the named scalar registers. -/
def warp (regs : List (Nat × Word)) : Warp :=
  { Warp.fresh 0 0 64 4096 0 false [] with sregs := regs, frags := table [frag] }

/-- A translation of 64 KiB from a virtual to the same physical address for an agent. -/
def page (ag : Agent) (va : Nat) (w x : Bool) : TlbEntry :=
  { agent := ag, asid := 1, va := va, size := 0x10000, pa := va, r := true, w := w, x := x, a := true,
    d := false, leaf := 0x300000 }

/-- The team of the tests, with 4,096 bytes of shared memory. -/
def team (shm : Memory := Memory.empty) : Team :=
  { grid := 0, tx := 0, ty := 0, tz := 0, status := .running, core := 0, shm := shm, shLen := 4096,
    warps := [0] }

/-- The grid of the tests: scalar code at 0x10000, lane code at 0x20000, 4,096 bytes of scratchpad, of
which 64 to 127 are constant, from queue 0. -/
def grid (scr : Memory := Memory.empty) : Grid :=
  { asid := 1, depth := 0, scode := 0x10000, lcode := 0x20000, scr := List.replicate 8 scr, constLo := 64,
    constHi := 128, argOff := 128, argLen := 0, scrLen := 4096, nbhd := false, teams := [0],
    queue := some 0, packet := 0x5000, dies := [0], counts := 1 + 2 ^ 10 + 2 ^ 20, placed := 1 }

/-- One warp at work on core 0, with main memory of the context at 0x100000 and its code pages. -/
def world (W : Warp) (main : Memory := Memory.empty) (shm : Memory := Memory.empty)
    (scr : Memory := Memory.empty) : State :=
  { State.reset with
    rr := [(0, 0)], warps := [W], teams := [team shm], grids := [grid scr], main := main,
    tlb := [page (.core 0) 0x10000 false true, page (.core 0) 0x20000 false true,
            page (.core 0) 0x100000 true false, page .ringmaster 0x100000 true false,
            page .hub 0x100000 true false],
    execMaps := [ExecMap.mk 1 0x10000 0x400 false (List.range 64) 0 [], ExecMap.mk 1 0x20000 0xC0 true [0, 2] 8 []],
    queues := [(0, { Queue.zero with base := 0x100000, asid := 1, enable := true, state := .running })] }

/-- The executing fragment of a warp in entry 0. -/
def ctx (W : Warp) (f : Frag := frag) : Ctx := ⟨0, 0, W, f⟩

/-- The next state, or reset. -/
def after (o : Out State) : State :=
  match o with
  | .next t => t
  | .fault _ => State.reset
  | .refused _ => State.reset

/-- Whether an answer is a next state. -/
def isNext (o : Out State) : Bool :=
  match o with
  | .next _ => true
  | .fault _ => false
  | .refused _ => false

/-- Scalar register r of warp 0 after an instruction of the world of a warp. -/
def gives (i : Instr) (W : Warp) (r : Nat) : Word :=
  match (after (exec i (world W))).warps with
  | V :: _ => Warp.s V r
  | [] => 0

/-- Whether a computation succeeds. -/
def isOk {ε α : Type} (e : Except ε α) : Bool :=
  match e with
  | .ok _ => true
  | .error _ => false

theorem ok_of_isOk {ε α : Type} {e : Except ε α} (h : isOk e = true) : ∃ x, e = .ok x := by
  cases e with
  | ok x => exact ⟨x, rfl⟩
  | error _ => cases h

/-! ### Ill-formed instructions (WellFormed): one for each condition of each instruction -/

theorem test_ill_formed_scalar_1 : ∀ i ∈ ([
      .add 128 8 10, .add 9 128 10, .add 9 8 128, .sub 128 8 10, .sub 9 128 10, .sub 9 8 128,
      .and 128 8 10, .and 9 128 10, .and 9 8 128, .or 128 8 10, .or 9 128 10, .or 9 8 128, .xor 128 8 10,
      .xor 9 128 10, .xor 9 8 128, .shl 128 8 10, .shl 9 128 10, .shl 9 8 128, .shr 128 8 10,
      .shr 9 128 10, .shr 9 8 128, .sra 128 8 10, .sra 9 128 10, .sra 9 8 128, .min 128 8 10,
      .min 9 128 10, .min 9 8 128, .max 128 8 10, .max 9 128 10, .max 9 8 128, .minn 128 8 10,
      .minn 9 128 10, .minn 9 8 128, .maxn 128 8 10, .maxn 9 128 10, .maxn 9 8 128] : List Instr),
    i.wf = false := by decide

theorem test_ill_formed_scalar_2 : ∀ i ∈ ([
      .slt 128 8 10, .slt 9 128 10, .slt 9 8 128, .sltn 128 8 10, .sltn 9 128 10, .sltn 9 8 128,
      .seq 128 8 10, .seq 9 128 10, .seq 9 8 128, .sne 128 8 10, .sne 9 128 10, .sne 9 8 128,
      .mul 128 8 10, .mul 9 128 10, .mul 9 8 128, .mulh 128 8 10, .mulh 9 128 10, .mulh 9 8 128,
      .mulhn 128 8 10, .mulhn 9 128 10, .mulhn 9 8 128, .div 128 8 10, .div 9 128 10, .div 9 8 128,
      .divn 128 8 10, .divn 9 128 10, .divn 9 8 128, .rem 128 8 10, .rem 9 128 10, .rem 9 8 128,
      .remn 128 8 10, .remn 9 128 10, .remn 9 8 128, .lea 128 8 10 3, .lea 9 128 10 3, .lea 9 8 128 3] : List Instr),
    i.wf = false := by decide

theorem test_ill_formed_scalar_3 : ∀ i ∈ ([
      .lea 9 8 10 16, .popc 128 8, .popc 9 128, .clz 128 8, .clz 9 128, .ctz 128 8, .ctz 9 128,
      .brev 128 8, .brev 9 128, .selnz 128 8 10, .selnz 9 128 10, .selnz 9 8 128, .extb 128 8 4 7 true,
      .extb 9 128 4 7 true, .extb 9 8 32 7 true, .extb 9 8 4 0 true, .extb 9 8 4 33 true, .insb 128 8 4 7,
      .insb 9 128 4 7, .insb 9 8 32 7, .insb 9 8 4 0, .insb 9 8 4 33, .addi 128 8 (-5), .addi 9 128 (-5),
      .addi 9 8 (-1025), .addi 9 8 1024, .andi 128 8 (-5), .andi 9 128 (-5), .andi 9 8 (-1025),
      .andi 9 8 1024, .ori 128 8 (-5), .ori 9 128 (-5), .ori 9 8 (-1025), .ori 9 8 1024, .xori 128 8 (-5),
      .xori 9 128 (-5)] : List Instr),
    i.wf = false := by decide

theorem test_ill_formed_scalar_4 : ∀ i ∈ ([
      .xori 9 8 (-1025), .xori 9 8 1024, .shli 128 8 3, .shli 9 128 3, .shli 9 8 32, .shri 128 8 3,
      .shri 9 128 3, .shri 9 8 32, .srai 128 8 3, .srai 9 128 3, .srai 9 8 32, .slti 128 8 (-5),
      .slti 9 128 (-5), .slti 9 8 (-1025), .slti 9 8 1024, .sltni 128 8 (-5), .sltni 9 128 (-5),
      .sltni 9 8 (-1025), .sltni 9 8 1024, .seqi 128 8 (-5), .seqi 9 128 (-5), .seqi 9 8 (-1025),
      .seqi 9 8 1024, .movhi 128 (-5), .movhi 9 (-131073), .movhi 9 131072, .movi 128 (-5),
      .movi 9 (-131073), .movi 9 131072, .movl 128 5, .fadd 128 8 10, .fadd 9 128 10, .fadd 9 8 128,
      .fsub 128 8 10, .fsub 9 128 10, .fsub 9 8 128] : List Instr),
    i.wf = false := by decide

theorem test_ill_formed_scalar_5 : ∀ i ∈ ([
      .fmul 128 8 10, .fmul 9 128 10, .fmul 9 8 128, .fmin 128 8 10, .fmin 9 128 10, .fmin 9 8 128,
      .fmax 128 8 10, .fmax 9 128 10, .fmax 9 8 128, .feq 128 8 10, .feq 9 128 10, .feq 9 8 128,
      .flt 128 8 10, .flt 9 128 10, .flt 9 8 128, .fle 128 8 10, .fle 9 128 10, .fle 9 8 128, .fcvti 128 8,
      .fcvti 9 128, .fcvtf 128 8, .fcvtf 9 128, .fabs 128 8, .fabs 9 128, .ffma 128 8 10, .ffma 9 128 10,
      .ffma 9 8 128, .sld 128 8 (-5), .sld 9 128 (-5), .sld 9 8 (-1025), .sld 9 8 1024, .sst 128 8 (-5),
      .sst 9 128 (-5), .sst 9 8 (-1025), .sst 9 8 1024, .xld 128 8 (-5)] : List Instr),
    i.wf = false := by decide

theorem test_ill_formed_scalar_6 : ∀ i ∈ ([
      .xld 9 128 (-5), .xld 9 8 (-1025), .xld 9 8 1024, .xst 128 8 (-5), .xst 9 128 (-5), .xst 9 8 (-1025),
      .xst 9 8 1024, .spush 128, .spop 128, .br (-131073), .br 131072, .beqz 128 (-5), .beqz 8 (-131073),
      .beqz 8 131072, .bnez 128 (-5), .bnez 8 (-131073), .bnez 8 131072, .bltz 128 (-5), .bltz 8 (-131073),
      .bltz 8 131072, .bgez 128 (-5), .bgez 8 (-131073), .bgez 8 131072, .call 128 (-5), .call 8 (-131073),
      .call 8 131072, .jr 128, .brv true 8 (-5) 7, .brv true 3 (-131073) 7, .brv true 3 131072 7,
      .brv true 3 (-5) (-2147483649), .brv true 3 (-5) 2147483648, .loop 128 (-5), .loop 8 (-131073),
      .loop 8 131072, .lrun 131072 8 3 1 2 3 0] : List Instr),
    i.wf = false := by decide

theorem test_ill_formed_scalar_7 : ∀ i ∈ ([
      .lrun 34 256 3 1 2 3 0, .lrun 34 8 5 1 2 3 0, .lrun 34 8 3 128 2 3 0, .lrun 34 8 3 1 128 3 0,
      .lrun 34 8 3 1 2 128 0, .lrun 34 8 3 1 2 3 128, .lrun 34 8 0 1 0 0 0, .lrun 34 8 1 1 2 0 0,
      .lrun 34 8 2 1 2 3 0, .lrun 34 8 3 1 2 3 1, .lwait 256, .lget 128 8 200, .lget 9 128 200,
      .lget 9 8 256, .lput 128 8 200, .lput 9 128 200, .lput 9 8 256, .pget 128 3, .pget 9 8, .pset 128 3,
      .pset 8 0, .pset 8 8, .waitp 128 3, .waitp 8 6, .rdcnt 128 3, .rdcnt 9 6, .fence 32 21, .fence 5 128,
      .barInit 128 8 10, .barInit 9 128 10, .barInit 9 8 128, .barArr 128 8, .barArr 9 128, .barWait 128 8,
      .barWait 9 128, .barArrwait 128 8] : List Instr),
    i.wf = false := by decide

theorem test_ill_formed_scalar_8 : ∀ i ∈ ([
      .barArrwait 9 128, .barInv 128 8, .barInv 9 128, .barTest 128 8, .barTest 9 128, .waitvEqSh 128 8 10,
      .waitvEqSh 9 128 10, .waitvEqSh 9 8 128, .waitvNeSh 128 8 10, .waitvNeSh 9 128 10,
      .waitvNeSh 9 8 128, .waitvEqSc 128 8 10, .waitvEqSc 9 128 10, .waitvEqSc 9 8 128,
      .waitvNeSc 128 8 10, .waitvNeSc 9 128 10, .waitvNeSc 9 8 128, .scopeset 128 7 10, .scopeset 9 7 128,
      .scopeset 9 5 10, .scopeset 9 32 10, .cpyLin 0, .cpyLin 125, .cpyTile 0, .cpyTile 125, .cpyRing 0,
      .cpyRing 125, .cpyw 128 8 (-5), .cpyw 9 128 (-5), .cpyw 9 8 (-17), .cpyw 9 8 16, .thbind 128 3 10,
      .thbind 9 3 128, .thbind 9 64 10, .cqput 128, .cqget 128] : List Instr),
    i.wf = false := by decide

theorem test_ill_formed_scalar_9 : ∀ i ∈ ([
      .lxferRestrict 0 true, .lxferRestrict 125 true, .lxferProlong 0 true, .lxferProlong 125 true,
      .lxferInject 0 true, .lxferInject 125 true, .stbind 128 7 10, .stbind 9 7 128, .stbind 9 16 10,
      .cpyprog 128, .macqSingle 128 3, .macqSingle 9 257, .macqPair 128 3, .macqPair 9 257, .macqTry 128 3,
      .macqTry 9 257, .mldRow 16 8, .mldRow 6 128, .mldCol 16 8, .mldCol 6 128, .mst 16 8, .mst 6 128,
      .mmaTile 16 6 11 17, .mmaTile 3 16 11 17, .mmaTile 3 6 256 17, .mmaTile 3 6 11 0, .mmaTile 3 6 11 32,
      .mmaHandle 16 3 11 17, .mmaHandle 3 64 11 17, .mmaHandle 3 3 256 17, .mmaHandle 3 3 11 0,
      .mmaHandle 3 3 11 32, .mblShared 256 8 (-5), .mblShared 11 128 (-5), .mblShared 11 8 (-257),
      .mblShared 11 8 256] : List Instr),
    i.wf = false := by decide

theorem test_ill_formed_scalar_10 : ∀ i ∈ ([
      .mblHandle 256 8, .mblHandle 11 128, .mfence 128, .mwait 128, .mdrainShared 16 8 17,
      .mdrainShared 3 128 17, .mdrainShared 3 8 0, .mdrainShared 3 8 32, .mdrainTile 16 6 17,
      .mdrainTile 3 16 17, .mdrainTile 3 6 0, .mdrainTile 3 6 32, .mzero 16, .mprog 128, .eqOpen 128 3 10,
      .eqOpen 9 3 128, .eqOpen 9 32 10, .eqClose 128 3, .eqClose 9 32, .eqSnap 128 3, .eqSnap 9 32,
      .eqUndo 128 3, .eqUndo 9 32, .eqKeep 128 3, .eqKeep 9 32, .eqStat 0 3 1, .eqStat 125 3 1,
      .eqStat 9 32 1, .eqStat 9 3 3, .eqrelRoot 0, .eqrelRoot 125, .eqrelDense 0, .eqrelDense 125,
      .eqrelSum 0, .eqrelSum 125, .eqrelMin 0] : List Instr),
    i.wf = false := by decide

theorem test_ill_formed_scalar_11 : ∀ i ∈ ([
      .eqrelMin 125, .eqrelMax 0, .eqrelMax 125, .ctxRes 128 8 10, .ctxRes 9 128 10, .ctxRes 9 8 128,
      .ctxPub 128 8 10, .ctxPub 9 128 10, .ctxPub 9 8 0, .ctxPub 9 8 127, .ctxAcq 0 8 10, .ctxAcq 126 8 10,
      .ctxAcq 9 128 10, .ctxAcq 9 8 128, .ctxAbn 128 8 10, .ctxAbn 9 128 10, .ctxAbn 9 8 0,
      .ctxAbn 9 8 127, .ctxStat 128 8 10, .ctxStat 9 128 10, .ctxStat 9 8 128, .tempc 0 8, .tempc 127 8,
      .tempc 9 128, .maskwait 128 8 10, .maskwait 9 128 10, .maskwait 9 8 128, .toksend 128 8 10,
      .toksend 9 128 10, .toksend 9 8 128, .fmc 128 8 10 5, .fmc 9 128 10 5, .fmc 9 8 0 5, .fmc 9 8 127 5,
      .fmc 9 8 10 8, .fgrpSet 128 8 10] : List Instr),
    i.wf = false := by decide

theorem test_ill_formed_scalar_12 : ∀ i ∈ ([
      .fgrpSet 9 128 10, .fgrpSet 9 8 128, .fgrpOr 128 8 10, .fgrpOr 9 128 10, .fgrpOr 9 8 128,
      .fgrpClear 128 8 10, .fgrpClear 9 128 10, .fgrpClear 9 8 128, .fack 0 8 1, .fack 125 8 1,
      .fack 9 128 1, .fack 9 8 4, .trap 64, .rdsr 128 17, .rdsr 9 11, .wrsr 128 17, .wrsr 8 2, .launch 0,
      .launch 125, .svcPagein 128 8, .svcPagein 9 128, .svcNote 128 8, .svcNote 9 128, .evsel 7 128,
      .evsel 8 10, .evrd 0 7, .evrd 127 7, .evrd 9 8, .ssave 128, .srest 128] : List Instr),
    i.wf = false := by decide

theorem test_ill_formed_lane_1 : ∀ i ∈ ([
      .laneAdd ⟨.f32, 0, false, false, 6, .v 4, .v 5, .v 0, 0, 0⟩,
      .laneAdd ⟨.i32, 0, false, false, 6, .v 4, .v 5, .v 0, 1, 0⟩,
      .laneFadd ⟨.f32, 0, false, false, 6, .v 4, .v 5, .v 0, 4, 0⟩,
      .laneAdd ⟨.i32, 0, false, false, 6, .v 4, .v 5, .v 1, 0, 0⟩,
      .neg ⟨.i32, 0, false, false, 6, .v 4, .v 5, .v 0, 0, 0⟩,
      .trail ⟨.b32, 0, false, true, 0, .v 4, .v 0, .v 0, 0, 0⟩,
      .laneAdd ⟨.i32, 0, false, false, 6, .v 4, .v 5, .v 0, 0, 1⟩,
      .laneAdd ⟨.i32, 8, false, false, 6, .v 4, .v 5, .v 0, 0, 0⟩,
      .laneAdd ⟨.i32, 0, true, false, 6, .v 4, .v 5, .v 0, 0, 0⟩,
      .lnop ⟨.b32, 1, false, true, 0, .v 0, .v 0, .v 0, 0, 0⟩,
      .laneAdd ⟨.i32, 0, false, false, 256, .v 4, .v 5, .v 0, 0, 0⟩,
      .laneAdd ⟨.i64, 0, false, false, 7, .v 4, .v 6, .v 0, 0, 0⟩,
      .laneAdd ⟨.i64, 0, false, false, 6, .v 5, .v 6, .v 0, 0, 0⟩,
      .laneAdd ⟨.i64, 0, false, false, 6, .v 4, .v 7, .v 0, 0, 0⟩,
      .mad ⟨.i64, 0, false, false, 6, .v 4, .v 6, .v 7, 0, 0⟩,
      .laneAdd ⟨.i32, 0, false, true, 6, .v 4, .v 5, .v 0, 0, 0⟩,
      .lnop ⟨.b32, 0, false, false, 0, .v 0, .v 0, .v 0, 0, 0⟩,
      .sts ⟨.b32, 0, false, true, 3, .v 4, .w2, .v 6, 0, 0⟩,
      .lds ⟨.b32, 0, false, true, 0, .v 4, .w2, .v 0, 0, 0⟩,
      .lds ⟨.b32, 0, false, false, 3, .v 4, .v 5, .v 0, 0, 0⟩,
      .lds ⟨.e2m1, 0, false, false, 3, .v 4, .w2, .v 0, 0, 0⟩,
      .setp ⟨.i32, 0, false, false, 0, .v 4, .v 5, .v 0, 0, 0⟩] : List Instr),
    i.wf = false := by decide

theorem test_ill_formed_lane_2 : ∀ i ∈ ([
      .setp ⟨.i32, 0, false, false, 8, .v 4, .v 5, .v 0, 0, 0⟩,
      .setp ⟨.i32, 0, false, false, 3, .v 4, .v 5, .v 0, 6, 0⟩,
      .shfl ⟨.b32, 0, false, false, 3, .v 4, .v 5, .v 6, 0, 0⟩,
      .gath ⟨.b32, 0, false, false, 16, .v 1, .v 4, .v 0, 0, 0⟩,
      .gath ⟨.b32, 0, false, false, 12, .arg 0, .v 4, .v 0, 0, 0⟩,
      .scat ⟨.b32, 0, false, true, 0, .arg 0, .v 4, .v 9, 0, 0⟩,
      .rng4 ⟨.b32, 0, false, false, 18, .v 4, .v 5, .v 0, 0, 0⟩,
      .unite ⟨.n32, 0, false, false, 21, .v 4, .v 5, .arg 0, 0, 0⟩,
      .faxLd ⟨.b32, 0, false, false, 3, .w2, .v 5, .v 0, 0, 0⟩,
      .faxLd ⟨.b32, 0, false, false, 3, .arg 0, .q 5, .v 0, 0, 0⟩,
      .faxLd ⟨.b32, 0, false, false, 16, .arg 0, .v 5, .v 0, 1, 0⟩,
      .faxAtomic ⟨.b32, 0, false, false, 3, .arg 0, .v 5, .v 6, 0, 0⟩,
      .ats ⟨.b32, 0, false, false, 3, .v 4, .w2, .v 255, 7, 0⟩,
      .ats ⟨.b32, 0, false, false, 3, .v 4, .w2, .q 2, 7, 0⟩,
      .cvt ⟨.f32, 0, false, false, 3, .v 4, .v 0, .v 0, 0, 32⟩,
      .cvt ⟨.f32, 0, false, false, 3, .w2, .v 0, .v 0, 0, 10⟩,
      .laneAdd ⟨.i32, 0, false, false, 6, .v 256, .v 5, .v 0, 0, 0⟩,
      .laneAdd ⟨.i32, 0, false, false, 6, .q 23, .v 5, .v 0, 0, 0⟩,
      .laneAdd ⟨.i32, 0, false, false, 6, .arg 4, .v 5, .v 0, 0, 0⟩,
      .plog ⟨.b32, 0, false, false, 3, .pred 8, .pred 1, .v 0, 0, 0⟩,
      .laneAdd ⟨.i32, 0, false, false, 6, .pred 1, .v 5, .v 0, 0, 0⟩,
      .trail ⟨.b32, 0, false, true, 0, .v 0, .v 0, .v 0, 8, 0⟩] : List Instr),
    i.wf = false := by decide

/-! ### Decoding: for every constructor a word put together from the fields that the specification's
tables give it (R55 to R65), with a different value in each operand. -/

theorem test_decode_scalar_1 : ∀ p ∈ ([
      (0x002440A0, .add 9 8 10), (0x002440A1, .sub 9 8 10), (0x002440A2, .and 9 8 10),
      (0x002440A3, .or 9 8 10), (0x002440A4, .xor 9 8 10), (0x002440A5, .shl 9 8 10),
      (0x002440A6, .shr 9 8 10), (0x002440A7, .sra 9 8 10), (0x002440A8, .min 9 8 10),
      (0x002440A9, .max 9 8 10), (0x002440AA, .minn 9 8 10), (0x002440AB, .maxn 9 8 10),
      (0x002440AC, .slt 9 8 10), (0x002440AD, .sltn 9 8 10), (0x002440AE, .seq 9 8 10),
      (0x002440AF, .sne 9 8 10)] : List (Nat × Instr)),
    decodeTableWord 32 p.1 = some p.2 := by decide

theorem test_decode_scalar_2 : ∀ p ∈ ([
      (0x022440A0, .mul 9 8 10), (0x022440A1, .mulh 9 8 10), (0x022440A2, .mulhn 9 8 10),
      (0x022440A3, .div 9 8 10), (0x022440A4, .divn 9 8 10), (0x022440A5, .rem 9 8 10),
      (0x022440A6, .remn 9 8 10), (0x042440A3, .lea 9 8 10 3), (0x06244000, .popc 9 8),
      (0x06244001, .clz 9 8), (0x06244002, .ctz 9 8), (0x06244003, .brev 9 8), (0x062440A4, .selnz 9 8 10),
      (0x082444C4, .extb 9 8 4 7 true), (0x0A2440C4, .insb 9 8 4 7), (0x202447FB, .addi 9 8 (-5))] : List (Nat × Instr)),
    decodeTableWord 32 p.1 = some p.2 := by decide

theorem test_decode_scalar_3 : ∀ p ∈ ([
      (0x222447FB, .andi 9 8 (-5)), (0x242447FB, .ori 9 8 (-5)), (0x262447FB, .xori 9 8 (-5)),
      (0x28244003, .shli 9 8 3), (0x2A244003, .shri 9 8 3), (0x2C244003, .srai 9 8 3),
      (0x2E2447FB, .slti 9 8 (-5)), (0x302447FB, .sltni 9 8 (-5)), (0x322447FB, .seqi 9 8 (-5)),
      (0x3427FFFB, .movhi 9 (-5)), (0x3627FFFB, .movi 9 (-5)), (0x402440A0, .fadd 9 8 10),
      (0x402440A1, .fsub 9 8 10), (0x402440A2, .fmul 9 8 10), (0x402440A3, .fmin 9 8 10),
      (0x402440A4, .fmax 9 8 10)] : List (Nat × Instr)),
    decodeTableWord 32 p.1 = some p.2 := by decide

theorem test_decode_scalar_4 : ∀ p ∈ ([
      (0x402440A5, .feq 9 8 10), (0x402440A6, .flt 9 8 10), (0x402440A7, .fle 9 8 10),
      (0x40244008, .fcvti 9 8), (0x40244009, .fcvtf 9 8), (0x4024400A, .fabs 9 8),
      (0x422440A0, .ffma 9 8 10), (0x502447FB, .sld 9 8 (-5)), (0x522447FB, .sst 9 8 (-5)),
      (0x542447FB, .xld 9 8 (-5)), (0x562447FB, .xst 9 8 (-5)), (0x58004000, .spush 8),
      (0x5A240000, .spop 9), (0x6003FFF9, .br (-7)), (0x6223FFF9, .beqz 8 (-7)), (0x6423FFF9, .bnez 8 (-7))] : List (Nat × Instr)),
    decodeTableWord 32 p.1 = some p.2 := by decide

theorem test_decode_scalar_5 : ∀ p ∈ ([
      (0x6623FFF9, .bltz 8 (-7)), (0x6823FFF9, .bgez 8 (-7)), (0x6A23FFF9, .call 8 (-7)),
      (0x6C004000, .jr 8), (0x70000000, .exit), (0x74000000, .yield), (0x7623FFF9, .loop 8 (-7)),
      (0x82000015, .lwait 21), (0x842440C8, .lget 9 8 200), (0x862440C8, .lput 9 8 200),
      (0x88240003, .pget 9 3), (0x8A004003, .pset 8 3), (0x8C004003, .waitp 8 3), (0x8E240003, .rdcnt 9 3),
      (0x90002950, .fence 5 21), (0x922440A0, .barInit 9 8 10)] : List (Nat × Instr)),
    decodeTableWord 32 p.1 = some p.2 := by decide

theorem test_decode_scalar_6 : ∀ p ∈ ([
      (0x92244001, .barArr 9 8), (0x92244002, .barWait 9 8), (0x92244003, .barArrwait 9 8),
      (0x92244004, .barInv 9 8), (0x92244005, .barTest 9 8), (0x942440A0, .waitvEqSh 9 8 10),
      (0x942440A1, .waitvNeSh 9 8 10), (0x942440A2, .waitvEqSc 9 8 10), (0x942440A3, .waitvNeSc 9 8 10),
      (0x962438A0, .scopeset 9 7 10), (0xA0004000, .cpyLin 8), (0xA0004001, .cpyTile 8),
      (0xA0004002, .cpyRing 8), (0xA22446C0, .cpyw 9 8 (-5)), (0xA42508A0, .thbind 9 33 10),
      (0xA6004000, .cqput 8)] : List (Nat × Instr)),
    decodeTableWord 32 p.1 = some p.2 := by decide

theorem test_decode_scalar_7 : ∀ p ∈ ([
      (0xA8240000, .cqget 9), (0xAA004008, .lxferRestrict 8 true), (0xAA004009, .lxferProlong 8 true),
      (0xAA00400A, .lxferInject 8 true), (0xAC2438A0, .stbind 9 7 10), (0xAE240000, .cpyprog 9),
      (0xB024000C, .macqSingle 9 12), (0xB024020C, .macqPair 9 12), (0xB024040C, .macqTry 9 12),
      (0xB2000000, .mrel), (0xB4184000, .mldRow 6 8), (0xB4184001, .mldCol 6 8), (0xB6184000, .mst 6 8),
      (0xB9A182E2, .mmaTile 13 6 11 17), (0xB9B842E2, .mmaHandle 13 33 11 17),
      (0xBA1621F7, .mblShared 11 8 (-9))] : List (Nat × Instr)),
    decodeTableWord 32 p.1 = some p.2 := by decide

theorem test_decode_scalar_8 : ∀ p ∈ ([
      (0xBA162200, .mblHandle 11 8), (0xBC240000, .mfence 9), (0xBC004001, .mwait 8), (0xBE000000, .mopf),
      (0xBE344111, .mdrainShared 13 8 17), (0xBE344511, .mdrainTile 13 8 17), (0xBE180002, .mzero 6),
      (0xBE240003, .mprog 9), (0xC02460A0, .eqOpen 9 12 10), (0xC0246001, .eqClose 9 12),
      (0xC0246002, .eqSnap 9 12), (0xC0246003, .eqUndo 9 12), (0xC0246004, .eqKeep 9 12),
      (0xC0246025, .eqStat 9 12 2), (0xC2004000, .eqrelRoot 8), (0xC2004001, .eqrelDense 8)] : List (Nat × Instr)),
    decodeTableWord 32 p.1 = some p.2 := by decide

theorem test_decode_scalar_9 : ∀ p ∈ ([
      (0xC2004002, .eqrelSum 8), (0xC2004003, .eqrelMin 8), (0xC2004004, .eqrelMax 8),
      (0xC82440A0, .ctxRes 9 8 10), (0xC82440A1, .ctxPub 9 8 10), (0xC82440A2, .ctxAcq 9 8 10),
      (0xC82440A3, .ctxAbn 9 8 10), (0xC82440A4, .ctxStat 9 8 10), (0xD0244000, .tempc 9 8),
      (0xD22440A0, .maskwait 9 8 10), (0xD42440A0, .toksend 9 8 10), (0xD82440A5, .fmc 9 8 10 5),
      (0xDA000000, .fquiet), (0xDC2440A0, .fgrpSet 9 8 10), (0xDC2440A1, .fgrpOr 9 8 10),
      (0xDC2440A2, .fgrpClear 9 8 10)] : List (Nat × Instr)),
    decodeTableWord 32 p.1 = some p.2 := by decide

theorem test_decode_scalar_10 : ∀ p ∈ ([
      (0xDE244002, .fack 9 8 2), (0xE0000007, .trap 7), (0xE2000000, .tret), (0xE4240011, .rdsr 9 17),
      (0xE6004011, .wrsr 8 17), (0xE8004000, .launch 8), (0xEA244000, .svcPagein 9 8),
      (0xEA244001, .svcNote 9 8), (0xEC0038A0, .evsel 7 10), (0xEC243801, .evrd 9 7),
      (0xEE004000, .ssave 8), (0xEE004001, .srest 8)] : List (Nat × Instr)),
    decodeTableWord 32 p.1 = some p.2 := by decide

theorem test_decode_two_words : decodeTableWord 64 (0x38600000 + 0x10000040 * 2 ^ 32) = some (.movl 24 0x10000040) ∧
    decodeTableWord 64 (0x6E040005 + 7 * 2 ^ 32) = some (.brv false 1 5 7) ∧
    decodeTableWord 64 (0x805CB183 + 0x40000022 * 2 ^ 32) = some (.lrun 34 0x40 3 23 22 24 0) := by decide

theorem test_decode_lane_1 : ∀ p ∈ ([
      (0x000000000000000000001000, .lnop ⟨.b32, 0, false, true, 0, .v 0, .v 0, .v 0, 0, 0⟩),
      (0x0000000000000005F0001000, .trail ⟨.b32, 0, false, true, 0, .v 0, .v 0, .v 0, 5, 0⟩),
      (0x00000000025040000046A060, .laneAdd ⟨.i32, 2, true, false, 6, .v 4, .arg 1, .v 0, 0, 0⟩),
      (0x00000000025040000086A060, .laneSub ⟨.i32, 2, true, false, 6, .v 4, .arg 1, .v 0, 0, 0⟩),
      (0x000000000250400000C6A060, .laneMul ⟨.i32, 2, true, false, 6, .v 4, .arg 1, .v 0, 0, 0⟩),
      (0x00000000025040000106A060, .laneMulh ⟨.i32, 2, true, false, 6, .v 4, .arg 1, .v 0, 0, 0⟩),
      (0x000000000240EC00014C0070, .mad ⟨.n16, 0, false, false, 7, .v 4, .q 3, .lane, 0, 0⟩),
      (0x0000004D0248000001900080, .laneDiv ⟨.n64, 0, false, false, 8, .v 4, .w2, .v 0, 0, 77⟩),
      (0x0000004D0248000001D00080, .laneRem ⟨.n64, 0, false, false, 8, .v 4, .w2, .v 0, 0, 77⟩),
      (0x0000004D0248000002100080, .laneMin ⟨.n64, 0, false, false, 8, .v 4, .w2, .v 0, 0, 77⟩),
      (0x0000004D0248000002500080, .laneMax ⟨.n64, 0, false, false, 8, .v 4, .w2, .v 0, 0, 77⟩),
      (0x000000000280000002840070, .abs ⟨.i16, 0, false, false, 7, .v 5, .v 0, .v 0, 0, 0⟩)] : List (Nat × Instr)),
    decodeTableWord 96 p.1 = some p.2 := by decide

theorem test_decode_lane_2 : ∀ p ∈ ([
      (0x000000000300000002C80080, .neg ⟨.i64, 0, false, false, 8, .v 6, .v 0, .v 0, 0, 0⟩),
      (0x00000000B0D880000300C090, .laneAnd ⟨.b32, 3, false, false, 9, .warp, .frag, .v 0, 0, 0⟩),
      (0x00000000B0D880000340C090, .laneOr ⟨.b32, 3, false, false, 9, .warp, .frag, .v 0, 0, 0⟩),
      (0x00000000B0D880000380C090, .laneXor ⟨.b32, 3, false, false, 9, .warp, .frag, .v 0, 0, 0⟩),
      (0x000000000600000003E400A0, .not ⟨.b64, 0, false, false, 10, .v 12, .v 0, .v 0, 0, 0⟩),
      (0x000000021448000004001000, .laneShl ⟨.b32, 0, false, true, 0, .v 40, .w2, .v 0, 0, 2⟩),
      (0x000000021448000004401000, .laneShr ⟨.b32, 0, false, true, 0, .v 40, .w2, .v 0, 0, 2⟩),
      (0x000000021448000004801000, .laneSra ⟨.b32, 0, false, true, 0, .v 40, .w2, .v 0, 0, 2⟩),
      (0x000000021448000004C01000, .rot ⟨.b32, 0, false, true, 0, .v 40, .w2, .v 0, 0, 2⟩),
      (0x000000008B000000050000B0, .lanePopc ⟨.b32, 0, false, false, 11, .q 22, .v 0, .v 0, 0, 0⟩),
      (0x000000007F800000054000B0, .laneClz ⟨.b32, 0, false, false, 11, .v 255, .v 0, .v 0, 0, 0⟩),
      (0x0000000000808060058E00B0, .bfe ⟨.n32, 0, false, false, 11, .v 1, .v 2, .v 3, 0, 0⟩)] : List (Nat × Instr)),
    decodeTableWord 96 p.1 = some p.2 := by decide

theorem test_decode_lane_3 : ∀ p ∈ ([
      (0x000000000080806005C000B0, .bfi ⟨.b32, 0, false, false, 11, .v 1, .v 2, .v 3, 0, 0⟩),
      (0x0000000000808060060200B0, .sad ⟨.i8, 0, false, false, 11, .v 1, .v 2, .v 3, 0, 0⟩),
      (0x0000000002014001101600C0, .laneFadd ⟨.f32, 0, false, false, 12, .v 4, .v 5, .v 0, 1, 0⟩),
      (0x0000000002014002105600C0, .laneFsub ⟨.f32, 0, false, false, 12, .v 4, .v 5, .v 0, 2, 0⟩),
      (0x0000000002014003109600C0, .laneFmul ⟨.f32, 0, false, false, 12, .v 4, .v 5, .v 0, 3, 0⟩),
      (0x000000000201810310D800E0, .laneFfma ⟨.f64, 0, false, false, 14, .v 4, .v 6, .v 8, 3, 0⟩),
      (0x0000000002014000111200C0, .laneFmin ⟨.f16, 0, false, false, 12, .v 4, .v 5, .v 0, 0, 0⟩),
      (0x0000000002014000115400C0, .laneFmax ⟨.bf16, 0, false, false, 12, .v 4, .v 5, .v 0, 0, 0⟩),
      (0x0000000002000000119600C0, .laneFabs ⟨.f32, 0, false, false, 12, .v 4, .v 0, .v 0, 0, 0⟩),
      (0x000000000200000011D800C0, .fneg ⟨.f64, 0, false, false, 12, .v 4, .v 0, .v 0, 0, 0⟩),
      (0x0000000002000001121600C0, .frcp ⟨.f32, 0, false, false, 12, .v 4, .v 0, .v 0, 1, 0⟩),
      (0x0000000002000000125600C0, .frsq ⟨.f32, 0, false, false, 12, .v 4, .v 0, .v 0, 0, 0⟩)] : List (Nat × Instr)),
    decodeTableWord 96 p.1 = some p.2 := by decide

theorem test_decode_lane_4 : ∀ p ∈ ([
      (0x0000000002000002129800C0, .fsqrt ⟨.f64, 0, false, false, 12, .v 4, .v 0, .v 0, 2, 0⟩),
      (0x000000000201400312D600C0, .fdiv ⟨.f32, 0, false, false, 12, .v 4, .v 5, .v 0, 3, 0⟩),
      (0x0000000002000000131600C0, .fexp2 ⟨.f32, 0, false, false, 12, .v 4, .v 0, .v 0, 0, 0⟩),
      (0x0000000002000000135600C0, .fexp ⟨.f32, 0, false, false, 12, .v 4, .v 0, .v 0, 0, 0⟩),
      (0x0000000002000000139600C0, .flog2 ⟨.f32, 0, false, false, 12, .v 4, .v 0, .v 0, 0, 0⟩),
      (0x000000000200000013D600C0, .fsin ⟨.f32, 0, false, false, 12, .v 4, .v 0, .v 0, 0, 0⟩),
      (0x0000000002000000141600C0, .fcos ⟨.f32, 0, false, false, 12, .v 4, .v 0, .v 0, 0, 0⟩),
      (0x0000000002000000145600C0, .ftanh ⟨.f32, 0, false, false, 12, .v 4, .v 0, .v 0, 0, 0⟩),
      (0x0000000002000000149600C0, .fclass ⟨.f32, 0, false, false, 12, .v 4, .v 0, .v 0, 0, 0⟩),
      (0x0000010A02000000201600C0, .cvt ⟨.f32, 0, false, false, 12, .v 4, .v 0, .v 0, 0, 266⟩),
      (0x0000000002014000205400C0, .cvtsr ⟨.bf16, 0, false, false, 12, .v 4, .v 5, .v 0, 0, 0⟩),
      (0x00000000020140C120A200C0, .qnt ⟨.q8, 0, false, false, 12, .v 4, .v 5, .v 6, 1, 0⟩)] : List (Nat × Instr)),
    decodeTableWord 96 p.1 = some p.2 := by decide

theorem test_decode_lane_5 : ∀ p ∈ ([
      (0x00000000020140C020E000C0, .dqn ⟨.q4, 0, false, false, 12, .v 4, .v 5, .v 6, 0, 0⟩),
      (0x0000000102016400211200C0, .pack ⟨.f16, 0, false, false, 12, .v 4, .v 5, .w2, 0, 1⟩),
      (0x0000000102480000215200C0, .unpk ⟨.f16, 0, false, false, 12, .v 4, .w2, .v 0, 0, 1⟩),
      (0x000000000201680021800100, .rng4 ⟨.b32, 0, false, false, 16, .v 4, .v 5, .arg 0, 0, 0⟩),
      (0x000000000201400628160030, .setp ⟨.f32, 0, false, false, 3, .v 4, .v 5, .v 0, 6, 0⟩),
      (0x00000000C0E0800228400040, .plog ⟨.b32, 0, false, false, 4, .pred 1, .pred 2, .v 0, 2, 0⟩),
      (0x00000000020170C0288000C0, .sel ⟨.b32, 0, false, false, 12, .v 4, .v 5, .pred 6, 0, 0⟩),
      (0x000000000200000028E400C0, .mov ⟨.b64, 0, false, false, 12, .v 4, .v 0, .v 0, 0, 0⟩),
      (0x00000000C380000029000050, .movp ⟨.b32, 0, false, false, 5, .pred 7, .v 0, .v 0, 0, 0⟩),
      (0x00000000020140C0300000C0, .perm ⟨.b32, 0, false, false, 12, .v 4, .v 5, .v 6, 0, 0⟩),
      (0x0000000002016863304000C0, .shfl ⟨.b32, 0, false, false, 12, .v 4, .v 5, .arg 3, 3, 0⟩),
      (0x00000000C080284130800020, .vote ⟨.b32, 0, false, false, 2, .pred 1, .v 0, .arg 2, 1, 0⟩)] : List (Nat × Instr)),
    decodeTableWord 96 p.1 = some p.2 := by decide

theorem test_decode_lane_6 : ∀ p ∈ ([
      (0x000000000200284230D600C0, .red ⟨.f32, 0, false, false, 12, .v 4, .v 0, .arg 2, 2, 0⟩),
      (0x0000000002002849310600C0, .scan ⟨.i32, 0, false, false, 12, .v 4, .v 0, .arg 2, 9, 0⟩),
      (0x0000000002002840316400C0, .matchLanes ⟨.b64, 0, false, false, 12, .v 4, .v 0, .arg 2, 0, 0⟩),
      (0xFFFFFFFC02480000380400C0, .lds ⟨.i16, 0, false, false, 12, .v 4, .w2, .v 0, 0, 4294967292⟩),
      (0x00000010024800C038641000, .sts ⟨.b64, 0, false, true, 0, .v 4, .w2, .v 6, 0, 16⟩),
      (0xFFFFFFFC02480000388400C0, .ldx ⟨.i16, 0, false, false, 12, .v 4, .w2, .v 0, 0, 4294967292⟩),
      (0x00000010024800C038E41000, .stx ⟨.b64, 0, false, true, 0, .v 4, .w2, .v 6, 0, 16⟩),
      (0xFFFFFFFC02480000390400C0, .ldk ⟨.i16, 0, false, false, 12, .v 4, .w2, .v 0, 0, 4294967292⟩),
      (0x00000010024800C039641000, .stk ⟨.b64, 0, false, true, 0, .v 4, .w2, .v 6, 0, 16⟩),
      (0x00000008024800C7398000C0, .ats ⟨.b32, 0, false, false, 12, .v 4, .w2, .v 6, 7, 8⟩),
      (0x00000008024800C039D75000, .atx ⟨.f32, 5, false, true, 0, .v 4, .w2, .v 6, 0, 8⟩),
      (0x00000000A001000040000100, .gath ⟨.b32, 0, false, false, 16, .arg 0, .v 4, .v 0, 0, 0⟩)] : List (Nat × Instr)),
    decodeTableWord 96 p.1 = some p.2 := by decide

theorem test_decode_lane_7 : ∀ p ∈ ([
      (0x00000000A081010040401000, .scat ⟨.b32, 0, false, true, 0, .arg 1, .v 4, .v 8, 0, 0⟩),
      (0x00000000A0018000442400C0, .faxLd ⟨.b64, 0, false, false, 12, .arg 0, .v 6, .v 0, 0, 0⟩),
      (0x00000000A001400144000100, .faxLdg ⟨.b32, 0, false, false, 16, .arg 0, .v 5, .v 0, 1, 0⟩),
      (0x00000000050301C244241000, .faxSt ⟨.b64, 0, false, true, 0, .v 10, .v 12, .v 14, 2, 0⟩),
      (0x00000000A00100A3440E0140, .faxUnite ⟨.n32, 0, false, false, 20, .arg 0, .v 4, .v 5, 3, 0⟩),
      (0x00000000A0010004440E0140, .faxFind ⟨.n32, 0, false, false, 20, .arg 0, .v 4, .v 0, 4, 0⟩),
      (0x00000000A00140EF44000060, .faxAtomic ⟨.b32, 0, false, false, 6, .arg 0, .v 5, .v 7, 15, 0⟩),
      (0x0000000002016800480E4140, .unite ⟨.n32, 1, false, false, 20, .v 4, .v 5, .arg 0, 0, 0⟩),
      (0x0000000302002400484E0140, .find ⟨.n32, 0, false, false, 20, .v 4, .v 0, .w2, 0, 3⟩)] : List (Nat × Instr)),
    decodeTableWord 96 p.1 = some p.2 := by decide

/-! ### Scalar instructions: single steps. Expected values are worked out by hand from R85, R95, R98 to
R102; the encodings are those of the examples. -/

theorem test_sub_wraps : gives (.sub 9 1 2) (warp [(1, 3), (2, 5)]) 9 = 0xFFFFFFFE := by decide
theorem test_sra_keeps_sign : gives (.sra 9 1 2) (warp [(1, 0x80000000), (2, 36)]) 9 = 0xF8000000 := by decide
theorem test_min_is_signed : gives (.min 9 1 2) (warp [(1, 0xFFFFFFFF), (2, 5)]) 9 = 0xFFFFFFFF := by decide
theorem test_minn_is_unsigned : gives (.minn 9 1 2) (warp [(1, 0xFFFFFFFF), (2, 5)]) 9 = 5 := by decide
theorem test_slt_sltn : gives (.slt 9 1 2) (warp [(1, 0xFFFFFFFF), (2, 5)]) 9 = 1 ∧
    gives (.sltn 9 1 2) (warp [(1, 0xFFFFFFFF), (2, 5)]) 9 = 0 := by decide
theorem test_write_to_s0 : gives (.add 0 1 1) (warp [(1, 3)]) 0 = 0 := by decide
theorem test_source_is_destination : gives (.add 1 1 1) (warp [(1, 3)]) 1 = 6 := by decide
theorem test_mulh_signs : gives (.mulh 9 1 2) (warp [(1, 0xFFFFFFFF), (2, 2)]) 9 = 0xFFFFFFFF ∧
    gives (.mulhn 9 1 2) (warp [(1, 0xFFFFFFFF), (2, 2)]) 9 = 1 := by decide
theorem test_div_corners : gives (.div 9 1 2) (warp [(1, 0x80000000), (2, 0xFFFFFFFF)]) 9 = 0x80000000 ∧
    gives (.div 9 1 2) (warp [(1, 7)]) 9 = 0xFFFFFFFF ∧
    gives (.rem 9 1 2) (warp [(1, 0xFFFFFFF9), (2, 2)]) 9 = 0xFFFFFFFF := by decide
theorem test_lea : gives (.lea 9 1 2 2) (warp [(1, 0x100), (2, 3)]) 9 = 0x10C := by decide
theorem test_clz_ctz_zero : gives (.clz 9 1) (warp []) 9 = 32 ∧ gives (.ctz 9 1) (warp [(1, 8)]) 9 = 3 := by decide
theorem test_extb_sign : gives (.extb 9 1 8 4 true) (warp [(1, 0x800)]) 9 = 0xFFFFFFF8 ∧
    gives (.extb 9 1 8 4 false) (warp [(1, 0x800)]) 9 = 8 := by decide
theorem test_insb : gives (.insb 9 1 4 8) (warp [(1, 0xAB), (9, 0xFFFFFFFF)]) 9 = 0xFFFFFABF := by decide
theorem test_selnz_keeps : gives (.selnz 9 1 2) (warp [(1, 3), (9, 4)]) 9 = 4 := by decide
theorem test_addi_andi : gives (.addi 9 1 (-1)) (warp []) 9 = 0xFFFFFFFF ∧
    gives (.andi 9 1 (-2)) (warp [(1, 7)]) 9 = 6 := by decide
theorem test_movhi : gives (.movhi 9 (-1)) (warp []) 9 = 0xFFFFC000 := by decide
theorem test_fadd_rounds_to_even : gives (.fadd 9 1 2) (warp [(1, 0x4B800000), (2, 0x3F800000)]) 9 = 0x4B800000 := by
  decide
theorem test_fmin_of_zeros : gives (.fmin 9 1 2) (warp [(2, 0x80000000)]) 9 = 0x80000000 := by decide
theorem test_fcvti_saturates : gives (.fcvti 9 1) (warp [(1, 0x4F000000)]) 9 = 0x7FFFFFFF ∧
    gives (.fcvti 9 1) (warp [(1, 0x40200000)]) 9 = 2 := by decide
theorem test_ffma_fuses : gives (.ffma 9 1 2) (warp [(1, 0x3F800001), (2, 0x3F800001), (9, 0xBF800002)]) 9 =
    0x28800000 := by decide
theorem test_call_links : gives (.call 9 4) (warp []) 9 = 4 := by decide
theorem test_loop_ends : gives (.loop 9 (-1)) (warp [(9, 1)]) 9 = 0 := by decide
theorem test_tempc_greedy : gives (.tempc 30 12) (warp []) 31 = 0x7F800000 := by decide
theorem test_rdsr_sptr : gives (.rdsr 9 3) (warp []) 9 = 4096 := by decide

/-! ### Hypotheses of the statements about scalar instructions -/

theorem world_ctx (W : Warp) (f : Frag) (h : Warp.frag? W 0 = some f) :
    State.ctx? (world W) = some (ctx W f) := by
  have : State.ctx? (world W) = (Warp.frag? W 0).map fun f => ⟨0, 0, W, f⟩ := rfl
  rw [this, h]; rfl

theorem warp_frag (regs : List (Nat × Word)) : Warp.frag? (warp regs) 0 = some frag := rfl

theorem witness_ScalarAluWritesResult : State.ctx? (world (warp [(1, 3), (2, 5)])) = some (ctx (warp [(1, 3), (2, 5)])) :=
  world_ctx _ _ rfl

theorem witness_ScalarMultiplyDivideAndImmediateResults :
    State.ctx? (world (warp [(2, 5)])) = some (ctx (warp [(2, 5)])) ∧
    (Warp.s (warp [(2, 5)]) 2 ≠ 0 ∨ (warp [(2, 5)]).tctl.getLsbD 0 = false) ∧ 31 < 32 ∧ (-1024 : Int) ≤ -1024 ∧
    (1023 : Int) < 1024 := ⟨world_ctx _ _ rfl, by decide, by decide, by decide, by decide⟩

theorem witness_ScalarBitFieldWritesResult : State.ctx? (world (warp [(2, 5)])) = some (ctx (warp [(2, 5)])) ∧
    15 < 16 ∧ Warp.s (warp [(2, 5)]) 2 ≠ 0 ∧ Warp.s (warp [(2, 5)]) 3 = 0 ∧ 31 < 32 ∧ 1 ≤ 32 :=
  ⟨world_ctx _ _ rfl, by decide⟩

theorem witness_ScalarFloatWritesResult : State.ctx? (world (warp [])) = some (ctx (warp [])) ∧
    decodeF Fmt.f32 0x7FC00000 = .nan ∧ decodeF Fmt.f32 0 = .zero false ∧ decodeF Fmt.f32 0x80000000 = .zero true ∧
    decodeF Fmt.f32 0x7F800000 = .inf false ∧ decodeF Fmt.f32 0xFF800000 = .inf true ∧
    Ext.lt (decodeF Fmt.f32 0xBF800000) (decodeF Fmt.f32 0x3F800000) = true ∧
    ∃ n m, decodeF Fmt.f32 0x3F800000 = .fin false n m :=
  ⟨world_ctx _ _ rfl, by decide, by decide, by decide, by decide, by decide, by decide, _, _, rfl⟩

theorem witness_FloatCodesRoundTrip : Fmt.e4m3 ∈ [Fmt.f64, Fmt.f32, Fmt.f16, Fmt.bf16, Fmt.e5m2, Fmt.e4m3] ∧
    0x7E < 2 ^ Fmt.e4m3.bits ∧ decodeF Fmt.e4m3 0x7E ≠ .nan ∧ decodeF Fmt.f16 0 ≠ .nan :=
  ⟨by simp, by decide, (fun h => by cases h), (fun h => by cases h)⟩

/-- A warp whose entry 1 waits at the join of a split and whose entry 0 is about to arrive there. -/
def splitWarp (m0 m1 : Word) : Warp :=
  { warp [] with frags := table [frag 0 [⟨8, 3⟩] .ready m0, frag 8 [⟨8, 3⟩] .atJoin m1] }

theorem witness_ArrivingAtAnInstruction :
    (0 < (warp []).frags.length ∧ Warp.frag? (warp []) 0 = some frag ∧ ∀ sp, frag.joins.head? = some sp → sp.join ≠ 4) ∧
    ∀ m0, m0 ∈ [1, 4] →
      let W := splitWarp m0 2
      W.frags.length = 32 ∧ Warp.frag? W 1 = some (frag 8 [⟨8, 3⟩] .atJoin 2) ∧
      Warp.frag? W 0 = some (frag 0 [⟨8, 3⟩] .ready m0) ∧
      ((List.range 32).all fun k => k = 1 || match Warp.frag? W k with
        | some h => h.wait ≠ .atJoin
        | none => true) = true := by
  refine ⟨⟨by decide, rfl, ?_⟩, ?_⟩
  · intro sp h; cases h
  · intro m0 h
    simp only [List.mem_cons, List.not_mem_nil, or_false] at h
    rcases h with rfl | rfl <;> decide

/-- The split of the two: with all lanes at the join the fragments fuse, without they wait (R110). -/
theorem test_fusion : Warp.frag? (Warp.arrive (splitWarp 1 2) 0 8) 0 = some (frag 8 [] .ready 3) ∧
    Warp.frag? (Warp.arrive (splitWarp 1 2) 0 8) 1 = none ∧
    Warp.frag? (Warp.arrive (splitWarp 4 2) 0 8) 0 = some (frag 8 [⟨8, 3⟩] .atJoin 4) := by decide

/-- A warp about to load and store: s1 is an address within every space, s2 one beyond, s3 misaligned, s4
in the constant range. -/
def memWarp (sptr : Word := 4096) : Warp :=
  { warp [(1, 256), (2, 4096), (3, 257), (4, 64)] with sptr := sptr }

theorem witness_ScalarLoadsAndStoresReachMemory :
    State.ctx? (world memWarp) = some (ctx memWarp) ∧ State.active (world memWarp) memWarp = true ∧
    memWarp.reqs = [] ∧ memWarp.mtouch = [] ∧
    (∀ sp, sp ∈ [Space.shared, .scratch] →
      State.checkLocal (world memWarp) memWarp sp false (scalarAddr memWarp 1 1) 4 =
        .ok (State.placeOf (world memWarp) memWarp sp 260) ∧
      State.checkLocal (world memWarp) memWarp sp true (scalarAddr memWarp 2 (-1)) 4 =
        .ok (State.placeOf (world memWarp) memWarp sp 4092)) ∧
    State.checkLocal (world (memWarp 4092)) (memWarp 4092) .spill false 4092 4 = .ok (.spill 4092) ∧
    4 ≤ (memWarp 4).sptr.toNat ∧ State.checkLocal (world (memWarp 4)) (memWarp 4) .spill true 0 4 = .ok (.spill 0) ∧
    State.badPlace (world memWarp) 0 (.team 0 260) 4 = false ∧ (0 < (world memWarp).teams.length ∧ 0 < (world memWarp).warps.length) ∧
    (∃ G, (world memWarp).grids[0]? = some G ∧ 0 < G.scr.length) :=
  ⟨world_ctx _ _ rfl, by decide, by decide, by decide, by decide, by decide, by decide, by decide, by decide,
    by decide, grid, rfl, by decide⟩

theorem test_sst_then_performed :
    (after (exec (.requestRetires 0 0) (after (exec (.sst 1 1 1) (world memWarp))))).teams.map
      (fun T => Memory.read T.shm 260 4) = [256] := by decide

theorem witness_ScalarAccessChecksTrap :
    Ctx.mayTrap (ctx memWarp) ∧ (world memWarp).teams[memWarp.team]? = some team ∧ (world memWarp).grids[0]? = some grid ∧
    scalarAddr memWarp 3 0 % 4 ≠ 0 ∧
    (scalarAddr memWarp 2 0 % 4 = 0 ∧ scalarAddr memWarp 2 0 < 0x01000000 ∧ team.shLen < scalarAddr memWarp 2 0 + 4 ∧
      grid.scrLen < scalarAddr memWarp 2 0 + 4) ∧
    (grid.constLo < grid.constHi ∧
      scalarAddr memWarp 4 15 = 124 ∧ 124 + 4 ≤ grid.scrLen ∧ 124 < grid.constHi ∧ grid.constLo < scalarAddr memWarp 4 0 + 4) ∧
    (memWarp 2).sptr.toNat % 4 ≠ 0 ∧ (memWarp 0).sptr.toNat < 4 ∧ memWarp.spillLen < (memWarp 4100).sptr.toNat ∧
    memWarp.spillLen < memWarp.sptr.toNat + 4 := by
  refine ⟨⟨rfl, rfl, rfl⟩, rfl, rfl, by decide⟩

/-- Whether a fetch fails in its translation. -/
def isXlate {α : Type} (e : Except FetchFault α) : Bool :=
  match e with
  | .error (.xlate _) => true
  | .error _ => false
  | .ok _ => false

theorem xlate_of {α : Type} {e : Except FetchFault α} (h : isXlate e = true) : ∃ x, e = .error (.xlate x) := by
  match e, h with
  | .error (.xlate x), _ => exact ⟨x, rfl⟩

/-- A warp in the middle of its code: s1 is 0, s2 is 1, s3 negative, s4 an instruction, s5 no start, s6 outside every
mapping. -/
def jumpWarp : Warp :=
  { warp [(2, 1), (3, 0x80000000), (4, 16), (5, 18), (6, 0x100000)] with frags := table [frag 8] }

theorem witness_BranchesGoToTaggedStarts :
    State.ctx? (world jumpWarp) = some (ctx jumpWarp (frag 8)) ∧ Ctx.mayTrap (ctx jumpWarp (frag 8)) ∧
    (∃ r, Ctx.target (ctx jumpWarp (frag 8)) (world jumpWarp) (8 + BitVec.ofInt 32 (4 * -2)) = .ok r) ∧
    (∃ r, Ctx.target (ctx jumpWarp (frag 8)) (world jumpWarp) (Warp.s jumpWarp 4) = .ok r) ∧
    Warp.s jumpWarp 1 = 0 ∧ Warp.s jumpWarp 2 = 1 ∧ (Warp.s jumpWarp 3).toInt < 0 ∧ 0 ≤ (Warp.s jumpWarp 1).toInt ∧
    Warp.s jumpWarp 2 = 1 ∧ Warp.s jumpWarp 3 ≠ 1 ∧
    State.mapping? (world jumpWarp) 1 (State.scalarVA (world jumpWarp) jumpWarp (Warp.s jumpWarp 6)) = none ∧
    State.scanned (world jumpWarp) 1 (State.scalarVA (world jumpWarp) jumpWarp (Warp.s jumpWarp 6)) = false ∧
    (let s : State := { world jumpWarp with tlb := [] }
     let c : Ctx := ctx jumpWarp (frag 8)
     State.ctx? s = some c ∧ (∃ x, Ctx.target c s (Warp.s jumpWarp 4) = .error (.xlate x)) ∧
     Warp.aborts jumpWarp = false ∧ Warp.aborts { jumpWarp with idem := true } = true) ∧
    (∃ m, State.mapping? (world jumpWarp) 1 (State.scalarVA (world jumpWarp) jumpWarp (Warp.s jumpWarp 5)) = some m ∧
      (0x10000 + 18 - m.va) % 4 ≠ 0) ∧
    State.scalarVA (world jumpWarp) jumpWarp (8 + BitVec.ofInt 32 (4 * 2)) =
      State.scalarVA (world jumpWarp) jumpWarp (Warp.s jumpWarp 4) :=
  ⟨world_ctx _ _ rfl, ⟨rfl, rfl, rfl⟩, ok_of_isOk (by decide), ok_of_isOk (by decide), by decide, by decide, by decide,
    by decide, by decide, by decide, by decide, by decide, ⟨rfl, xlate_of (by decide), rfl, rfl⟩,
    ⟨_, rfl, by decide⟩, by decide⟩

/-- A warp with predicate 1 of two lanes. -/
def predWarp : Warp := { warp [] with preds := [(1, 5), (2, 0xFFFFFFFF)] }

theorem witness_BrvSplitsOnPredicate :
    State.ctx? (world predWarp) = some (ctx predWarp) ∧ predWarp.frags.length = 32 ∧
    (let M := frag.mask
     M &&& Warp.p predWarp 3 = 0 ∧ M ≠ 0 ∧ M &&& Warp.p predWarp 2 = M ∧
       M &&& Warp.p predWarp 1 ≠ M ∧ M &&& Warp.p predWarp 1 ≠ 0) ∧
    (∃ r, Ctx.target (ctx predWarp) (world predWarp) (0 + BitVec.ofInt 32 (4 * 5)) = .ok r) ∧
    Warp.frag? predWarp 1 = none ∧ (∀ k, k < 1 → Warp.frag? predWarp k ≠ none) ∧
    (0 + BitVec.ofInt 32 (4 * 7) : Word) ≠ 0 + BitVec.ofInt 32 (4 * 5) ∧ (0 + BitVec.ofInt 32 (4 * 7) : Word) ≠ 0 + 8 :=
  ⟨world_ctx _ _ rfl, by decide, by decide, ok_of_isOk (by decide), by decide, by decide, by decide, by decide⟩

theorem witness_ExitEndsFragment :
    let W := splitWarp 1 2
    let h := frag 8 [⟨8, 3⟩] .atJoin 2
    State.ctx? (world W) = some (ctx W (frag 0 [⟨8, 3⟩] .ready 1)) ∧ W.frags.length = 32 ∧
    Warp.frag? W 1 = some h ∧ h.joins = [⟨8, 3⟩] ∧ h.pc = 8 ∧
    h.mask ||| ((W.exited ||| 1) &&& 3) = 3 ∧ Warp.frag? (warp []) 1 = none :=
  ⟨world_ctx _ _ rfl, by decide⟩

theorem witness_YieldRotates : State.ctx? (world (warp [])) = some (ctx (warp [])) := world_ctx _ _ rfl

/-- The words of a slot at a number of the lane section. -/
def slotAt (m : Memory) (k : Nat) (w0 w1 w2 : Nat) : Memory :=
  Memory.write m (0x20000 + 12 * k) 12 (w0 + w1 * 2 ^ 32 + w2 * 2 ^ 64)

/-- Lane code: a run of an add and a TRAIL of token 2 in slots 0 and 1. -/
def laneCode : Memory := slotAt (slotAt Memory.empty 0 0x00466060 0x02014000 0) 1 0xF0001000 2 0

/-- A run in the queue. -/
def entry (seq lev : Nat) : RunEntry :=
  { run := 0, code := [⟨0x00466060, 0x02014000, 0, false⟩, ⟨0xF0001000, 2, 0, false⟩], await := 0, mask := BitVec.allOnes 32,
    args := [0, 0, 0, 0], seq := seq, lev := lev }

/-- A warp with runs in its queue. -/
def queued (n : Nat) (lev : Nat := 0) : Warp :=
  { warp [] with queue := (List.range n).map fun k => entry k lev, nextRun := n, tlev := lev }

/-- Whether the fetch of a run's slots fails in a translation. -/
def isSlotXlate {α : Type} (e : Except (FetchFault × Nat) α) : Bool :=
  match e with
  | .error (.xlate _, _) => true
  | .error _ => false
  | .ok _ => false

theorem slots_xlate {α : Type} {e : Except (FetchFault × Nat) α} (h : isSlotXlate e = true) :
    ∃ x a, e = .error (.xlate x, a) := by
  match e, h with
  | .error (.xlate x, a), _ => exact ⟨x, a, rfl⟩

theorem witness_LrunEnqueues :
    State.ctx? (world (queued 3) laneCode) = some (ctx (queued 3)) ∧ Ctx.mayTrap (ctx (queued 3)) ∧
    (queued 3).queue.length + (if (queued 3).exec = none then 0 else 1) < 4 ∧
    4 ≤ (queued 4).queue.length + (if (queued 4).exec = none then 0 else 1) ∧
    (∃ r, State.checkStart (world (queued 3) laneCode) (.core 0) 1 0x20000 true = .ok r) ∧
    (∃ r, fetchSlots (world (queued 3) laneCode) (.core 0) 1 24 0x20000 = .ok r) ∧
    State.mapping? (world (queued 3)) 1 (State.runVA (world (queued 3)) (queued 3) 16) = none ∧
    State.scanned (world (queued 3)) 1 (State.runVA (world (queued 3)) (queued 3) 16) = false ∧
    (∃ x, State.checkStart { world (queued 3) with tlb := [] } (.core 0) 1 0x20000 true = .error (.xlate x)) ∧
    Warp.aborts (queued 3) = false ∧ Warp.aborts { queued 3 with idem := true } = true ∧
    (let s : State := { world (queued 3) with execMaps := [ExecMap.mk 1 0x20000 0x20000 true [5461] 8 []] }
     State.runVA s (queued 3) 5461 = 0x2FFFC ∧ (∃ r, State.checkStart s (.core 0) 1 0x2FFFC true = .ok r) ∧
     ∃ x a, fetchSlots s (.core 0) 1 24 0x2FFFC = .error (.xlate x, a)) ∧
    (∃ m, State.mapping? (world (queued 3)) 1 (State.runVA (world (queued 3)) (queued 3) 1) = some m ∧
      (0x20000 + 12 - m.va) / 12 ∉ m.starts) :=
  ⟨rfl, ⟨rfl, rfl, rfl⟩, by decide, by decide, ok_of_isOk (by decide), ok_of_isOk (by decide), by decide, by decide,
    xlate_of (by decide), rfl, rfl, ⟨by decide, ok_of_isOk (by decide), slots_xlate (by decide)⟩, _, rfl, by decide⟩

/-- A run fetched to its TRAIL (R68, R112). -/
theorem test_lrun_fetches : (after (exec (.lrun 0 1 0 0 0 0 0) (world (warp []) laneCode))).warps.map
    (fun W => W.queue.map fun e => (e.code.length, RunEntry.token e, e.await)) = [[(2, 2, 1)]] := by decide

theorem witness_LaneStateMovesCountersAndTokens :
    State.ctx? (world (warp [])) = some (ctx (warp [])) ∧ Ctx.mayTrap (ctx (warp [])) ∧ 1 ≤ 7 ∧ 7 < 8 ∧
    63 < (warp []).nv ∧ (warp []).nv ≤ 64 ∧ (warp []).queue = [] ∧ (warp []).exec = none ∧ (warp []).laneTrap = none ∧
    (warp []).async = [] ∧
    (let W : Warp := { warp [] with reqs := [{ Warp.newReq (warp []) .sh (.load .shared .i32 9) with
        run := some 0, token := 2 }], nextRun := 1 }
     ∃ r, r ∈ W.reqs ∧ r.run = some 0 ∧ 0 < W.nextRun ∧ Req.pendingResults r = true ∧ Nat.testBit 4 r.token = true) ∧
    (∃ e, e ∈ (queued 1).queue ∧ e.seq < (queued 1).nextRun ∧ Nat.testBit 4 (RunEntry.token e) = true) ∧
    (let W : Warp := { warp [] with reqs := [Warp.newReq (warp []) .fb .cross] }
     (Warp.s W 1).toNat < (W.reqs.filter fun r => r.path = pathOfCode 4).length) ∧
    Nat.testBit 3 (RunEntry.token (entry 0 0)) = false :=
  ⟨world_ctx _ _ rfl, ⟨rfl, rfl, rfl⟩, by decide, by decide, by decide, by decide, rfl, rfl, rfl, rfl, ⟨_, by simp; rfl, rfl, by decide, rfl, rfl⟩,
    ⟨entry 0 0, by decide, by decide, by decide⟩, by decide, by decide⟩

theorem test_pset_only_own_lanes :
    (after (exec (.pset 1 3) (world { warp [(1, 0xFF)] with frags := table [frag 0 [] .ready 0xF0] }))).warps.map
      (fun W => Warp.p W 3) = [0xF0] := by decide

/-- A warp with a handler at 64. -/
def handled (lev : Nat) : Warp := { queued 1 with tvec := 64, tlev := lev }

/-- A warp in its handler, whose bank returns to 16. -/
def inHandler : Warp :=
  { warp [] with tlev := 1, tvec := 64, bank1 := { Bank.empty with tret := 16, trq := [⟨true, false, false, entry 0 0⟩] } }

theorem witness_TrapsAreTakenAndReturnedFrom :
    ((world (handled 1)).warps[0]? = some (handled 1) ∧ Warp.frag? (handled 1) 0 = some frag ∧ (handled 1).tlev < 2 ∧
      (handled 1).tvec ≠ BitVec.allOnes 32 ∧ causeCode 3 5 < 2 ^ 10 ∧ causeCode 5 5 < 2 ^ 10 ∧
      causeCode 5 6 < 2 ^ 10) ∧
    ((handled 2).tlev ≥ 2 ∧ (warp []).tvec = BitVec.allOnes 32 ∧ State.gridOf? (world (handled 2)) (handled 2) = some grid ∧
      grid.queue = some 0 ∧ (State.queue (world (handled 2)) 0).state = .running) ∧
    (State.ctx? (world inHandler) = some (ctx inHandler) ∧ Ctx.mayTrap (ctx (warp [])) ∧ 63 < 64 ∧ (warp []).tlev = 0 ∧
      1 ≤ inHandler.tlev ∧ inHandler.tlev ≤ 2 ∧ inHandler.queue = [] ∧ inHandler.exec = none ∧ inHandler.reqs = [] ∧
      inHandler.bank1.slot = 0 ∧ (∃ r, Ctx.target (ctx inHandler) (world inHandler) 16 = .ok r) ∧
      (∃ e, e ∈ (queued 1 1).queue ∧ e.lev = (queued 1 1).tlev) ∧
      let r : Req := { Warp.newReq inHandler .sh (.load .shared .i32 9) with run := some 0 }
      r.lev = inHandler.tlev ∧ r.run ≠ none ∧ Req.pendingResults r = true) :=
  ⟨⟨rfl, rfl, by decide, by decide, by decide, by decide, by decide⟩,
    ⟨by decide, rfl, rfl, rfl, rfl⟩,
    ⟨world_ctx _ _ rfl, ⟨rfl, rfl, rfl⟩, by decide, rfl, by decide, by decide, rfl, rfl, rfl, rfl, ok_of_isOk (by decide),
      ⟨entry 0 1, by decide, rfl⟩, by decide, by decide, by decide⟩⟩

theorem test_trap_enters_handler : (after (exec (.trap 5) (world (handled 0)))).warps.map
    (fun W => (W.tlev, W.bank1.tcause, W.bank1.tret, W.queue.length, (Warp.frag? W 0).map (·.pc))) =
      [(1, 5, 0, 0, some 64)] := by decide
theorem test_tret_returns : (after (exec .tret (world inHandler))).warps.map
    (fun W => (W.tlev, W.queue.length, (Warp.frag? W 0).map (·.pc))) = [(0, 1, some 16)] := by decide
theorem test_second_level_kills : (after (exec (.trap 5) (world (handled 2)))).warps.map (fun W => W.killed) = [true] := by
  decide

/-! ### Lane instructions and the commit of runs -/

/-- A run at its first instruction on all lanes, with its latches so far. -/
def runAt (latch : List (List DWord) := []) : RunExec :=
  { entry := { entry 0 0 with args := [7, 8, 9, 3] }, live := BitVec.allOnes 32, idx := 0, latch := latch, wbs := [],
    reqs := [], trail := none }

/-- A warp that executes it: lane L of v4 holds L, of v5 2, of v6 0xFFFFFFFF. -/
def laneWarp (tctl : Word := 0) : Warp :=
  { warp [] with
    tctl := tctl, exec := some runAt, preds := [(1, 5)],
    vregs := ((List.range 31).map fun L => (32 * 4 + (L + 1), BitVec.ofNat 32 (L + 1))) ++
      ((List.range 32).map fun L => (32 * 5 + L, 2)) ++ (List.range 32).map fun L => (32 * 6 + L, 0xFFFFFFFF) }

/-- What lane L of the run has left in its latch after an instruction. -/
def latched (i : Instr) (L : Nat) (W : Warp := laneWarp) : Option DWord :=
  match (after (exec i (world W))).warps with
  | V :: _ => V.exec.bind fun e => e.latch.head?.bind fun l => l[L]?
  | [] => none

/-- The operands of most of the tests. -/
def lop (ty : LaneTy) (a b : Src) (fn : Nat := 0) (w2 : Word := 0) (c : Src := .v 0) (pg : Nat := 0) (nw : Bool := true)
    (d : Nat := 0) : LaneOp :=
  { ty := ty, pg := pg, pn := false, nw := nw, d := d, a := a, b := b, c := c, fn := fn, w2 := w2 }

theorem test_lane_add : latched (.laneAdd (lop .i32 (.v 4) (.v 6))) 9 = some 8 := by decide
theorem test_lane_mulh_signs : latched (.laneMulh (lop .i32 (.v 4) (.v 6))) 9 = some 0xFFFFFFFF ∧
    latched (.laneMulh (lop .n32 (.v 4) (.v 6))) 9 = some 8 := by decide
theorem test_lane_i8_extends : latched (.laneAdd (lop .i8 (.v 4) .w2 0 127)) 1 = some 0xFFFFFF80 := by decide
theorem test_lane_guard : latched (.laneAdd (lop .i32 (.v 4) (.v 5) 0 0 (.v 0) 1)) 1 = some 0 ∧
    latched (.laneAdd (lop .i32 (.v 4) (.v 5) 0 0 (.v 0) 1)) 2 = some 4 := by decide
theorem test_lane_div_by_zero : latched (.laneDiv (lop .i32 (.v 5) (.v 4))) 0 = some 0xFFFFFFFF ∧
    latched (.laneRem (lop .i32 (.v 5) (.v 4))) 0 = some 2 := by decide
theorem test_lane_rot : latched (.rot (lop .b32 (.v 4) .w2 0 31)) 3 = some 0x80000001 := by decide
theorem test_lane_bfe : latched (.bfe (lop .i32 (.v 6) .w2 0 28 (.v 5))) 0 = some 0xFFFFFFFF := by decide
theorem test_lane_special_sources : latched (.laneAdd (lop .n32 .lane (.arg 3))) 30 = some 33 := by decide
theorem test_lane_fdiv_rounds : latched (.fdiv (lop .f32 .w2 (.v 7) 0 0x3F800000)) 0 = some 0x7F800000 := by decide
theorem test_lane_frcp_modes : latched (.frcp (lop .f32 .w2 (.v 0) 2 0x40400000)) 0 = some 0x3EAAAAAB ∧
    latched (.frcp (lop .f32 .w2 (.v 0) 3 0x40400000)) 0 = some 0x3EAAAAAA := by decide
theorem test_lane_fmax_zero : latched (.laneFmax (lop .f32 .w2 (.v 7) 0 0x80000000)) 0 = some 0 := by decide
theorem test_lane_setp_nan : latched (.setp (lop .f32 .w2 .w2 1 0x7FC00000)) 0 = some 1 ∧
    latched (.setp (lop .f32 .w2 .w2 6 0x7FC00000)) 0 = some 1 := by decide
theorem test_lane_sel : latched (.sel (lop .b32 (.v 4) (.v 5) 0 0 (.pred 1))) 2 = some 2 ∧
    latched (.sel (lop .b32 (.v 4) (.v 5) 0 0 (.pred 1))) 3 = some 2 := by decide
theorem test_lane_cvt_to_i8 : latched (.cvt (lop .i8 (.v 6) (.v 0) 0 7)) 0 = some 0xFFFFFFFF ∧
    latched (.cvt (lop .i8 (.v 6) (.v 0) 0 0x107)) 0 = some 127 := by decide
theorem test_lane_cvt_e4m3 : latched (.cvt (lop .f32 .lane (.v 0) 0 13)) 8 = some 0x3C800000 := by decide
theorem test_lane_unpk : latched (.unpk (lop .n8 .w2 (.v 4) 0 0x44332211)) 2 = some 0x33 := by decide
theorem test_lane_pack : latched (.pack (lop .n8 (.v 4) .w2 0 1 (.v 6))) 5 = some 0xFFFF05FF := by decide

theorem witness_lane : ∃ c, State.laneCtx? (world laneWarp) = some c := ⟨_, rfl⟩

theorem witness_LaneSourcesRead : (List.replicate 2 [(5 : DWord)])[1]? = some [5] ∧ ([5] : List DWord)[0]? = some 5 ∧
    (runAt.entry.args)[3]? = some 3 := by decide

theorem witness_LaneIntegerAndDivisionResults :
    (∃ c, State.laneCtx? (world laneWarp) = some c ∧ c.warp.tctl.getLsbD 0 = false ∧
      LaneCtx.part c (lop .i32 (.v 5) (.v 4)) 31 = true) ∧
    ∃ c, State.laneCtx? (world (laneWarp 1)) = some c ∧ c.warp.tctl.getLsbD 0 = true ∧
      LaneCtx.part c (lop .i32 (.v 5) (.v 4)) 0 = true ∧
      BitVec.ofNat 32 (LaneCtx.b c (lop .i32 (.v 5) (.v 4)) 0) = 0#32 :=
  ⟨⟨_, rfl, by decide, by decide⟩, _, rfl, by decide, by decide, by decide⟩

theorem test_lane_div_traps : (after (exec (.laneDiv (lop .i32 (.v 5) (.v 4))) (world { laneWarp 1 with tvec := 64 }))).warps.map
    (fun W => (W.bank1.tcause, W.bank1.tmask, W.bank1.trq.length)) = [(0x40040, 1, 1)] := by decide

theorem witness_LaneFloatResults : (∃ c, State.laneCtx? (world laneWarp) = some c) ∧
    (lop .f32 (.v 4) (.v 5)).ty ∈ [LaneTy.f16, .bf16, .f32, .f64] := ⟨⟨_, rfl⟩, by decide⟩

theorem witness_LaneSpecialFunctions : (∃ c, State.laneCtx? (world laneWarp) = some c) ∧
    (lop .bf16 (.v 4) (.v 5)).ty ∈ [LaneTy.f16, .bf16, .f32] ∧
    Ext.lt (decodeF Fmt.f32 0xBF800000) (.zero false) = true ∧
    Ext.eq (decodeF Fmt.f32 0xC3150000) (Ext.ofInt (-149)) = true ∧
    Ext.eq (decodeF Fmt.bf16 0x42FE) (Ext.ofInt 127) = true ∧
    decodeF Fmt.f32 0x43000000 ≠ .nan ∧ Ext.lt (decodeF Fmt.f32 0x43000000) (Ext.ofInt 128) = false ∧
    Ext.lt (decodeF Fmt.f32 0xC3160001) (Ext.ofInt (-150)) = true ∧
    Ext.eq (decodeF Fmt.f32 1) (Ext.scaled false 1 (-149)) = true ∧
    Ext.eq (decodeF Fmt.f32 0x7F000000) (Ext.scaled false 1 127) = true ∧
    SpecialFn.tanh ∈ [SpecialFn.sin, .cos, .tanh] :=
  ⟨⟨_, rfl⟩, by decide, by decide, by decide, by decide, (fun h => by cases h), by decide, by decide, by decide, by decide,
    by decide⟩

theorem witness_LaneConversions : (∃ c, State.laneCtx? (world laneWarp) = some c) ∧ tyOfCode 13 = some .e4m3 ∧
    tyOfCode 7 = some .n32 ∧ LaneTy.q4 ∈ [LaneTy.q8, .q4] ∧
    Ext.div (decodeF Fmt.f32 0x3F800000) (decodeF Fmt.f16 0) = .inf false ∧
    Ext.div (decodeF Fmt.f32 0) (decodeF Fmt.f16 0) = .nan := ⟨⟨_, rfl⟩, by decide, by decide, by decide, by decide, by decide⟩

theorem witness_LanePredicatesMovesPacksAndRandom : (∃ c, State.laneCtx? (world laneWarp) = some c) ∧
    (lop .f32 (.v 4) (.v 5) 6).fn = 6 ∧ (lop .f32 (.v 4) (.v 5) 6).ty ∈ [LaneTy.f16, .bf16, .f32, .f64] ∧
    (lop .b64 (.v 4) (.v 6)).ty ∈ [LaneTy.i8, .i16, .i32, .i64, .n8, .n16, .n32, .n64, .b32, .b64] ∧
    tyBits .e2m1 ∈ [4, 8, 16] ∧ floatTy .e2m1 = true ∧ floatTy .i8 = false := ⟨⟨_, rfl⟩, by decide⟩

/-- The four words of R141's generator on zeros are those of Philox-4x32-10. -/
theorem test_philox : philox 10 (0, 0, 0, 0) 0 0 = (0x6627E8D5, 0xE169C58D, 0xBC57AC4C, 0x9B00DBD8) := by decide

theorem witness_CrossLaneExchanges : ∃ c, State.laneCtx? (world laneWarp) = some c ∧
    (let o := lop .i32 (.v 4) (.v 5) 9 0 (.arg 3) 0 false 8
     ((List.range 32).filter fun L => LaneCtx.part c o L).filter
       (fun L => (LaneCtx.src c o .b32 o.c L).testBit L) = [0, 1]) ∧ 9 % 8 < 6 ∧ 5 < 6 := ⟨_, rfl, by decide, by decide, by decide⟩

/-- A warp whose lane L addresses byte 4 × L, or one beyond. -/
def addrWarp (top : Word) : Warp :=
  { laneWarp with vregs := (List.range 32).map fun L =>
      (32 * 4 + L, if L = 31 then top else BitVec.ofNat 32 (4 * L + 4)) }

theorem witness_LaneMemoryIssues : ∀ a, a ∈ [(4092, true), (4096, false)] →
    ∃ c, State.laneCtx? (world (addrWarp a.1)) = some c ∧
      (List.range 32).all (fun L => match State.checkLocal (world (addrWarp a.1)) c.warp .shared false
          (LaneCtx.src c (lop .b32 (.v 4) .w2) .b32 (.v 4) L % 2 ^ 32) 4 with
        | .ok _ => true
        | .fault _ => false) = a.2 := by
  intro a h
  simp only [List.mem_cons, List.not_mem_nil, or_false] at h
  rcases h with rfl | rfl
  · exact ⟨_, rfl, by decide⟩
  · exact ⟨_, rfl, by decide⟩

/-- CAS is sub-operation 7 and its datum a register. -/
theorem test_cas_code : atomOfFn 7 = .cas ∧ (lop .b64 (.v 4) (.v 8) 7 0 (.v 62)).c = .v 62 := by decide

/-- A tile handle at 0x100000. -/
def bind : TileBind :=
  { base := 0x100000, esz := 1, outer := 1, inner := 1, swz := 0, ex := 64, ey := 1, ez := 1, tx := 64, ty := 1,
    tz := 1, bx := 64, byy := 1, sy := 64, sz := 64 }

/-- The world with handle 3 bound, and main memory's translation with A and D gathered. -/
def boundWorld (W : Warp) : State :=
  let T : Team := { team with handles := [(3, bind)] }
  { world W with
    teams := [T],
    tlb := (world W).tlb.map fun e => { e with d := true } }

theorem witness_GatherAndScatter : ∃ c, State.laneCtx? (boundWorld laneWarp) = some c ∧
    (let o := lop .b32 .w2 (.v 7) 0 3 (.v 8) 0 false 16
     ((List.range 32).filter fun L => LaneCtx.part c o L) ≠ [] ∧ LaneCtx.src c o .n32 o.a 0 = 3 ∧
     State.handle? (boundWorld laneWarp) c.warp 3 = some bind ∧ State.handle? (boundWorld laneWarp) c.warp 4 = none ∧
     LaneCtx.src c o .n32 o.b 31 % 32 = 0 ∧ LaneCtx.src c o .n32 (.v 5) 31 % 32 ≠ 0 ∧
     (∃ e, State.tlbHit { boundWorld laneWarp with tlb := (boundWorld laneWarp).tlb.map fun e => { e with r := false, w := false } }
       (.core 0) 1 (bind.base + 0) = some e ∧ (e.r && !(e.x && e.w)) = false ∧ (e.w && !e.x) = false) ∧
     (State.tlbHit { boundWorld laneWarp with tlb := [] } (.core 0) 1 (bind.base + 0) = none ∧
       AMap.get? (boundWorld laneWarp).roots 1 = none) ∧
     c.warp.idem = false ∧ c.ex.entry.lev = 0 ∧
     ∃ e, State.tlbHit (boundWorld laneWarp) (.core 0) 1 (bind.base + 0) = some e ∧ e.a = true ∧ e.r = true ∧
       e.x = false ∧ e.w = true ∧ e.d = true) :=
  ⟨_, rfl, by decide, by decide, rfl, by decide, by decide, by decide, ⟨_, rfl, by decide⟩, by decide, rfl, rfl, _, rfl,
    by decide⟩

/-- A run at its TRAIL that has written v9 of lane 31 and p1 of lane 0. -/
def atTrail : Warp :=
  let e : RunExec := { runAt with wbs := [.vreg 31 9 3, .vreg 31 9 4, .preg 0 1 false], trail := some 2 }
  { laneWarp with exec := some e }

theorem witness_RunStartsAndCommits :
    ((world (queued 1)).warps[0]? = some (queued 1) ∧ State.active (world (queued 1)) (queued 1) = true ∧
      (queued 1).queue = [entry 0 0] ∧ (queued 1).exec = none ∧ (queued 1).laneTrap = none ∧
      (queued 1).async = [] ∧ (queued 1).reqs = []) ∧
    (let p : Pending := ⟨0, none, 0x104, 1, 0, false, 0, none⟩
     let W : Warp := { queued 1 with async := [p] }
     (world W).warps[0]? = some W ∧ p ∈ W.async ∧ W.tlev = 0 ∧ (∀ i, i < 32 → Warp.frag? W i ≠ none → Warp.frag? W i = some frag) ∧
     (∀ q, q ∈ ({ W with tlev := 1 } : Warp).async → q.lev = 0 ∧ 1 ≤ ({ W with tlev := 1 } : Warp).tlev)) ∧
    ∃ e, atTrail.exec = some e ∧ e.trail ≠ none ∧ Warp.roomFor atTrail e.reqs = true ∧
      e.wbs = [.vreg 31 9 3] ++ WriteBack.vreg 31 9 4 :: [.preg 0 1 false] ∧
      e.wbs = [.vreg 31 9 3, .vreg 31 9 4] ++ WriteBack.preg 0 1 false :: [] ∧ e.reqs = [] :=
  ⟨⟨rfl, by decide, rfl, rfl, rfl, rfl, rfl⟩, ⟨rfl, by simp, rfl, by decide, by decide⟩, _, rfl, by decide, by decide, rfl, rfl,
    rfl⟩

theorem test_commit_later_write_stands : (after (exec (.runCommit 0) (world atTrail))).warps.map
    (fun W => (Warp.v W 9 31, Warp.p W 1, W.exec.isNone)) = [(4, 4, true)] := by decide

/-- A warp with one request of a run: lane 31 adds 5 at byte 4092. -/
def atomicWarp (op : ReqOp) : Warp :=
  let r := Warp.newReq (warp []) .sh op
  { warp [] with reqs := [{ r with todo := [⟨31, 4092, 5, 0, []⟩], run := some 0 }], nextReq := 1 }

/-- Shared memory whose last word is 0xFFFFFFFE. -/
def topWord : Memory := Memory.write Memory.empty 4092 4 0xFFFFFFFE

theorem witness_LaneRequestsArePerformedAndLand :
    (∀ k, k ∈ [ReqOp.load .shared .n32 9, .store .shared 4, .atomic .shared .add .n32 (some 9)] →
      let W := atomicWarp k
      (∃ r : Req, W.reqs = [r] ∧ r.op = k ∧ r.done = false ∧ r.todo = [⟨31, 4092, 5, 0, []⟩]) ∧ W.mtouch = [] ∧
      State.placeOf (world W Memory.empty topWord) W .shared 4092 = .team 0 4092 ∧
      State.badPlace (world W Memory.empty topWord) 0 (.team 0 4092) 4 = false) ∧
    (([Land.vreg 31 9 7] : List Land).filter fun l => Land.lane l = 31) = [.vreg 31 9 7] ∧
    (([Land.vreg 31 8 7, .vreg 31 9 1] : List Land).filter fun l => Land.lane l = 31) = [.vreg 31 8 7, .vreg 31 9 1] ∧
    LaneTy.n32 ∈ [LaneTy.i32, .n32, .i64, .n64] ∧ LaneTy.b64 ∈ [LaneTy.b32, .b64] ∧ 0xFFFFFFFE < 2 ^ 32 ∧
    0xFFFFFFFFFFFFFFFF < 2 ^ 64 := by
  refine ⟨?_, by decide, by decide, by decide, by decide, by decide, by decide⟩
  intro k _
  exact ⟨⟨_, rfl, rfl, rfl, rfl⟩, rfl, rfl, rfl⟩

/-- CAS on b64 stores the second datum where the first matches, and leaves the old value else (R157). -/
theorem test_atomic_cas64 : atomNew .cas .b64 0xFFFFFFFF00000001 0xFFFFFFFF00000001 7 = 7 ∧
    atomNew .cas .b64 0xFFFFFFFF00000001 1 7 = 0xFFFFFFFF00000001 := by decide

theorem test_atomic_add_wraps : (after (exec (.requestRetires 0 0)
    (world (atomicWarp (.atomic .shared .add .n32 (some 9))) Memory.empty topWord))).teams.map
      (fun T => Memory.read T.shm 4092 4) = [3] := by decide

/-- A warp whose fragment waits. -/
def waiting (k : Wait) (W : Warp := warp []) : Warp := { W with frags := table [frag 0 [] k] }

theorem witness_WaitsEnd :
    (∀ k, k ∈ [Wait.counter .sh 0, .runs 255 0, .lput 1 2 3 4, .pset 1 2 3, .runQueue, .room .sp, .command,
        .ordered .shared 0 4 0,        .stagePut, .stageGet, .matrixRoom, .grids, .woken 4 7, .ready, .atJoin] →
      (world (waiting k)).warps[0]? = some (waiting k) ∧ Warp.frag? (waiting k) 0 = some (frag 0 [] k) ∧
      State.active (world (waiting k)) (waiting k) = true ∧ (waiting k).tlev = 0 ∧ (waiting k).queue = [] ∧
      (waiting k).exec = none ∧ (waiting k).reqs = [] ∧ (waiting k).async = [] ∧ (waiting k).laneTrap = none ∧
      (world (waiting k)).teams[(waiting k).team]? = some team ∧ team.stage = []) ∧
    (List.replicate 16 (0 : Word)).length = 16 ∧
    (∃ e, e ∈ (waiting (.lput 1 2 3 4) (queued 1)).queue ∧ e.seq < 1) ∧
    0 < ((atomicWarp .cross).reqs.filter fun r => r.path = .sh).length ∧
    (let W := waiting (.ordered .shared 0 4 0)
     State.localPending (world W) W .shared 0 4 0 = false ∧ 0 < 4095 ∧ (world W).liveGrids < 4096 ∧
       State.commands (world W) (State.coreOf (world W) W) < 32) ∧
    (let W := waiting .stageGet
     let T : Team := { team with stage := [5] }
     let s : State := { world W with teams := [T] }
     s.teams[W.team]? = some T ∧ T.stage ≠ [] ∧ State.firstGet s W.team = some (0, 0)) ∧
    (let W : Warp := { waiting (.woken 4 7) with owed := [(4, [.frag 0])] }
     Ctx.owns (ctx W (frag 0 [] (.woken 4 7))) 4) := by
  refine ⟨?_, by decide, ⟨entry 0 0, by decide, by decide⟩, by decide, by decide,
    ⟨rfl, by simp, by decide⟩, by decide, fun _ => by decide⟩
  intro k _
  exact ⟨rfl, rfl, rfl, rfl, rfl, rfl, rfl, rfl, rfl, rfl, rfl⟩

/-- A pending trap of lane 31. -/
def pendingTrap : Pending :=
  { id := 0, token := none, cause := 0x104, mask := 0x80000000, tval := 0, write := false, lev := 0, run := none }

/-- A warp with it, and one with nothing left. -/
def trapDue : Warp := { warp [] with async := [pendingTrap], tvec := 64 }
def spent : Warp := { warp [] with frags := List.replicate 32 none, exited := BitVec.allOnes 32 }

theorem witness_AsyncTrapsAndWarpEnd :
    ((world trapDue).warps[0]? = some trapDue ∧ State.active (world trapDue) trapDue = true ∧ trapDue.exec = none ∧
      trapDue.laneTrap = none ∧ trapDue.tlev = 0 ∧ trapDue.async = [pendingTrap] ∧
      pendingTrap.mask.getLsbD 31 = true ∧ (∀ l, l < 31 → pendingTrap.mask.getLsbD l = false) ∧
      Warp.frag? trapDue 0 = some frag ∧ frag.mask.getLsbD 31 = true ∧ Wait.completesFirst frag.wait = false) ∧
    ((world spent).warps[0]? = some spent ∧ State.active (world spent) spent = true ∧
      (∀ i, i < 32 → Warp.frag? spent i = none) ∧ spent.queue = [] ∧ spent.exec = none ∧ spent.reqs = [] ∧
      spent.async = [] ∧ spent.laneTrap = none ∧ spent.mfail = none ∧ (world spent).arrays = [] ∧
      ({ pendingTrap with lev := 0 } : Pending).lev = 0 ∧ ({ spent with tlev := 1 } : Warp).tlev = 1) ∧
    (let s : State := { world spent with warps := [spent, warp []] }
     let s := State.onArray s 0 fun a => { a with hold := some ⟨1, 0, [], none, none, true, false⟩ }
     ∃ h, (State.array s (State.coreOf s spent)).hold = some h ∧ h.w ≠ 0 ∧ ∃ X, s.warps[h.w]? = some X ∧ X.ended = false) ∧
    (∃ f, Warp.frag? (warp []) 0 = some f ∧ f.wait ≠ .stagePut ∧ f.wait ≠ .stageGet) :=
  ⟨⟨rfl, by decide, rfl, rfl, rfl, rfl, by decide, by decide, rfl, by decide, rfl⟩,
    ⟨rfl, by decide, by decide, rfl, rfl, rfl, rfl, rfl, rfl, rfl, rfl, rfl⟩,
    ⟨_, rfl, by decide, _, rfl, rfl⟩, _, rfl, by decide, by decide⟩

theorem test_warp_end : (after (exec (.warpEnd 0) (world spent))).teams.map (fun T => T.status) = [.ended] := by decide

/-! ### Fabric lanes and equivalence forests -/

/-- The lane warp of which lanes 0 and 1 name peers 0x10005 and 5 at offsets 252 and 256 through v10 and v11. -/
def faxWarp (peer off : Word) (idem : Bool := false) : Warp :=
  let e : RunExec := { runAt with live := 3 }
  { laneWarp with
    idem := idem, exec := some e
    vregs := [(320, peer), (321, 5), (352, 252), (353, off)] }

/-- Its FAX.AND of B32. -/
def faxOp : LaneOp := lop .b32 (.v 10) (.v 11) 11

theorem witness_FabricAndForestLanesIssue :
    (∀ a, a ∈ [((0x10005 : Word), (256 : Word), true, true, [5, 0x10005]), (5, 256, true, true, [5]),
        (0x10205, 256, false, true, []), (0x10005, 254, true, false, [])] →
      ∃ c, State.laneCtx? (world (faxWarp a.1 a.2.1)) = some c ∧ c.warp.idem = false ∧
        ((List.range 32).filter fun L => LaneCtx.part c faxOp L) = [0, 1] ∧
        (bits (LaneCtx.src c faxOp .b32 faxOp.a 0) 15 9 = 0 ∧ bits (LaneCtx.src c faxOp .b32 faxOp.a 0) 31 24 = 0 ↔
          a.2.2.1 = true) ∧
        (LaneCtx.src c faxOp .b32 faxOp.b 1 % 4 = 0 ↔ a.2.2.2.1 = true) ∧
        (a.2.2.2.2 ≠ [] → a.2.2.2.2.Pairwise (· < ·) ∧
          [LaneCtx.src c faxOp .b32 faxOp.a 1, LaneCtx.src c faxOp .b32 faxOp.a 0].eraseDups = a.2.2.2.2)) ∧
    ∃ c, State.laneCtx? (world (faxWarp 5 256 true)) = some c ∧ c.warp.idem = true := by
  refine ⟨?_, ⟨_, rfl, rfl⟩⟩
  intro a h
  simp only [List.mem_cons, List.not_mem_nil, or_false] at h
  rcases h with rfl | rfl | rfl | rfl <;> exact ⟨_, rfl, rfl, by decide, by decide, by decide, by decide⟩

/-- The requests that a run has collected. -/
def collected (o : Out State) : List Req :=
  match (after o).warps with
  | V :: _ => (V.exec.map fun e => e.reqs).getD []
  | [] => []

/-- One request per distinct peer word, in ascending order (R294). -/
theorem test_fax_peers : (collected (exec (.faxAtomic faxOp) (world (faxWarp 0x10005 256)))).map (fun r => r.op) =
    [.fax 5 0 (.atomic .and .b32 none) [[1]] [], .fax 5 1 (.atomic .and .b32 none) [[0]] []] := by decide
/-- No packet spans two 256-byte blocks (R289). -/
theorem test_fax_blocks : (collected (exec (.faxAtomic faxOp) (world (faxWarp 5 256)))).map (fun r => r.op) =
    [.fax 5 0 (.atomic .and .b32 none) [[0], [1]] []] := by decide

/-- A forest of eight elements in which 1 and 2 hang below 0, and 5 below 4. -/
def forest (snap : Bool := false) (bySize : Bool := true) : Forest :=
  { serial := 1, ctx := 1, base := 0x110000, log := 0x118000, n := 8, cap := 2, bySize := bySize, init := true,
    snap := snap, classes := 5, lsize := 3, lroot := 0, unions := 3, fill := 0, fails := 0, lastst := 0, lastel := 0,
    ls0 := 3, lr0 := 0, segs := [(0x110000, 0x110000, 0x10000)],
    entries := [(0, (0, 3)), (1, (0, 1)), (2, (1, 1)), (4, (4, 2)), (5, (4, 1))], logs := [] }

/-- A warp whose only request is one of lane 31 on forest 7. -/
def forestWarp (op : ReqOp) (x y : DWord) : Warp :=
  let r := Warp.newReq (warp []) .eq op
  { warp [] with reqs := [{ r with todo := [⟨31, x, y, 0, []⟩], run := some 0 }], nextReq := 1 }

/-- The world with forest 7 open. -/
def forestWorld (W : Warp) (F : Forest := forest) : State := { world W with forests := [(7, F)] }

theorem witness_ForestOperationsAnswer :
    (∀ a : ReqOp × DWord × Bool, a ∈ [(.find 7 30, 0, false), (.unite 7 30, 5, false), (.unite 7 30, 5, true), (.unite 7 30, 1, false)] →
      let W := forestWarp a.1 2 a.2.1
      let s := forestWorld W (forest a.2.2)
      (∃ r : Req, W.reqs = [r] ∧ r.done = false ∧ r.todo = ⟨31, 2, a.2.1, 0, []⟩ :: []) ∧
      AMap.get? s.forests 7 = some (forest a.2.2) ∧ (forest a.2.2).ctx = State.asidOf s W ∧
      State.opening s 0 0 7 = false ∧ State.forestHeld s 7 = false ∧ State.forestTurn s 7 (fun _ => true) = true ∧
      (∀ e, e < 8 → State.entryBad s (forest a.2.2) e = false ∧ (State.entry s (forest a.2.2) e).1 < 8) ∧
      State.reaches s (forest a.2.2) 8 2 0 ∧ State.reaches s (forest a.2.2) 8 5 4 ∧ State.reaches s (forest a.2.2) 0 0 0 ∧
      State.reaches s (forest a.2.2) 8 7 7) ∧
    (let h : Home := { id := 3, src := .peer 9 0 0, job := 0, off := 0, passed := 4095, win := 2, op := .find 0,
                       todo := [(0, 5, 0, 0)], answers := [] }
     let s : State := { forestWorld (forestWarp (.find 7 30) 2 0) with
       homes := [h], windows := [(2, { Window.zero with forest := 7 })] }
     State.homeForest s h = some 7 ∧ 4095 ≤ h.passed ∧ State.homeFree s h (0, 5, 0, 0) = true) := by
  refine ⟨?_, by decide⟩
  intro a h
  simp only [List.mem_cons, List.not_mem_nil, or_false] at h
  rcases h with rfl | rfl | rfl | rfl <;>
    exact ⟨⟨_, rfl, rfl, rfl⟩, rfl, rfl, rfl, rfl, rfl, by decide, by unfold State.reaches; decide, by unfold State.reaches; decide,
      by unfold State.reaches; decide, by unfold State.reaches; decide⟩

/-- What a forest of the next state holds of element e. -/
def entryAfter (o : Out State) (e : Nat) : Option (Nat × Nat) :=
  (AMap.get? (after o).forests 7).map fun F => State.entry (after o) F e

/-- The larger class's root wins, and of equal ones the smaller (R242). -/
theorem test_unite : entryAfter (exec (.uniteServe 0 0) (forestWorld (forestWarp (.unite 7 30) 5 2))) 4 = some (0, 2) ∧
    entryAfter (exec (.uniteServe 0 0) (forestWorld (forestWarp (.unite 7 30) 5 2))) 0 = some (0, 5) ∧
    entryAfter (exec (.uniteServe 0 0) (forestWorld (forestWarp (.unite 7 30) 7 6))) 7 = some (6, 1) := by decide
/-- FIND halves paths outside snapshots, and not inside (R241). -/
theorem test_find : entryAfter (exec (.findServe 0 0) (forestWorld (forestWarp (.find 7 30) 2 0))) 2 = some (0, 1) ∧
    entryAfter (exec (.findServe 0 0) (forestWorld (forestWarp (.find 7 30) 2 0) (forest true))) 2 = some (1, 1) := by decide

/-- A descriptor of EQ.OPEN: eight elements at 0x110000, a log of two at 0x118000, with BYSIZE and INIT. -/
def openDesc : Nat := 0x118000 * 2 ^ 192 + 0x110000 * 2 ^ 128 + 8 * 2 ^ 96 + 2 * 2 ^ 64 + 3

/-- A warp whose request is a scalar one on forest 7. -/
def eqWarp (op : EqOp) : Warp :=
  let r := Warp.newReq (warp []) .eq (.eq 7 20 op)
  { waiting (.mem 0) with reqs := [r], nextReq := 1, owed := (List.range 4).map fun k => (20 + k, [.req 0]) }

/-- Page tables at 0x300000 whose one leaf maps the first GiB to itself, readable and writable. -/
def tables : Memory :=
  Memory.write (Memory.write (Memory.write Memory.empty 0x300000 8 0x301001) 0x301000 8 0x302001) 0x302000 8 0x17

theorem witness_ForestCommandsIssueAndAnswer :
    (∃ c, State.ctx? (world (warp [(3, 96)])) = some c ∧ State.gridOf? (world (warp [(3, 96)])) c.warp = some (grid) ∧
      (Warp.s c.warp 3).toNat % 32 = 0 ∧ (Warp.s c.warp 3).toNat + 32 ≤ 4096 ∧
      State.badPlace (world (warp [(3, 96)])) 0 (State.placeOf (world (warp [(3, 96)])) c.warp .scratch 96) 32 = false ∧
      c.warp.mtouch = [] ∧ (let s := world (warp [(3, 96)]) Memory.empty Memory.empty { Memory.empty with bad := [12] }
        State.badPlace s 0 (State.placeOf s c.warp .scratch 96) 32 = true)) ∧
    (∀ a : Word, a ∈ [4064, 4080, 4096] →
      ∃ c, State.ctx? (world { warp [(3, a)] with tvec := 64 }) = some c ∧ Ctx.mayTrap c ∧
        ((Warp.s c.warp 3).toNat % 32 = 0 ↔ a ≠ 4080) ∧ (4096 < (Warp.s c.warp 3).toNat + 32 ↔ a ≠ 4064)) ∧
    (∀ op, op ∈ [EqOp.close, .snap, .undo, .keep, .stat 1, .open_ (some openDesc) false none, .open_ none false none,
        .open_ (some 0) false none, .open_ (some openDesc) true (some false), .open_ (some openDesc) true (some true)] →
      let W := eqWarp op
      ∀ s, s ∈ [forestWorld W, forestWorld W (forest true), { world W with forests := [] }] →
        (∃ r : Req, s.warps[0]? = some W ∧ W.reqs = [r] ∧ r.done = false ∧ r.op = .eq 7 20 op) ∧
        State.opening s 0 0 7 = false ∧ State.forestHeld s 7 = false ∧
        State.forestTurn s 7 (fun _ => true) = true ∧
        (∀ q, q ∈ ReqOp.sdests (.eq 7 20 op) → q ≠ 0 → Writer.req 0 ∈ Warp.writers W q) ∧
        (∀ e, op ≠ .open_ e true none)) ∧
    ((bits openDesc 191 128 % 8 = 0 ∧ bits openDesc 191 128 < 2 ^ 57 ∧ bits openDesc 127 96 ≠ 0 ∧
        bits openDesc 95 64 ≤ 2 ^ 28 ∧ bits openDesc 255 192 % 8 = 0 ∧ bits openDesc 255 192 < 2 ^ 57 ∧
        bits 0 127 96 = 0) ∧ bits openDesc 1 1 = 1 ∧
      let s : State := { world (eqWarp (.open_ (some openDesc) true (some true))) tables with roots := [(1, 0x300000)] }
      State.pin s 1 0x110000 64 = some [(0x110000, 0x110000, 64)] ∧ State.pin s 1 0x118000 16 = some [(0x118000, 0x118000, 16)]) ∧
    (let F : Forest := { forest true with fill := 1, logs := [(0, (0, 1))] }
     let s := forestWorld (eqWarp .undo) F
     State.forestBad s F F.log = false ∧ State.entryBad s F (State.logEntry s F 0).1 = false ∧
     State.entryBad s F (State.logEntry s F 0).2 = false ∧ (State.logEntry s F 0).1 ≠ (State.logEntry s F 0).2) := by
  refine ⟨⟨_, rfl, rfl, by decide, by decide, by decide, rfl, by decide⟩, ?_, ?_, by decide, by decide⟩
  · intro a h
    simp only [List.mem_cons, List.not_mem_nil, or_false] at h
    rcases h with rfl | rfl | rfl <;> exact ⟨_, rfl, by unfold Ctx.mayTrap; decide, by decide, by decide⟩
  · intro op hop W s h
    simp only [List.mem_cons, List.not_mem_nil, or_false] at h hop
    have hp : ∀ e, op ≠ .open_ e true none := by
      intro e he
      subst he
      simp_all
    have hw : ∀ q, q ∈ ReqOp.sdests (.eq 7 20 op) → q ≠ 0 → Writer.req 0 ∈ Warp.writers W q := by
      rcases hop with rfl | rfl | rfl | rfl | rfl | rfl | rfl | rfl | rfl | rfl <;> decide
    rcases h with rfl | rfl | rfl <;> exact ⟨⟨_, rfl, rfl, rfl, rfl⟩, by cases op <;> rfl, rfl, rfl, hw, hp⟩

/-- A reserved bit of the descriptor does not count (R6, R235), a length of zero does. -/
theorem test_open_descriptor : openDescOk (openDesc + 4) = true ∧ openDescOk (openDesc - 8 * 2 ^ 96) = false := by decide

/-- UNDO of one union restores it (R237). -/
theorem test_undo :
    (let F : Forest := { forest true with fill := 1, logs := [(0, (0, 1))] }
     entryAfter (exec (.eqServe 0 0) (forestWorld (eqWarp .undo) F)) 1 = some (1, 1) ∧
     entryAfter (exec (.eqServe 0 0) (forestWorld (eqWarp .undo) F)) 0 = some (0, 2)) := by decide
/-! ### Copies, transfers and relabels -/

/-- A warp whose operand group at s8 is four words. -/
def groupWarp (dw sw hw cw : Word) : Warp := { warp [(8, dw), (9, sw), (10, hw), (11, cw)] with tvec := 64 }

/-- Scratchpad of which byte 252 holds the address 0 of a barrier object, and shared memory with that object. -/
def arriveWord : Memory := Memory.write Memory.empty 1276 4 0
def object (arrived count : Nat) : Memory :=
  Memory.write Memory.empty 0 8 (Bar.toNat { count := count, arrived := arrived, pend := 1, waiters := 0, phase := 1023, inv := false })

/-- A copy of the whole of shared memory is within it, of one word more it is not; with a completion record and BAR. -/
def linWorld (cw : Word) : State :=
  world (groupWarp 0 0x10000000 0 cw) Memory.empty (object 0 1) arriveWord

theorem witness_CopiesIssue :
    (∀ cw, cw ∈ [(0xF0000000 : Word), 0x00000FC0, 0x100004E0] →
      ∃ c, State.ctx? (linWorld cw) = some c ∧ Ctx.mayTrap c ∧
        (c.warp.reqs.filter fun q => q.path = .cp).length < 4095 ∧ State.commands (linWorld cw) (State.coreOf (linWorld cw) c.warp) < 32 ∧
        (Warp.s c.warp 11) = cw ∧
        (cw = 0x100004E0 →
          State.chipRange (linWorld cw) c.warp .scratch 1216 64 = none ∧ cw.toNat % 64 = 32 ∧
          State.localPending (linWorld cw) c.warp .scratch 1276 4 c.warp.nextReq = false ∧
          State.badPlace (linWorld cw) 0 (State.placeOf (linWorld cw) c.warp .scratch 1276) 4 = false ∧
          State.readPlace (linWorld cw) 0 (State.placeOf (linWorld cw) c.warp .scratch 1276) 4 = 0 ∧
          State.sharedAt (linWorld cw) c.warp 0 = some (0, 0, 4096) ∧ (State.bar (linWorld cw) 0 0).count ≠ 0)) ∧
    (let s := world (groupWarp 0 0 0 0)
     let W := groupWarp 0 0 0 0
     State.endRange s W (endOf 0 0) 4096 = none ∧ State.endRange s W (endOf 0 4) 4096 ≠ none ∧
     State.endRange s W (endOf 0 0x10000000) 0 = none ∧ State.endConst s W (endOf 0 0) 4 = false ∧
     isOk (State.checkLin s W 0 0x10000000 64) = true ∧ isOk (State.checkLin s W 0x30000000 0 64) = false ∧
     isOk (State.checkLin s W 0x10000040 0 4) = false ∧ isOk (State.checkLin s W 0 0x1FFFFFFC 0) = true) ∧
    (let s := world (groupWarp 4095 0x10000000 0x00010001 0xF0000000)
     let W := groupWarp 4095 0x10000000 0x00010001 0xF0000000
     4095 < 4096 ∧ chipEnd 0x10000000 = some (.chip .scratch 0) ∧ chipEnd 0x20000000 = none ∧
     bits 0x00010001 31 28 = 0 ∧ bits 0x00010001 15 13 = 0 ∧ bits 0x00010001 12 0 = 1 ∧ bits 0x00010001 27 16 = 1 ∧
     bits 0x00010000 12 0 = 0 ∧ bits 0x00010002 12 0 = 2 ∧ bits 0x10010001 31 28 ≠ 0 ∧ 0x10000008 % 16 ≠ 0 ∧
     State.endRange s W (.chip .scratch 0) 16 = none ∧ (∃ cause, State.endRange s W (.chip .scratch 0) (16 * 257) = some cause) ∧
     W.reqs = []) ∧
    (let q : CopyCmd := { work := .ring { at_ := .chip .scratch 0, start := 0, count := 1, len := 1, pos := 0, bytes := 0, cur := none }, mode := 2, slot := none, bar := none, stop := .running }
     let W : Warp := { warp [] with reqs := List.replicate 32 (Warp.newReq (warp []) .cp (.copy q)) }
     State.commands (world W) 0 = 32 ∧ (W.reqs.filter fun q => q.path = .cp).length < 4095 ∧
     ∃ q k rest, W.reqs = q :: rest ∧ q.path = .cp ∧ q.op = .copy k) ∧
    (let s := boundWorld (warp [])
     State.handle? s (warp []) (bits 0x3000000 29 24) = some bind ∧
     isOk (State.checkTile s (warp []) 0x20000000 0 0x3000000) = true ∧
     isOk (State.checkTile s (warp []) 0x20000001 0 0x3000000) = false ∧
     chipEnd 0 = some (.chip .shared 0) ∧ State.endRange s (warp []) (.chip .shared 0) (16 * 256) = none ∧
     State.endRange s (warp []) (.chip .shared 0) (16 * 257) ≠ none) := by
  refine ⟨?_, by decide, ⟨by decide, rfl, rfl, by decide, by decide, by decide, by decide, by decide, by decide, by decide,
    by decide, by decide, ⟨_, rfl⟩, rfl⟩, ⟨by decide +kernel, by decide, _, _, _, rfl, rfl, rfl⟩, by decide⟩
  intro cw h
  simp only [List.mem_cons, List.not_mem_nil, or_false] at h
  rcases h with rfl | rfl | rfl <;> exact ⟨_, rfl, by unfold Ctx.mayTrap; decide, by decide, by decide, by decide, by decide⟩

/-- PEND counts a copy that names the object (R226). -/
theorem test_pend : (after (exec (.cpyLin 8) (linWorld 0x100004E0))).teams.map (fun T => (Bar.ofNat (Memory.read T.shm 0 8)).pend) = [2] := by
  decide
theorem test_cpy_traps : (after (exec (.cpyLin 8) (world (groupWarp 2 0 0 0xF0000000)))).warps.map
    (fun W => (W.bank1.tcause, W.bank1.tval)) = [(0x103, 2)] := by decide

/-- A descriptor of 8 coarse by 16 fine points of f32 in one dimension, and the table of handle 2. -/
def levelDesc (nx : Nat) : Nat := 2 + 1 * 2 ^ 4 + 1 * 2 ^ 6 + 1 * 2 ^ 8 + 16 * 2 ^ 192 + 2 ^ 224 + 2 ^ 256 + nx * 2 ^ 288 + 2 ^ 320 + 2 ^ 352
def stencil : Stencil :=
  { prolong := false, dims := 1, taps := [[⟨0, 0, -1, 0x3E800000⟩, ⟨0, 0, 0, 0x3F000000⟩]] ++ List.replicate 7 [] }
def levelWarp : Warp := groupWarp 0 0x10000800 0x10000400 0xF0000000
def levelWorld (nx : Nat) : State :=
  let T : Team := { team with stencils := [(2, stencil)] }
  { world levelWarp Memory.empty Memory.empty (Memory.write Memory.empty 1024 64 (levelDesc nx)) with teams := [T] }

/-- EQREL forms on forest 7, from and to main memory and shared memory. -/
def relWorld (dw sw xw : Word) : State :=
  { boundWorld (groupWarp dw sw xw 0xF0000000) with forests := [(7, forest)] }

theorem witness_TransfersAndRelabelsIssue :
    (∀ nx, nx ∈ [8, 9] → ∃ c, State.ctx? (levelWorld nx) = some c ∧ Ctx.mayTrap c ∧ c.warp.reqs = [] ∧
      State.commands (levelWorld nx) (State.coreOf (levelWorld nx) c.warp) < 32 ∧
      (∀ k : Nat, k < 4 → Warp.s c.warp (8 + k) = Warp.s levelWarp (8 + k)) ∧
      State.chipRange (levelWorld nx) c.warp .scratch 1024 64 = none ∧
      State.localPending (levelWorld nx) c.warp .scratch 1024 64 c.warp.nextReq = false ∧
      State.badPlace (levelWorld nx) 0 (State.placeOf (levelWorld nx) c.warp .scratch 1024) 64 = false) ∧
    isOk (State.checkLevel (levelWorld 8) levelWarp 0 true 0 0x10000800 0x10000400 (levelDesc 8)) = true ∧
    isOk (State.checkLevel (levelWorld 0) levelWarp 0 true 0 0x10000800 0x10000400 (levelDesc 0)) = false ∧
    levelWarp.mtouch = [] ∧ levelWarp.nextReq = 0 ∧ bits 0x30000000 31 28 = 3 ∧ bits 0x10000420 27 0 % 64 ≠ 0 ∧
    (∃ cause, State.chipRange (levelWorld 8) levelWarp .scratch 4096 64 = some cause) ∧
    (∀ F, AMap.get? (levelWorld 8).forests (bits 0x380C0000 31 27) = some F → F.ctx ≠ 1) ∧
    (∀ a : Word × Word × Word, a ∈ [(0x00000FE0, 0xF0000000, 0x380C0000), (0x20000000, 0x10000000, 0x3A0C0000),
        (0x30000000, 0, 0x38000000)] →
      ∃ c F, State.ctx? (relWorld a.1 a.2.1 a.2.2) = some c ∧ Ctx.mayTrap c ∧
        AMap.get? (relWorld a.1 a.2.1 a.2.2).forests (bits a.2.2.toNat 31 27) = some F ∧
        F.ctx = State.asidOf (relWorld a.1 a.2.1 a.2.2) c.warp ∧ bits a.2.2.toNat 17 0 = 0 ∧
        (State.handle? (relWorld a.1 a.2.1 a.2.2) c.warp (bits a.2.2.toNat 23 18) = some bind ∨ a.1 = 0x30000000) ∧
        State.endRange (relWorld a.1 a.2.1 a.2.2) c.warp (.chip .shared 0xFE0) (F.n * 4) = none ∧
        State.endRange (relWorld a.1 a.2.1 a.2.2) c.warp (endOf 0x100000 0x20000000) (F.n * 4) = none ∧
        State.endConst (relWorld a.1 a.2.1 a.2.2) c.warp (endOf 0x100000 0x20000000) (F.n * 4) = false) := by
  refine ⟨?_, by decide +kernel, by decide +kernel, rfl, rfl, by decide, by decide, ⟨_, rfl⟩, (fun F h => by cases h), ?_⟩
  · intro nx h
    simp only [List.mem_cons, List.not_mem_nil, or_false] at h
    rcases h with rfl | rfl <;> exact ⟨_, rfl, by unfold Ctx.mayTrap; decide, rfl, by decide, by decide, by decide, by decide, by decide⟩
  · intro a h
    simp only [List.mem_cons, List.not_mem_nil, or_false] at h
    rcases h with rfl | rfl | rfl <;>
      exact ⟨_, _, rfl, by unfold Ctx.mayTrap; decide, rfl, rfl, by decide, by decide, by decide, by decide, by decide⟩

theorem test_lxfer_issues : (after (exec (.lxferRestrict 8 true) (levelWorld 8))).warps.map (fun W => W.reqs.length) = [1] ∧
    (after (exec (.lxferRestrict 8 true) (levelWorld 0))).warps.map (fun W => W.bank1.tcause) = [0x106] := by decide +kernel
theorem test_eqrel_issues : (after (exec (.eqrelSum 8) (relWorld 0x20000000 0x10000000 0x3A0C0000))).warps.map
    (fun W => W.reqs.map fun r => r.path) = [[.eq]] := by decide

/-- One word tuple for each check of EQREL that it fails, and for each the checks before it that it keeps. -/
theorem witness_RelabelChecks :
    (∀ a : Word × Word × Word, a ∈ [(0x30000000, 0, 0x380C0000), (0, 0x30000000, 0x380C0000), (0, 0, 0x380C0001),
        (0, 0, 0x3E0C0000), (0x20000000, 0, 0x39000000), (0, 0x20000000, 0x39000000), (2, 0, 0x390C0000),
        (0, 0x10000002, 0x390C0000), (0, 0x10000000, 0x090C0000), (0x00000FE4, 0x10000000, 0x390C0000),
        (0, 0x10000FE4, 0x390C0000), (0x10000040, 0x10000000, 0x390C0000)] →
      ∃ c, State.ctx? (relWorld a.1 a.2.1 a.2.2) = some c ∧ Ctx.mayTrap c) ∧
    (let W := groupWarp 0 0 0 0
     let s := relWorld 0 0 0
     State.handle? s W (bits 0x39000000 23 18) = none ∧ State.handle? s W (bits 0x390C0000 23 18) = some bind ∧
     bits 0x3E0C0000 26 24 = 6 ∧ AMap.get? s.forests (bits 0x090C0000 31 27) = none ∧
     AMap.get? s.forests (bits 0x390C0000 31 27) = some forest ∧ forest.n * 4 = 32 ∧
     (State.endRange s W (endOf bind.base 0x00000FE4) 32).isSome ∧
     State.endRange s W (endOf bind.base 0) 32 = none ∧ (State.endRange s W (endOf bind.base 0x10000FE4) 32).isSome ∧
     State.endRange s W (endOf bind.base 0x10000040) 32 = none ∧ State.endConst s W (endOf bind.base 0x10000040) 32 = true) := by
  refine ⟨?_, by decide⟩
  intro a h
  simp only [List.mem_cons, List.not_mem_nil, or_false] at h
  rcases h with rfl | rfl | rfl | rfl | rfl | rfl | rfl | rfl | rfl | rfl | rfl | rfl <;>
    exact ⟨_, rfl, by unfold Ctx.mayTrap; decide⟩

/-- A warp with one command of the copy unit. -/
def cpWarp (work : CopyWork) (mode : Nat := 0) (slot : Option (Space × Nat) := none) (bar : Option Nat := none)
    (stop : CopyStop := .running) (p : Path := .cp) : Warp :=
  { warp [] with
    reqs := [Warp.newReq (warp []) p (.copy { work := work, mode := mode, slot := slot, bar := bar, stop := stop })],
    nextReq := 1 }

/-- Twelve bytes from main memory at 0x10001C to shared memory at 4084. -/
def piece : Piece :=
  { dst := .chip .shared 4084, src := .main 0x10001C, tile := none, size := 12, start := 0, done := [] }
def pieceWorld : State :=
  { boundWorld (cpWarp (.piece piece)) with main := Memory.write Memory.empty 0x10001C 12 (0xA + 0xB * 2 ^ 32 + 0xC * 2 ^ 64) }

/-- A transfer of two fine f32 points at scratchpad 256 to one coarse point at shared 64. -/
def level (add : Bool := false) (held : Option Nat := none) : Level :=
  { kind := 0, add := add, held := held, dst := .chip .shared 64, src := .chip .scratch 256, dg := ⟨1, 1, 1, 1, 0, 0⟩,
    sg := ⟨1, 2, 1, 1, 0, 0⟩, bnd := 0, table := stencil.taps, pos := 0 }
def pointWorld (l : Level := level) : State :=
  world (cpWarp (.level l) 8) Memory.empty Memory.empty (Memory.write Memory.empty 256 8 (0x3F800000 * 2 ^ 32 + 0x40000000))

/-- A finished copy with a completion record that arrives at an object, and a failed one whose record crosses it. -/
def donePiece : Piece := { piece with done := [127] }
def doneWarp (slot : Option (Space × Nat)) (bar : Option Nat) (stop : CopyStop := .running) : Warp :=
  cpWarp (.piece donePiece) 0 slot bar stop
def doneWorld (arrived count : Nat) (W : Warp) : State := { boundWorld W with teams := [team (object arrived count)] }

theorem witness_CopyUnitMoves :
    ((∃ r k, pieceWorld.warps[0]? = some (cpWarp (.piece piece)) ∧ (cpWarp (.piece piece)).reqs = [r] ∧ r.done = false ∧
        r.path = .cp ∧ r.op = .copy k ∧ k.stop = .running ∧ k.work = .piece piece) ∧
      State.resident pieceWorld (cpWarp (.piece piece)) = true ∧
      piece.saved = [] ∧ Piece.ahead pieceWorld (cpWarp (.piece piece)) piece 127 = [] ∧ (cpWarp (.piece piece)).mtouch = [] ∧
      (∀ ts, State.cpBlocked pieceWorld 0 (cpWarp (.piece piece)) 0 ts = false) ∧
      (∀ u, u < 3 → Piece.remaining piece u = some 127 ∧
        Piece.unit piece u = some (.chip .shared (4084 + 4 * u), some (.main (0x10001C + 4 * u))) ∧
        State.lies pieceWorld (cpWarp (.piece piece)) (.chip .shared (4084 + 4 * u)) true = some (.chip (.team 0 (4084 + 4 * u))) ∧
        State.lies pieceWorld (cpWarp (.piece piece)) (.main (0x10001C + 4 * u)) false = some (.main (0x10001C + 4 * u)) ∧
        State.badGranule pieceWorld 0 (.main (0x10001C + 4 * u)) = false ∧ State.inForest pieceWorld (0x10001C + 4 * u) 4 = false ∧
        State.rangeMeets pieceWorld (cpWarp (.piece piece)) piece.src 12 (.chip (.team 0 (4084 + 4 * u))) 4 = false)) ∧
    (∀ l, l ∈ [level, level true, level true (some 0x3F800000)] →
      (∃ r k, (pointWorld l).warps[0]? = some (cpWarp (.level l) 8) ∧ (cpWarp (.level l) 8).reqs = [r] ∧
        r.op = .copy k ∧ k.work = .level l ∧ k.stop = .running) ∧ l.pos < Grid3.count l.dg ∧
      State.lies (pointWorld l) (cpWarp (.level l) 8) (Level.dstAt l 0) true = some (.chip (.team 0 64)) ∧
      State.lies (pointWorld l) (cpWarp (.level l) 8) (Level.dstAt l 0) false = some (.chip (.team 0 64)) ∧
      State.badPlace (pointWorld l) 0 (.team 0 64) 4 = false ∧
      State.rangeMeets (pointWorld l) (cpWarp (.level l) 8) l.src 8 (.chip (.team 0 64)) 4 = false ∧
      (Level.taps l 0).length = 1 ∧
      ∀ x, x ∈ Level.taps l 0 → (State.lies (pointWorld l) (cpWarp (.level l) 8) x.1 false).isSome = true) ∧
    (∀ slot bar stop, (slot, bar, stop) ∈ [(none, none, CopyStop.running), (some (Space.scratch, 1984), none, .running),
        (some (.scratch, 1984), some 0, .running), (some (.shared, 0), none, .failed 2 0x405 0x200000)] →
      (∃ r k, (doneWarp slot bar stop).reqs = [r] ∧ r.op = .copy k ∧ (CopyCmd.outcome k).isSome = true)) ∧
    State.badPlace (doneWorld 0 2 (doneWarp none none)) 0 (.team 0 0) 8 = false ∧
    State.sharedAt (doneWorld 0 2 (doneWarp none none)) (doneWarp none none) 0 = some (0, 0, 4096) ∧
    (State.bar (doneWorld 0 2 (doneWarp none none)) 0 0).inv = false ∧
    (State.bar (doneWorld 0 2 (doneWarp none none)) 0 0).arrived + 1 < (State.bar (doneWorld 0 2 (doneWarp none none)) 0 0).count ∧
    (State.bar (doneWorld 0 0 (doneWarp none none)) 0 0).count = 0 := by
  refine ⟨⟨⟨_, _, rfl, rfl, rfl, rfl, rfl, rfl, rfl⟩, by decide, rfl, by decide, rfl, (fun _ => rfl), by decide⟩,
    ?_, ?_, by decide, by decide, by decide, by decide, by decide⟩
  · intro l h
    simp only [List.mem_cons, List.not_mem_nil, or_false] at h
    rcases h with rfl | rfl | rfl <;>
      exact ⟨⟨_, _, rfl, rfl, rfl, rfl, rfl⟩, by decide, by decide, by decide, by decide, by decide, by decide, by decide⟩
  · intro slot bar stop h
    simp only [List.mem_cons, List.not_mem_nil, or_false, Prod.mk.injEq] at h
    rcases h with ⟨rfl, rfl, rfl⟩ | ⟨rfl, rfl, rfl⟩ | ⟨rfl, rfl, rfl⟩ | ⟨rfl, rfl, rfl⟩ <;>
      exact ⟨_, _, rfl, rfl, by decide⟩

/-- What shared memory of team 0 holds after an instruction. -/
def sharedAfter (o : Out State) (a n : Nat) : Nat :=
  match (after o).teams with
  | T :: _ => Memory.read T.shm a n
  | [] => 0

theorem test_copy_granule : sharedAfter (exec (.copyGranule 0 0 127) pieceWorld) 4084 12 = 0xA + 0xB * 2 ^ 32 + 0xC * 2 ^ 64 := by
  decide
/-- 2 × 0.25 is outside; the point is 2 × 0.5 with the left tap beyond the boundary (R183, R184). -/
theorem test_lxfer_point : sharedAfter (exec (.lxferPoint 0 0) pointWorld) 64 4 = 0x3F800000 := by decide +kernel
theorem test_copy_completes : sharedAfter (exec (.copyComplete 0 0) (doneWorld 0 2 (doneWarp (some (.scratch, 1984)) (some 0)))) 0 8 =
      Bar.toNat { count := 2, arrived := 1, pend := 0, waiters := 0, phase := 1023, inv := false } ∧
    sharedAfter (exec (.copyComplete 0 0) (doneWorld 0 1 (doneWarp (some (.scratch, 1984)) (some 0)))) 0 8 =
      Bar.toNat { count := 1, arrived := 0, pend := 0, waiters := 0, phase := 0, inv := false } := by decide

/-- EQREL SUM of N32 from scratchpad 256 to shared 4064, over the eight elements of the forest. -/
def eqrel (roots : Option (List Nat)) (pos : Nat) (acc : AMap Nat) (done : List Nat) (fn : Nat := 2) : EqRel :=
  { fn := fn, et := 1, forest := 7, serial := 1, dst := .chip .shared 4064, src := .chip .scratch 256, roots := roots,
    classes := if roots = none then [] else [0, 3, 4, 6, 7], pos := pos, acc := acc, done := done, bytes := 0 }
def relWarp (e : EqRel) : Warp := cpWarp (.eqrel e) (11 + e.fn) (some (.shared, 0)) none .running .eq
def relRoots : List Nat := [0, 0, 0, 3, 4, 4, 6, 7]
def relRun (e : EqRel) : State :=
  { world (relWarp e) Memory.empty Memory.empty (Memory.write Memory.empty 284 4 9) with forests := [(7, forest)] }

theorem witness_RelabelsRun :
    (∀ e, e ∈ [eqrel none 0 [] [], eqrel (some relRoots) 7 [] [], eqrel (some relRoots) 0 [] [] 0,
        eqrel (some relRoots) 8 [(0, 1), (1, 2), (2, 3), (3, 4), (4, 5)] [], eqrel (some relRoots) 0 [] [127] 1,
        eqrel (some relRoots) 8 [(0, 1), (1, 2), (2, 3), (3, 4), (4, 5)] [127]] →
      ∃ r k, (relRun e).warps[0]? = some (relWarp e) ∧ (relWarp e).reqs = [r] ∧ r.done = false ∧ r.op = .copy k ∧
        k.work = .eqrel e ∧ k.stop = .running ∧ State.resident (relRun e) (relWarp e) = true ∧
        (relWarp e).mtouch = [] ∧ (∀ ts, State.cpBlocked (relRun e) 0 (relWarp e) 0 ts = false)) ∧
    (State.opening (relRun (eqrel none 0 [] [])) 0 0 7 = false ∧
      State.forestTurn (relRun (eqrel none 0 [] [])) 7 (fun _ => true) = true) ∧
    (∀ x, x < 8 → State.entryBad (relRun (eqrel none 0 [] [])) forest x = false ∧
      (State.entry (relRun (eqrel none 0 [] [])) forest x).1 < 8) ∧
    (∀ i, i < 5 → State.rangeMeets (relRun (eqrel (some relRoots) 8 [] [])) (relWarp (eqrel (some relRoots) 8 [] []))
      (.chip .scratch 256) 32 (.chip (.team 0 (4064 + 4 * i))) 4 = false) ∧
    (∀ x, x < 8 → ∃ q, State.reaches (relRun (eqrel none 0 [] [])) forest 8 x q) ∧
    (State.lies (relRun (eqrel (some relRoots) 7 [] [])) (relWarp (eqrel (some relRoots) 7 [] [])) (.chip .scratch 284) false).isSome = true ∧
    (∀ i, i < 8 → (State.lies (relRun (eqrel (some relRoots) 0 [] [] 0)) (relWarp (eqrel (some relRoots) 0 [] [] 0))
      (.chip .shared (4064 + 4 * i)) true).isSome = true ∧ (4064 + 4 * i) / 32 = 127) ∧
    EqRel.written (eqrel (some relRoots) 0 [] [127] 1) = true := by
  refine ⟨?_, by decide, by decide, by decide, ?_, by decide, by decide, by decide⟩
  · intro e h
    simp only [List.mem_cons, List.not_mem_nil, or_false] at h
    rcases h with rfl | rfl | rfl | rfl | rfl | rfl <;> exact ⟨_, _, rfl, rfl, rfl, rfl, rfl, rfl, by decide, rfl, fun _ => rfl⟩
  · intro x h
    exact ⟨_, rfl, by revert x; decide⟩

theorem test_eqrel_takes_roots : ((after (exec (.eqrelRun 0 0 0) (relRun (eqrel none 0 [] [])))).warps.map
    fun W => W.reqs.map fun r => match r.op with
      | .copy k => match k.work with
        | .eqrel e => (e.roots, e.classes)
        | _ => (none, [])
      | _ => (none, [])) = [[(some relRoots, [0, 3, 4, 6, 7])]] := by decide
theorem test_eqrel_writes : sharedAfter (exec (.eqrelRun 0 0 127) (relRun (eqrel (some relRoots) 0 [] [] 1))) 4072 24 =
    1 * 2 ^ 32 + 2 * 2 ^ 64 + 2 * 2 ^ 96 + 3 * 2 ^ 128 + 4 * 2 ^ 160 := by decide
/-! ### Handles, tables, stages, barriers, fences and word waits -/

/-- A layout record of the tile of `bind` whose pointer is `ptr`. -/
def record (ptr : Nat) : Nat :=
  ptr + 2 ^ 32 + 2 ^ 36 + 2 ^ 40 + 64 * 2 ^ 64 + 2 ^ 96 + 2 ^ 128 + 64 * 2 ^ 160 + 2 ^ 176 + 2 ^ 192 + 64 * 2 ^ 208 + 2 ^ 216 + 64 * 2 ^ 320 + 64 * 2 ^ 384

/-- The world with words in scratchpad at 192 and an argument block of 64 bytes whose first eight bytes hold a base. -/
def bindWorld (bytes base : Nat) (x : Word := 192) (stage : List Word := []) (sh : Nat := 0) : State :=
  let T : Team := { team with stage := stage, shm := Memory.write Memory.empty 64 4 sh }
  let W := { warp [(5, x), (6, 0x40), (7, 0xDEAD)] with tvec := 64 }
  let G : Grid := { grid (Memory.write (Memory.write Memory.empty 192 80 bytes) 1024 8 base) with argOff := 1024, argLen := 64 }
  { world W with teams := [T], grids := [G] }

theorem witness_HandlesTablesAndStages :
    (∀ a : Nat × Nat × Word, a ∈ [(record 0, 0x100000, (192 : Word)), (record 64, 0, 192), (record 0, 2 ^ 57, 192),
        (record 0, 0x100010, 192), (0, 0, 192), (0, 0, 4016), (0, 0, 200)] →
      let s := bindWorld a.1 a.2.1 a.2.2
      ∃ c T G, State.ctx? s = some c ∧ s.teams[c.warp.team]? = some T ∧ s.grids[T.grid]? = some G ∧ c.warp.reqs = [] ∧
        Ctx.mayTrap c ∧ c.warp.mtouch = [] ∧ (Warp.s c.warp 5).toNat + 80 ≤ G.scrLen ∧
        State.badPlace s c.w (.scratch T.grid (dieOf T.core) (Warp.s c.warp 5).toNat) 80 = false ∧ T.stage = []) ∧
    (layoutReserved (record 0) = true ∧ TileBind.ok (TileBind.ofRecord (record 0)).1 = true ∧
      TileBind.ok (TileBind.ofRecord 0).1 = false ∧ (stencilCounts 0).sum = 0) ∧
    (∀ stage, stage ∈ [List.replicate 15 (0 : Word), List.replicate 16 0, [5, 6]] →
      ∃ T : Team, (bindWorld 0 0 192 stage).teams[0]? = some T ∧ T.stage = stage) ∧
    (∀ v, v ∈ [0, 1] → State.chipRange (bindWorld 0 0 192 [] v) (warp []) .shared 64 64 = none ∧
      State.readPlace (bindWorld 0 0 192 [] v) 0 (State.placeOf (bindWorld 0 0 192 [] v) (warp []) .shared 64) 4 = v) := by
  refine ⟨?_, by decide +kernel, ?_, by decide⟩
  · intro a h
    simp only [List.mem_cons, List.not_mem_nil, or_false] at h
    rcases h with rfl | rfl | rfl | rfl | rfl | rfl | rfl <;>
      exact ⟨_, _, _, rfl, rfl, rfl, rfl, by unfold Ctx.mayTrap; decide, rfl, by decide, by decide, rfl⟩
  · intro stage h
    simp only [List.mem_cons, List.not_mem_nil, or_false] at h
    rcases h with rfl | rfl | rfl <;> exact ⟨_, rfl, rfl⟩

/-- S[9] of warp 0 and the handles of team 0 after an instruction. -/
def bound (o : Out State) : Word × List (Nat × TileBind) :=
  match (after o).warps, (after o).teams with
  | V :: _, T :: _ => (Warp.s V 9, T.handles)
  | _, _ => (0xFFFF, [])

theorem test_thbind : bound (exec (.thbind 9 3 5) (bindWorld (record 0) 0x100000)) = (0, [(3, bind)]) ∧
    bound (exec (.thbind 9 3 5) (bindWorld (record 0) 0x100010)) = (2, []) ∧
    bound (exec (.thbind 9 3 5) (bindWorld (record 64) 0x100000)) = (3, []) := by decide +kernel
theorem test_cqget : bound (exec (.cqget 9) (bindWorld 0 0 192 [5, 6])) = (5, []) := by decide

/-- The world with a barrier object at shared address 0, from which the warp has perhaps an arrival record. -/
def barWorld (o : Bar) (rec : List Arrival) (x n : Word) : State :=
  world { warp [(5, x), (6, n)] with arrivals := rec } Memory.empty (Memory.write Memory.empty 0 8 (Bar.toNat o))

theorem witness_BarrierInstructions :
    ∀ a : Bar × List Arrival × Word, a ∈ [
        (⟨0, 0, 0, 0, 1023, false⟩, [], (16383 : Word)), (⟨0, 0, 0, 0, 0, false⟩, [], 16384), (⟨3, 1, 1, 1, 5, false⟩, [], 1),
        (⟨3, 1, 0, 0, 5, false⟩, [⟨0, 0, 5⟩], 0), (⟨3, 2, 0, 2, 5, false⟩, [⟨0, 0, 4⟩], 0), (⟨1, 0, 0, 0, 5, true⟩, [⟨0, 0, 5⟩], 0),
        (⟨2, 0, 0, 0, 5, false⟩, List.replicate 8 ⟨0, 8, 0⟩, 0)] →
      let s := barWorld a.1 a.2.1 0 a.2.2
      ∃ c, State.ctx? s = some c ∧ (Warp.s c.warp 5).toNat % 8 = 0 ∧ (Warp.s c.warp 6) = a.2.2 ∧
        State.sharedAt s c.warp 0 = some (0, 0, 4096) ∧ State.badPlace s c.w (.team 0 0) 8 = false ∧
        Warp.sleepsOn c.warp 0 0 = false ∧ c.frag.marks = [] ∧ c.warp.mtouch = [] ∧ State.bar s 0 0 = a.1 ∧ c.warp.arrivals = a.2.1 := by
  intro a h
  simp only [List.mem_cons, List.not_mem_nil, or_false] at h
  rcases h with rfl | rfl | rfl | rfl | rfl | rfl | rfl <;>
    exact ⟨_, rfl, by decide, by decide, by decide, by decide, by decide, rfl, rfl, by decide, rfl⟩

/-- S[9] of warp 0 and the object after an instruction. -/
def barAfter (o : Out State) : Word × Bar :=
  match (after o).warps with
  | V :: _ => (Warp.s V 9, State.bar (after o) 0 0)
  | [] => (0xFFFF, Bar.ofNat 0)

theorem test_bar_arr_completes : barAfter (exec (.barArr 9 5) (barWorld ⟨2, 1, 0, 1, 1023, false⟩ [] 0 0)) =
    (0x3FF00, ⟨2, 0, 0, 0, 0, false⟩) := by decide
theorem test_bar_test_phase : barAfter (exec (.barTest 9 5) (barWorld ⟨2, 1, 0, 0, 7, false⟩ [⟨0, 0, 7⟩] 0 0)) =
    (0x703, ⟨2, 1, 0, 0, 7, false⟩) := by decide

/-- The world with a word at 256 of scratchpad. -/
def wordWorld (v : Nat) (x want : Word) (k : Wait := .ready) : State :=
  world (waiting k { warp [(4, 5), (5, x), (6, want)] with tvec := 64 }) Memory.empty Memory.empty (Memory.write Memory.empty 256 4 v)

theorem witness_FencesAndWordWaits :
    ((∃ c, State.ctx? (world (warp [])) = some c ∧ c.warp.queue = [] ∧ c.warp.exec = none ∧ c.warp.reqs = [] ∧
        c.warp.laneTrap = none ∧ c.warp.mtouch = [] ∧ Warp.fabricTrap c.warp = false) ∧
      (∃ e, e ∈ (queued 1).queue ∧ e.seq < (queued 1).nextRun) ∧
      ∃ c r, State.ctx? (world (atomicWarp .cross)) = some c ∧ r ∈ c.warp.reqs ∧ r.done = false ∧ r.id < c.warp.nextReq ∧
        (1 : Nat).testBit (Path.code r.path) = true) ∧
    (∀ a : Nat × Word, a ∈ [(5, (5 : Word)), (4, 0), (4, 1)] →
      ∃ c, State.ctx? (wordWorld a.1 256 a.2) = some c ∧ Ctx.mayTrap c ∧
        State.gridOf? (wordWorld a.1 256 a.2) c.warp = some (grid (Memory.write Memory.empty 256 4 a.1)) ∧
        (Warp.s c.warp 5).toNat % 64 = 0 ∧ State.chipRange (wordWorld a.1 256 a.2) c.warp .scratch 256 4 = none ∧
        State.readPlace (wordWorld a.1 256 a.2) 0 (State.placeOf (wordWorld a.1 256 a.2) c.warp .scratch 256) 4 = a.1 ∧
        Warp.s c.warp 4 = 5 ∧ Warp.s c.warp 6 = a.2) ∧
    (∃ c, State.ctx? (wordWorld 0 258 0) = some c ∧ (Warp.s c.warp 5).toNat % 4 ≠ 0) ∧
    (∃ f, Warp.frag? (waiting (.maskwait 9 256 5)) 0 = some f ∧ f.wait = .maskwait 9 256 5 ∧
      State.active (world (waiting (.maskwait 9 256 5))) (waiting (.maskwait 9 256 5)) = true ∧ f.hlev = 0 ∧
      State.active (world { waiting (.maskwait 9 256 5) with killed := true }) { waiting (.maskwait 9 256 5) with killed := true } =
        false ∧ f.hlev < ({ waiting (.maskwait 9 256 5) with tlev := 1 } : Warp).tlev) ∧
    (∃ n m, decodeF Fmt.f32 0x38800000 = .fin false n m ∧ ¬ n * 2 ^ 14 < m) ∧
    (∃ n m, decodeF Fmt.f32 0x387FFFFF = .fin false n m ∧ n * 2 ^ 14 < m) := by
  refine ⟨⟨⟨_, rfl, rfl, rfl, rfl, rfl, rfl, rfl⟩, ⟨entry 0 0, by decide, by decide⟩, _, _, rfl, List.mem_singleton.mpr rfl, rfl, by decide, by decide⟩, ?_,
    ⟨_, rfl, by decide⟩, ⟨_, rfl, rfl, by decide, rfl, by decide, by decide⟩, ⟨_, _, rfl, by decide⟩, _, _, rfl, by decide⟩
  intro a h
  simp only [List.mem_cons, List.not_mem_nil, or_false] at h
  rcases h with rfl | rfl | rfl <;>
    exact ⟨_, rfl, by unfold Ctx.mayTrap; decide, rfl, by decide, by decide, by decide, by decide, by decide⟩

theorem test_tempc : gives (.tempc 8 5) (warp [(5, 0x38800000)]) 9 = 0x46800000 ∧
    gives (.tempc 8 5) (warp [(5, 0xBF800000)]) 8 = 3 := by decide +kernel

/-- The last fragment of its team to wait on the stage queue, and one beside which another is ready (R176); a FAX to this
device that has failed behind another request, and MASKWAITs that may and may not end. -/
theorem witness_StallsAndOrderedWaits :
    (let s := bindWorld 0 0
     let t : State := { s with teams := [{ team with warps := [0, 1] }], warps := s.warps ++ [warp []] }
     0 ∈ team.warps ∧ (warp []).ended = false ∧
     (∀ i, i < 32 → (Warp.frag? (warp []) i).isSome = true → i = 0) ∧
     t.warps[1]? = some (warp []) ∧ Warp.frag? (warp []) 0 = some frag ∧ frag.wait ≠ .stagePut ∧
     State.active t (warp []) = true) ∧
    (let W : Warp := { atomicWarp (.fax 0x1FF 3 (.st 4) [] [(2, 7)]) with reqs :=
      [{ Warp.newReq (warp []) .fb (.fax 0x1FF 3 (.st 4) [] [(2, 7)]) with done := true }] }
     ∃ r, W.reqs = [r] ∧ r.path = .fb ∧ r.done = true ∧ Req.failure r ≠ none ∧ r.id < W.nextReq ∧
       (16 : Nat).testBit (Path.code r.path) = true ∧ State.toSelf (world W) r = true) ∧
    (let W : Warp := Warp.owe (waiting (.maskwait 9 256 5)) (.frag 0) [9]
     let c : Ctx := ctx W (frag 0 [] (.maskwait 9 256 5))
     Ctx.owns c 9 ∧ Warp.trapDue W = false ∧ W.mtouch = [] ∧
     Warp.trapDue { W with laneTrap := some ⟨0, none, 64, 1, 0, false, 0, some (entry 0 0)⟩ } = true) := by
  refine ⟨by decide, ⟨_, rfl, rfl, rfl, by decide, by decide, by decide, by decide⟩, ?_⟩
  exact ⟨⟨by decide, fun _ => by decide⟩, by decide, rfl, rfl⟩
/-! ### The matrix array -/

/-- The array of core 0 held by warp 0, with physical slots 1 to 3. -/
def held : MHold :=
  { w := 0, session := 0, phys := [1, 2, 3], follower := none, leader := none, ready := true, released := false }

/-- The world of a warp at work on a core whose array is `a`, with 65,536 bytes of shared memory. -/
def arrayWorld (W : Warp) (a : MArray) (core : Nat := 0) (shm : Memory := Memory.empty) : State :=
  let T : Team := { team shm with shLen := 65536, core := core, handles := [(3, bind)] }
  let s := world W
  { s with teams := [T], arrays := [(core, a)] }

/-- A waiter of the owner queue. -/
def waiter (n : Nat) (pair : Bool) (leader : Option Nat := none) : MWaiter :=
  { w := 0, slot := 0, n := n, d := 9, pair := pair, leader := leader, resume := false }

/-- An operation of warp 0. -/
def mop (work : MWork) (unit : Nat := 0) (batch : Option Nat := none) : MOp :=
  { id := 0, w := 0, session := 0, phys := [1, 2, 3], pair := none, fphys := [], work := work, unit := unit, batch := batch,
    img := [], epoch := 0, cp := 0, lev := 0, flags := 0, fault := none, dead := false }

theorem witness_MatrixOwnershipAndBatches :
    (∀ core, core ∈ [0, 79] → ∀ a, a ∈ [MArray.empty, { MArray.empty with waiters := [waiter 1 false] }, { MArray.empty with hold := some held }] →
      ∃ c, State.ctx? (arrayWorld { warp [] with tvec := 64 } a core) = some c ∧ Ctx.mayTrap c ∧ Warp.inMacq c.warp = false ∧
        State.coreOf (arrayWorld { warp [] with tvec := 64 } a core) c.warp = core ∧
        ((State.owned (arrayWorld { warp [] with tvec := 64 } a core) 0 c.warp).isSome = true ↔ a.hold ≠ none) ∧
        (a.hold = none → State.freeSlots (arrayWorld { warp [] with tvec := 64 } a core) core ≠ [])) ∧
    (∀ m, m ∈ [waiter 1 false, waiter 1 true, waiter 1 true (some 1)] →
      let a : MArray := { MArray.empty with waiters := [m] }
      let lead : MArray := { MArray.empty with hold := some { held with ready := false } }
      let s : State := { arrayWorld (waiting (.macq 9)) a with arrays := [(0, a), (1, lead)] }
      (State.array s 0).waiters = m :: [] ∧ (State.array s 0).hold = none ∧ m.n ≤ (State.freeSlots s 0).length ∧
        m.resume = false ∧ (State.array s 1).hold = some { held with ready := false }) ∧
    (∀ a : Word × Nat × Option Nat, a ∈ [((0 : Word), 0, none), (1, 0, none), (0x80000001, 0, none), (1, 1, none), (1, 1, some 1),
        (2, 2, some 2), (1, 2, some 2)] →
      let W : Warp := { warp [(5, a.1)] with batch := a.2.1 }
      let s := arrayWorld W { MArray.empty with ops := if a.2.2 = none then [] else [mop (.mzero 0) 0 a.2.2] }
      ∃ c, State.ctx? s = some c ∧ Ctx.mayTrap c ∧ (Warp.s c.warp 5) = a.1 ∧ c.warp.batch = a.2.1 ∧
        (a.2.2 ≠ none → ∃ e o, e ∈ s.arrays ∧ o ∈ e.2.ops ∧ o.w = c.w ∧ o.batch = a.2.2)) := by
  refine ⟨?_, ?_, ?_⟩
  · intro core hc a ha
    simp only [List.mem_cons, List.not_mem_nil, or_false] at hc ha
    rcases hc with rfl | rfl <;> rcases ha with rfl | rfl | rfl <;>
      exact ⟨_, rfl, by unfold Ctx.mayTrap; decide, by decide, by decide, by decide, by decide⟩
  · intro m h
    simp only [List.mem_cons, List.not_mem_nil, or_false] at h
    rcases h with rfl | rfl | rfl <;> decide +kernel
  · intro a h
    simp only [List.mem_cons, List.not_mem_nil, or_false] at h
    rcases h with rfl | rfl | rfl | rfl | rfl | rfl | rfl <;>
      refine ⟨_, rfl, by unfold Ctx.mayTrap; decide, by decide, rfl, fun h => ?_⟩ <;>
      first
        | exact absurd rfl h
        | exact ⟨_, _, List.mem_singleton.mpr rfl, List.mem_singleton.mpr rfl, rfl, rfl⟩

theorem test_mfence : gives (.mfence 9) { warp [] with batch := 0xFFFFFFFF } 9 = 1 := by decide
theorem test_mwait_future : (after (exec (.mwait 5) (world { warp [(5, 2)] with tvec := 64, batch := 1 }))).warps.map
    (fun W => W.bank1.tcause) = [0x147] := by decide

/-- A warp with the format block of E4M3 operands and an F16 drain at s16. -/
def fmtWarp (w0 : Word) (x : Word) (slots : Nat := 3) : State :=
  arrayWorld { warp [(5, x), (16, w0)] with tvec := 64 } { MArray.empty with hold := some { held with phys := (List.range slots).map (· + 1) } }

theorem witness_MatrixInstructionsIssue :
    (∀ a : Word × Word × Bool, a ∈ [((0x012001AD : Word), (32768 : Word), true), (0x012001AD, 0x10000000, true), (0x80000000, 4, false)] →
      let s := fmtWarp a.1 a.2.1
      ∃ c h, State.ctx? s = some c ∧ Ctx.mayTrap c ∧ State.owned s c.w c.warp = some h ∧
        (State.array s (State.coreOf s c.warp)).ops.length < 64 ∧
        FmtBlock.ok (FmtBlock.read c.warp 4).1 (Warp.s c.warp 16).toNat = a.2.2 ∧
        drainBlockOk (FmtBlock.read c.warp 4).1 (Warp.s c.warp 16).toNat = a.2.2 ∧
        (a.2.2 = true → (Warp.s c.warp 5).toNat % 32 = 0)) ∧
    (let s := fmtWarp 0x012001AD 32768
     let W := { warp [(5, 32768), (16, 0x012001AD)] with tvec := 64 }
     State.chipRange s W .shared 32768 32768 = none ∧ State.chipRange s W .shared 32800 32768 ≠ none ∧
     State.constRange s W .shared 32768 32768 = false ∧ State.chipRange s W .shared 32768 12288 = none ∧
     State.handle? s W 3 = some bind ∧ 0 < TileBind.count bind ∧ bind.swz = 0 ∧
     (∃ T, s.teams[W.team]? = some T ∧ ∀ r, r ∈ FmtBlock.arrays (FmtBlock.read W 4).1 1 → r.1 + r.2 ≤ T.shLen)) ∧
    (let wide : TileBind := { bind with tx := 12288, esz := 0, ex := 12288 }
     TileBind.elems wide * 2 ^ wide.esz = 12288 ∧ 0 < TileBind.count wide) := by
  refine ⟨?_, ⟨by decide, by decide, by decide, by decide, rfl, by decide, rfl, _, rfl, by decide⟩, by decide, by decide⟩
  intro a h
  simp only [List.mem_cons, List.not_mem_nil, or_false] at h
  rcases h with rfl | rfl | rfl <;>
    exact ⟨_, _, rfl, by unfold Ctx.mayTrap; decide, rfl, by decide, by decide, by decide, by decide⟩

theorem test_mld_issues : (after (exec (.mldRow 2 5) (fmtWarp 0 32768))).arrays.map (fun e => e.2.ops.map fun o => o.work) =
    [[.mld 2 false .shared 32768]] := by decide
theorem test_slot_trap : (after (exec (.mmaTile 0 1 3 4) (fmtWarp 0x012001AD 0))).warps.map (fun W => W.bank1.tcause) = [0x143] := by decide

/-- Core 0's array with one operation at a unit. -/
def opWorld (work : MWork) (unit : Nat) (tile0 : UMem := ⟨7, [], []⟩) : State :=
  arrayWorld (warp []) { MArray.empty with hold := some held, ops := [mop work unit], tiles := [(2, tile0)] } 0
    (Memory.write Memory.empty 32 32 (2 ^ 255 + 5))

theorem witness_MatrixUnitsAct :
    (∀ a : MWork × Nat, a ∈ [(.mzero 2, 1023), (.mld 2 false .shared 0, 1), (.mbl 0 0, 1), (.mst 2 .shared 0, 1),
        (.mma 2 0 0 ⟨13, 14, 0, 0, false, 0, 0, 0, 0, 0, 0⟩, 63), (.drain 2 0 9, 63)] →
      let s := opWorld a.1 a.2
      (State.array s 0).ops = [mop a.1 a.2] ∧ (mop a.1 a.2).declined = none ∧ (warp []).mfail = none ∧ (warp []).ahead = [] ∧
        s.warps[0]? = some (warp []) ∧ (State.array s 0).cur = 0 ∧
        a.2 < MOp.units (mop a.1 a.2) ∧ (mop a.1 a.2).phys[0]? = some 1 ∧ (State.array s 0).tiles = [(2, ⟨7, [], []⟩)] ∧
        (State.array s 0).slots = []) ∧
    (∀ k, k < 32 → State.placeOf (opWorld (.mld 2 false .shared 0) 1) (warp []) .shared (32 + k) = .team 0 (32 + k)) ∧
    State.badPlace (opWorld (.mld 2 false .shared 0) 1) 0 (.team 0 32) 32 = false ∧
    (∀ n, UMem.uncorrectable ⟨7, [], []⟩ n 32 = false) ∧
    State.chipRange (opWorld (.mzero 0) 0) (warp []) .scratch (32 * 127) 32 = none := by
  refine ⟨?_, by decide, by decide, fun n => rfl, by decide⟩
  intro a h
  simp only [List.mem_cons, List.not_mem_nil, or_false] at h
  rcases h with rfl | rfl | rfl | rfl | rfl | rfl <;> exact ⟨rfl, rfl, rfl, rfl, rfl, rfl, by decide, rfl, rfl, rfl⟩

/-- A tile's bytes after an instruction. -/
def tileAfter (o : Out State) (t off n : Nat) : Nat := UMem.read (MArray.tile (State.array (after o) 0) t) off n

theorem test_matrix_load : tileAfter (exec (.matrixOpUnit 0 .unit) (opWorld (.mld 2 false .shared 0) 1)) 2 32 32 = 2 ^ 255 + 5 := by
  decide +kernel
theorem test_drain_saturates : encodeF Fmt.f16 (roundF Fmt.f16 .rtz (satF Fmt.f16 (decodeF Fmt.f32 0x7F000000))) = 0x7BFF := by
  decide +kernel

/-- The owner of the pair of cores 0 and 1, with or without an operation of the pair left (R194). -/
def pairWorld (ops : List MOp) : State :=
  { arrayWorld (warp []) MArray.empty with
    arrays := [(0, { MArray.empty with hold := some { held with follower := some 1 }, ops := ops }),
               (1, { MArray.empty with hold := some { held with leader := some 0 } })] }

theorem witness_PairsAreReleased :
    ∀ ops, ops ∈ [[], [mop (.mzero 0)]] →
      ∃ c h g, State.ctx? (pairWorld ops) = some c ∧ State.owned (pairWorld ops) c.w c.warp = some h ∧ h.follower = some 1 ∧
        1 ≠ State.coreOf (pairWorld ops) c.warp ∧ (State.array (pairWorld ops) 1).hold = some g ∧ g.leader = some 0 ∧
        ((State.array (pairWorld ops) 0).ops = [] ↔ ops = []) ∧
        ∀ k g lead, (State.array (pairWorld ops) k).hold = some g → g.leader = some lead → g.released = false := by
  intro ops h
  simp only [List.mem_cons, List.not_mem_nil, or_false] at h
  have last : ∀ k g lead, (State.array (pairWorld ops) k).hold = some g → g.leader = some lead → g.released = false := by
    intro k g lead hk _
    match k with
    | 0 => cases hk; rfl
    | 1 => cases hk; rfl
    | _ + 2 => simp [State.array, pairWorld, AMap.get?, MArray.empty] at hk
  rcases h with rfl | rfl <;> exact ⟨_, _, _, rfl, rfl, rfl, by decide, rfl, rfl, by decide, last⟩

/-- Operands of matrix instructions that fail each check, and the checks before that they keep (R191 to R207). -/
theorem witness_MatrixChecks :
    (∀ a : Word × Word, a ∈ [((0x012001AD : Word), (32769 : Word)), (0x012001AD, 0x20000000), (0x80000000, 32768)] →
      ∃ c, State.ctx? (fmtWarp a.1 a.2) = some c ∧ Ctx.mayTrap c ∧ State.owned (fmtWarp a.1 a.2) c.w c.warp = some held) ∧
    (let s := fmtWarp 0x012001AD 32769
     let W : Warp := { warp [(5, 32769), (16, 0x012001AD)] with tvec := 64 }
     State.chipRange s W .scratch 0 32768 ≠ none ∧ State.chipRange s W .scratch 64 32 = none ∧
     State.constRange s W .scratch 64 32 = true ∧ State.handle? s W 4 = none ∧ TileBind.count bind ≤ 2 ^ 25 ∧
     TileBind.elems bind * 2 ^ bind.esz ≠ 12288 ∧ held.phys.length = 3 ∧
     FmtBlock.ok (FmtBlock.read W 4).1 0x012001AD = true) ∧
    (∃ w x : Word, let W := warp [(16, w), (17, x)]
      FmtBlock.ok (FmtBlock.read W 4).1 w.toNat = true ∧ ∃ r, r ∈ FmtBlock.arrays (FmtBlock.read W 4).1 1 ∧ 4096 < r.1 + r.2) := by
  refine ⟨?_, by decide, ?_⟩
  · intro a h
    simp only [List.mem_cons, List.not_mem_nil, or_false] at h
    rcases h with rfl | rfl | rfl <;> exact ⟨_, rfl, by unfold Ctx.mayTrap; decide, rfl⟩
  · exact ⟨0x012005AD, 0xFFFF, by decide, (524280, _), List.mem_cons_self .., by decide⟩
/-! ### Attention contexts and tokens -/

/-- A context of two layers with positions 0 to 3 reserved by queue 0 and position 1 published at layer 0. -/
def attn : AttnCtx :=
  { asid := 1, cap := 100, layers := 2, scope := 3, user := 5, next := 4, frontier := [0, 0], pub := [posKey 1 0], abn := [],
    owners := [(0, some 0), (1, some 0), (2, some 0), (3, some 0)], abandoned := 0, waiting := [], bad := [] }

/-- A warp of which fragment 0 waits at the home unit with an operation and owes its registers. -/
def ctxWarp (op : CtxOp) : Warp :=
  Warp.owe (waiting (.ctx op 0) { warp [] with tvec := 64, nextCtx := 1 }) (.frag 0) (Wait.dests (.ctx op 0))

/-- The world in which fragment 0 waits at the home unit with an operation on context 5. -/
def ctxWorld (op : CtxOp) (A : AttnCtx := attn) : State :=
  { world (ctxWarp op) with contexts := [(5, A)] }

theorem witness_ContextInstructionsAndService :
    (∀ idem, idem ∈ [true, false] → ∃ c, State.ctx? (world { warp [] with tvec := 64, idem := idem }) = some c ∧ Ctx.mayTrap c ∧
      c.warp.idem = idem ∧ c.warp.queue = [] ∧ c.warp.exec = none ∧ c.warp.laneTrap = none) ∧
    (∃ c e, State.ctx? (world (queued 1)) = some c ∧ e ∈ c.warp.queue ∧ e.seq < c.warp.nextRun) ∧
    (let p : Pending := ⟨0, none, 64, 1, 0, false, 0, some (entry 0 0)⟩
     let W : Warp := { warp [] with laneTrap := some p, nextRun := 1 }
     W.laneTrap = some p ∧ p.run = some (entry 0 0) ∧ (entry 0 0).seq < W.nextRun) ∧
    (∀ op, op ∈ [CtxOp.pub 5 0 0 4, .acq 9 5 1, .abn 9 5 3 1, .stat 9 5 0x104, .res 9 5 4096, .pub 5 2 0 1, .res 9 5 4097,
        .res 9 6 1] →
      let c : Ctx := ctx (ctxWarp op) (frag 0 [] (.ctx op 0))
      (∀ d, d ∈ Wait.dests c.frag.wait → Ctx.owns c d) ∧
      Ctx.stands c (ctxWorld op) ∧ c.frag.wait = .ctx op 0 ∧ Warp.ctxWaits c.warp 0 = false ∧ Ctx.mayTrap c ∧ c.warp.tlev ≤ c.frag.hlev ∧
        (State.context? (ctxWorld op) (State.asidOf (ctxWorld op) c.warp) (CtxOp.word op) =
          if CtxOp.word op = 5 then some attn else none)) ∧
    (AttnCtx.check attn (.pub 5 0 0 4) = none ∧ AttnCtx.check attn (.acq 9 5 1) = none ∧ AttnCtx.check attn (.abn 9 5 3 1) = none ∧
      AttnCtx.check attn (.stat 9 5 0x104) = none ∧ AttnCtx.check attn (.res 9 5 4096) = none ∧
      AttnCtx.check attn (.pub 5 2 0 1) = some (7 * 64 + 1, 2) ∧ AttnCtx.check attn (.res 9 5 4097) = some (7 * 64 + 2, 4097)) ∧
    (∀ n, n ∈ [96, 97] → ∀ cap, cap ∈ [100, 2 ^ 24] →
      let A : AttnCtx := { attn with cap := cap, waiting := [⟨0, 0, 9, n, some 0⟩] }
      let W : Warp := Warp.owe (waiting (.ctxRes 9)) (.frag 0) [9]
      let s : State := { world W with contexts := [(5, A)] }
      let c : Ctx := ctx W (frag 0 [] (.ctxRes 9))
      Ctx.owns c 9 ∧ AttnCtx.mayGrant A = true ∧
      AMap.get? s.contexts 5 = some A ∧ Ctx.stands c s ∧ A.bad = [] ∧ (A.cap < A.next + n ↔ n = 97 ∧ cap = 100) ∧
        A.next + n ≤ AttnCtx.fmin A + 4096) ∧
    (AttnCtx.mayGrant attn = false ∧ attn.bad = [] ∧ attn.waiting = [] ∧ attn.cap < attn.next + 97 ∧
      attn.next + 96 ≤ AttnCtx.fmin attn + 4096 ∧
      (let A : AttnCtx := { attn with cap := 2 ^ 24, waiting := [⟨0, 0, 9, 4096, some 0⟩] }
       AttnCtx.mayGrant A = false ∧ A.waiting ≠ [] ∧ AttnCtx.fmin A + 4096 < A.next + 4096) ∧
      AttnCtx.fmin attn + 4096 < attn.next + 4096 ∧
      contextRecordOk (2 ^ 124 - 2 ^ 120 + 1 * 2 ^ 80 + 3 * 2 ^ 67) = false ∧
      contextRecordOk (100 * 2 ^ 96 + 1 * 2 ^ 80 + 3 * 2 ^ 67) = true ∧
      (((([(5, attn)] : AMap AttnCtx).filter fun e => e.1 / 256 = 0).map fun e => contextBytes e.2.layers).sum + contextBytes 1 ≤ 2 ^ 21)) ∧
    (∀ x, x ∈ [1, 0x502, 0x602, 0x503] → ∃ g : CmdRegs, AMap.get? [(0, { CmdRegs.zero with pending := some x })] 0 = some g ∧ g.pending = some x) := by
  refine ⟨?_, ⟨_, _, rfl, List.mem_singleton.mpr rfl, by decide⟩, ⟨rfl, rfl, by decide⟩, ?_, by decide, ?_, by decide, fun x _ => ⟨_, rfl, rfl⟩⟩
  · intro idem h
    exact ⟨_, rfl, ⟨rfl, rfl, rfl⟩, rfl, rfl, rfl, rfl⟩
  · intro op h
    simp only [List.mem_cons, List.not_mem_nil, or_false] at h
    rcases h with rfl | rfl | rfl | rfl | rfl | rfl | rfl | rfl <;>
      
      refine ⟨fun d hd => ⟨List.ne_nil_of_mem hd, ?_⟩, ⟨rfl, rfl⟩, rfl, by decide, ⟨rfl, rfl, rfl⟩, by decide, rfl⟩ <;>
      revert d <;> decide
  · intro n hn cap hc
    simp only [List.mem_cons, List.not_mem_nil, or_false] at hn hc
    rcases hn with rfl | rfl <;> rcases hc with rfl | rfl <;> exact ⟨⟨by decide, fun _ => by decide⟩, by decide, rfl, ⟨rfl, rfl⟩, rfl, by decide, by decide⟩

/-- The context after an instruction. -/
def ctxAfter (o : Out State) : Option (Nat × List Nat × Nat) :=
  (AMap.get? (after o).contexts 5).map fun A => (A.next, A.frontier, A.abandoned)

/-- Publishing 0 carries the frontier over 1 (R257, R262); abandoning takes every layer (R264). -/
theorem test_ctx_pub : ctxAfter (exec (.ctxServe 0 0) (ctxWorld (.pub 5 0 0 1))) = some (4, [2, 0], 0) := by decide
theorem test_ctx_abn : ctxAfter (exec (.ctxServe 0 0) (ctxWorld (.abn 9 5 0 4))) = some (4, [4, 4], 4) := by decide
theorem test_ctx_abn_published : ctxAfter (exec (.ctxServe 0 0) (ctxWorld (.abn 9 5 1 1))) = some (4, [0, 0], 1) := by decide

/-- The header of a peer's packet on port 4, from device 8. -/
def hdr (kind : Nat) (seq : Nat := 0) : PktHdr :=
  { port := 4, tagOk := true, ver := 2, kind := kind, src := 8, job := 9, queue := 1, rcnt := 0, win := 3, seq := seq }

/-- Stream 7, bound to scratchpad 512 of the grid, and its ring's RSEQ. -/
def inbox (peers wseq : Nat) (due : Bool) (reply : Option PktHdr := none) : Stream :=
  { grid := 0, off := 512, peers := peers, wseq := wseq, due := due, reply := reply }

/-- A warp whose only request is a TOKSEND to this device. -/
def tokWarp (st : Option Nat) (peer : Nat := 0x1FF) : Warp :=
  { waiting (.mem 0) with reqs := [Warp.newReq (warp []) .fb (.toksend 9 peer 7 0xABCD st)], nextReq := 1 }
def tokWorld (st : Option Nat) (rseq : Nat) (e : Stream) : State :=
  { world (tokWarp st) Memory.empty Memory.empty (Memory.write Memory.empty 512 4 rseq) with streams := [(7, e)] }

theorem witness_TokensTravel :
    (∀ a : Bool × Word, a ∈ [(true, (0x01FF0007 : Word)), (false, 0x01FF0007), (false, 0x02000000), (false, 0x100)] →
      ∃ c, State.ctx? (world { warp [(6, a.2)] with tvec := 64, idem := a.1 }) = some c ∧ Ctx.mayTrap c ∧ c.warp.idem = a.1 ∧
        (Warp.s c.warp 6) = a.2) ∧
    (∀ a : Nat × Stream, a ∈ [(0, inbox 0 0 false), (0xFFFFFFFF, inbox 1 62 false), (0xFFFFFFFF, inbox 1 63 false)] →
      ∃ r, (tokWorld none a.1 a.2).warps[0]? = some (tokWarp none) ∧ (tokWarp none).reqs = [r] ∧
        r.op = .toksend 9 0x1FF 7 0xABCD none ∧ r.done = false ∧ (∀ e, e ∈ (tokWorld none a.1 a.2).streams → e.2.due = false) ∧
        AMap.get? (tokWorld none a.1 a.2).streams 7 = some a.2 ∧
        State.badPlace (tokWorld none a.1 a.2) 0 (.scratch 0 0 512) 4 = false ∧
        State.readPlace (tokWorld none a.1 a.2) 0 (.scratch 0 0 512) 4 = a.1) ∧
    (let s : State := { tokWorld none 0xFFFFFFFF (inbox 0x100 62 false) with
       ports := [(4, { Port.zero with up := true })], peers := [(0x10, 2 ^ 32 - 1)] }
     ((AMap.get? s.ports (hdr 5).port).getD Port.zero).up = true ∧ (hdr 5).tagOk = true ∧ (hdr 5).kind = 5 ∧ (hdr 5).ver = 2 ∧
      State.outdated s 8 1 0 = false ∧ (false, 8, 0) ∉ s.seqs ∧ AMap.get? s.streams 7 = some (inbox 0x100 62 false) ∧
      State.badPlace s 0 (.scratch 0 0 512) 4 = false ∧ (inbox 0x100 62 false).peers.testBit (hdr 5).src = true ∧
      (62 + 1 + 2 ^ 32 - State.readPlace s 0 (.scratch 0 0 512) 4) % 2 ^ 32 ≤ 64 ∧
      State.reachable s 0x10 = true ∧ State.paths s 0x10 = [4] ∧ State.paths s 0x11 = [] ∧ State.paths { s with ports := [] } 0x10 = [] ∧
      s.unsent = [] ∧ s.sent = []) ∧
    (∃ G, (tokWorld none 0 (inbox 1 0 true)).grids[0]? = some G ∧ 0 < G.scr.length) ∧
    (∀ due, due ∈ [true, false] → AMap.get? (tokWorld (some 0) 0 (inbox 1 0 due)).streams 7 = some (inbox 1 0 due) ∧
      (inbox 1 0 due).due = due ∧ (inbox 1 0 due).reply = none ∧ (inbox 1 0 due (some (hdr 5))).reply = some (hdr 5)) ∧
    (∀ a, a ∈ [(some 2, 0x1FF), (none, 3)] → ∃ r, (tokWarp a.1 a.2).reqs = [r] ∧ r.op = .toksend 9 a.2 7 0xABCD a.1 ∧ r.done = false ∧
      Writer.req r.id ∈ Warp.writers (Warp.owe (tokWarp a.1 a.2) (.req 0) [9]) 9) := by
  refine ⟨?_, ?_, by decide, ⟨_, rfl, by decide⟩, by decide, ?_⟩
  · intro a h
    simp only [List.mem_cons, List.not_mem_nil, or_false] at h
    rcases h with rfl | rfl | rfl | rfl <;> exact ⟨_, rfl, ⟨rfl, rfl, rfl⟩, rfl, by decide⟩
  · intro a h
    simp only [List.mem_cons, List.not_mem_nil, or_false] at h
    rcases h with rfl | rfl | rfl <;> exact ⟨_, rfl, rfl, rfl, rfl, by decide, rfl, by decide, by decide⟩
  · intro a h
    simp only [List.mem_cons, List.not_mem_nil, or_false] at h
    rcases h with rfl | rfl <;> exact ⟨_, rfl, rfl, rfl, by decide⟩

/-- What scratchpad of grid 0 holds after an instruction. -/
def scratchAfter (o : Out State) (a n : Nat) : Nat :=
  match (after o).grids with
  | G :: _ => (G.scr.head?.map fun m => Memory.read m a n).getD 0
  | [] => 0

theorem test_token_write : scratchAfter (exec (.tokenInboxWrite (.own 0 0)) (tokWorld none 0xFFFFFFFF (inbox 1 62 false))) (512 + 64 + 8 * 63) 8 =
    0xABCD * 2 ^ 32 + 63 := by decide
theorem test_token_full : (after (exec (.tokenInboxWrite (.own 0 0)) (tokWorld none 0xFFFFFFFF (inbox 1 63 false)))).streams =
    [(7, inbox 1 63 false)] := by decide
/-! ### The fabric -/

/-- Window 3: 64 KiB at 0x100000 of context 1, exported to job 9. -/
def window (valid : Bool := true) (ro : Bool := false) : Window :=
  { base := 0x100000, lenm1 := 0, asid := 1, job := 9, forest := 0, kind := 0, ro := ro, valid := valid, past := [9], revoking := false }

/-- A warp with one FAX of lane 31 through window 3, and a state in which its packet has been accepted. -/
def reqWarp (peer : Nat) (op : FaxOp) (off : DWord) (land : List Land := []) (two : Bool := false) : Warp :=
  let r := Warp.newReq (warp []) .fb (.fax peer 3 op [[31]] [])
  { warp [] with
    reqs := [{ r with todo := ⟨31, off, 5, 0, []⟩ :: (if two then [⟨30, 0, 0, 0, []⟩] else []), land := land, run := some 0 }], nextReq := 1 }
def homeWorld (W : Warp) (homes : List Home := []) (e : Window := window) : State :=
  { world W (Memory.write Memory.empty 0x10FFFC 4 0xFFFFFFFE) with
    windows := [(3, e)], homes := homes, jobs := [(1, 9)], fabid := 2, ports := [(4, { Port.zero with up := true })]
    peers := [(5, 0x10), (8, 0x10), (0x10, 0x30)]
    tlb := [{ page (.port 0) 0x100000 true false with d := true }] }
/-- The accepted packet. -/
def accepted (op : FaxOp) (src : HomeSrc := .own 0 0) : Home :=
  { id := 0, src := src, job := 9, off := 0, passed := 0, win := 3, op := op, todo := [(31, 0xFFFC, 5, 0)], answers := [] }
/-- A peer's store. -/
def peerReq (off : Nat) : PeerReq := { h := hdr 1, fn := 2, ty := .b32, lanes := [(0, off, 0xABCD, 0)] }
/-- A window command. -/
def winCmd (x : Nat) (valid revoking : Bool) (arg1 : Nat := 0x100000) : State :=
  { homeWorld (warp []) [] { window valid with revoking := revoking } with
    winRegs := { pending := some x, arg0 := 1, arg1 := arg1, res := 0 } }

theorem witness_FabricHomeServes :
    (∀ a : Nat × FaxOp × DWord, a ∈ [(0x1FF, .atomic .add .n32 (some 9), (0xFFFC : DWord)), (2, .ld .b64 9, 0xFFF8), (0x1FF, .ldg 8, 0xFFE0),
        (0x1FF, .st 4, 0xFFFC), (0x1FF, .st 4, 0x10000)] →
      let W := reqWarp a.1 a.2.1 a.2.2
      let s := homeWorld W
      (∃ r, s.warps[0]? = some W ∧ W.reqs = [r] ∧ r.path = .fb ∧ r.done = false ∧ r.op = .fax a.1 3 a.2.1 [[31]] [] ∧
        (∀ x, x ∈ r.todo → x.lane = 31)) ∧ s.fabid = 2 ∧ s.homes = [] ∧
      (Window.check (State.window s 3) 9 a.2.1 a.2.2.toNat (FaxOp.size a.2.1) false = 0 ↔ a.2.2 ≠ 0x10000) ∧
      FaxOp.onForest a.2.1 = false ∧
      ∃ u pa, State.homePlace s (State.window s 3) a.2.1 0xFFE0 = some (u, pa) ∧ Memory.uncorrectable u.main pa (FaxOp.size a.2.1) = false ∧
        State.inForest s pa (FaxOp.size a.2.1) = false) ∧
    (let s := homeWorld (reqWarp 0x1FF (.atomic .add .n32 (some 9)) 0xFFFC) [accepted (.atomic .add .n32 (some 9))];
      (∃ u, State.homePlace s (State.window s 3) (.atomic .add .n32 (some 9)) 0xFFFC = some (u, 0x10FFFC)) ∧
      Memory.uncorrectable s.main 0x10FFFC 4 = false ∧ State.inForest s 0x10FFFC 4 = false) ∧
    (let s := homeWorld (warp []) [accepted (.st 4) (.peer 8 1 0)];
      (∃ u, State.homePlace s (State.window s 3) (.st 4) 0xFFFC = some (u, 0x10FFFC)) ∧
      (accepted (.st 4) (.peer 8 1 0)).src = .peer 8 1 0 ∧ State.inForest s 0x10FFFC 4 = false) ∧
    (State.reachable (homeWorld (warp [])) 0x10 = true ∧ State.reachable (homeWorld (warp [])) 0 = false ∧
      ((AMap.get? (homeWorld (warp [])).ports (hdr 1).port).getD Port.zero).up = true ∧
      (false, 8, 0) ∉ (homeWorld (warp [])).seqs ∧ (false, 8, 0) ∈ ({ homeWorld (warp []) with seqs := [(false, 8, 0)] } : State).seqs) ∧
    (∃ r it rest, (reqWarp 5 (.ld .b32 9) 0 [] true).reqs = [r] ∧ r.todo = it :: rest ∧ (∀ x, x ∈ rest → x.lane ≠ it.lane) ∧ rest ≠ []) ∧
    (State.outdated (homeWorld (warp [])) 8 1 0 = false ∧
      Window.check (State.window (homeWorld (warp [])) 3) 9 (faxOfFn 2 .b32) 0xFFFC 4 false = 0 ∧
      Window.check (State.window (homeWorld (warp [])) 3) 9 (faxOfFn 2 .b32) 0x10000 4 false = 3) ∧
    (∀ a : Nat × Bool × Bool, a ∈ [(0x301, true, false), (0x301, false, false), (0x302, true, false), (0x302, true, true)] →
      ∃ x, (winCmd a.1 a.2.1 a.2.2).winRegs.pending = some x ∧ 3 = bits x 15 8 ∧
        (State.window (winCmd a.1 a.2.1 a.2.2) 3).valid = a.2.1 ∧ (State.window (winCmd a.1 a.2.1 a.2.2) 3).revoking = a.2.2) := by
  refine ⟨?_, ⟨⟨_, rfl⟩, by decide, by decide⟩, ⟨⟨_, rfl⟩, rfl, by decide⟩, by decide, ⟨_, _, _, rfl, rfl, by decide, by decide⟩,
    by decide, ?_⟩
  · intro a h
    simp only [List.mem_cons, List.not_mem_nil, or_false] at h
    rcases h with rfl | rfl | rfl | rfl | rfl <;>
      exact ⟨⟨_, rfl, rfl, rfl, rfl, rfl, by decide⟩, rfl, rfl, by decide, by decide, _, _, rfl, by decide, by decide⟩
  · intro a h
    simp only [List.mem_cons, List.not_mem_nil, or_false] at h
    rcases h with rfl | rfl | rfl | rfl <;> exact ⟨_, rfl, by decide, rfl, rfl⟩

theorem test_home_atomic : Memory.read (after (exec (.faxHomeServe (.lane 0 31))
    (homeWorld (reqWarp 0x1FF (.atomic .add .n32 (some 9)) 0xFFFC) [accepted (.atomic .add .n32 (some 9))]))).main 0x10FFFC 4 = 3 := by decide
/-- A peer's store inside the window is accepted, and its duplicate changes nothing (R288, R296). -/
theorem test_home_accepts : (after (exec (.faxHomeServe (.peer (peerReq 0xFFFC) false)) (homeWorld (warp [])))).homes.length = 1 ∧
    (after (exec (.faxHomeServe (.peer (peerReq 0xFFFC) false)) { homeWorld (warp []) with seqs := [(false, 8, 0)] })).homes = [] := by
  decide
theorem test_write_window_inuse : (after (exec .writeWindow (winCmd 0x301 true false))).winRegs.res = 2 ∧
    (after (exec .writeWindow (winCmd 0x301 false false 0x100001))).winRegs.res = 1 := by decide

/-- A bitmap of 64 bytes at scratchpad 256. -/
def groupWorld (bm : Nat) (perm : Nat) (k : Wait := .ready) : State :=
  { world (Warp.owe (waiting k { warp [(4, 3), (5, 0x100), (6, 0x10000100), (7, 32)] with tvec := 64 }) (.frag 0) (Wait.dests k)) Memory.empty Memory.empty (Memory.write Memory.empty 256 64 bm) with
    grpperm := perm, jobs := [(1, 9)], fabid := 2, windows := [(0, window)]
    tlb := [{ page (.port 0) 0x100000 true false with d := true }] }
/-- A record of a multicast of 64 bytes to devices 2 and 7. -/
def mrec (chip : Option Nat) (left : List Nat) (done : Bool) : MRec :=
  { req := 0, job := 9, group := 3, win := 0, off := 32, len := 64, line := 5 * 2 ^ 256 + 1, chip := chip, left := left, members := 2, pos := 0,
    neg := [], done := done }
def fmcWarp (m : MRec) (open_ : Bool := true) : Warp :=
  { warp [(4, 8), (5, 9)] with
    tvec := 64, mrecs := [(0, m)], nextReq := 1, reqs := if open_ then [Warp.newReq (warp []) .fb (.fmc 0)] else [] }
def fmcWorld (m : MRec) (open_ : Bool := true) : State :=
  { groupWorld 0 0 with warps := [fmcWarp m open_], ports := [(4, { Port.zero with up := true })]
                        peers := [(7, 0x10), (0x10, 0x30), (0x20, 0x20)]
                        groups := [(256 * 9 + 3, ⟨0x84, List.replicate 32 (0x84, true)⟩)] }

theorem witness_MulticastWorks :
    (∀ a : Nat × Nat, a ∈ [(2 ^ 511, 0x10001), (2 ^ 510 + 1, 0x10001), (5, 0x10000), (5, 0x20001)] →
      ∃ c, State.ctx? (groupWorld a.1 a.2) = some c ∧ Ctx.mayTrap c ∧
        (State.mayGroup (groupWorld a.1 a.2) (State.asidOf (groupWorld a.1 a.2) c.warp) = true ↔ a.2 = 0x10001) ∧
        (Warp.s c.warp 4) = 3 ∧ (Warp.s c.warp 5).toNat = 256 ∧ (Warp.s c.warp 6) = 0x10000100 ∧ (Warp.s c.warp 7) = 32 ∧
        State.chipRange (groupWorld a.1 a.2) c.warp .scratch 256 64 = none ∧
        State.badPlace (groupWorld a.1 a.2) 0 (State.placeOf (groupWorld a.1 a.2) c.warp .scratch 256) 64 = false ∧
        State.badLine (groupWorld a.1 a.2) 0 c.warp .scratch 256 64 = none ∧
        c.warp.reqs = [] ∧ c.warp.mtouch = [] ∧ AMap.get? c.warp.mrecs 0 = none ∧ c.warp.queue = [] ∧ c.warp.exec = none ∧
        c.warp.laneTrap = none ∧ Warp.fabricTrap c.warp = false) ∧
    (∀ done, done ∈ [true, false] → ∃ c R, State.ctx? (fmcWorld (mrec none [] done)) = some c ∧ Ctx.mayTrap c ∧
      AMap.get? c.warp.mrecs ((Warp.s c.warp 4).toNat % 8) = some R ∧ R.done = done ∧ AMap.get? c.warp.mrecs ((Warp.s c.warp 5).toNat % 8) = none ∧
      ∃ r, r ∈ c.warp.reqs ∧ r.path = .fb) ∧
    (∀ n, n ∈ [0, 31] → let k : Wait := .fgrp 9 9 3 5 ((List.range n).map fun i => (i, true))
      let c : Ctx := ctx (Warp.owe (waiting k { warp [(4, 3), (5, 0x100), (6, 0x10000100), (7, 32)] with tvec := 64 }) (.frag 0) [9])
        (frag 0 [] k)
      Ctx.owns c 9 ∧ Ctx.stands c (groupWorld 0 0 k) ∧ c.frag.wait = k ∧ (∀ x, x ∈ ((List.range n).map fun i => (i, true)) → x.1 ≠ 31)) ∧
    (∀ m, m ∈ [mrec none [] false, mrec (some 4) [2, 7] false, mrec (some 4) [7] false] →
      ∃ r, (fmcWorld m).warps[0]? = some (fmcWarp m) ∧ AMap.get? (fmcWarp m).mrecs 0 = some m ∧ m.done = false ∧ (fmcWarp m).reqs = [r] ∧
        r.id = m.req ∧ r.op = .fmc 0 ∧ r.done = false ∧ (∀ e, e ∈ (fmcWarp m).mrecs → e.2 = m)) ∧
    (State.livePort (fmcWorld (mrec none [] false)) 4 = true ∧
      (State.group (fmcWorld (mrec none [] false)) 9 3).chips[4]? = some (0x84, true) ∧
      State.chips (fmcWorld (mrec none [] false)) 9 3 = [4] ∧
      State.chips { fmcWorld (mrec none [] false) with ports := [] } 9 3 = [] ∧
      (fmcWorld (mrec none [] false)).unsent = [] ∧ (fmcWorld (mrec none [] false)).sent = [] ∧
      State.reachable (fmcWorld (mrec (some 4) [7] false)) 7 = true ∧
      State.reachable { fmcWorld (mrec (some 4) [7] false) with ports := [] } 7 = false ∧
      State.reachable (fmcWorld (mrec none [] false)) 0x10 = true ∧ State.reachable (fmcWorld (mrec none [] false)) 0x20 = false) ∧
    (let s := fmcWorld (mrec (some 4) [2, 7] false)
     s.fabid ∈ [2, 7] ∧ s.homes = [] ∧ Window.check (State.window s 0) 9 (.st 32) 32 64 false = 0 ∧
      ∃ u, State.homePlace s (State.window s 0) (.st 32) 64 = some (u, 0x100040)) := by
  refine ⟨?_, ?_, ?_, ?_, ⟨by decide, rfl, by decide, by decide, rfl, rfl, by decide, by decide, by decide, by decide⟩, by decide, rfl, by decide, _, rfl⟩
  · intro a h
    simp only [List.mem_cons, List.not_mem_nil, or_false] at h
    rcases h with rfl | rfl | rfl | rfl <;>
      exact ⟨_, rfl, ⟨rfl, rfl, rfl⟩, by decide, rfl, rfl, rfl, rfl, by decide, by decide, by decide, rfl, rfl, rfl, rfl, rfl, rfl, rfl⟩
  · intro done h
    exact ⟨_, mrec none [] done, rfl, ⟨rfl, rfl, rfl⟩, by cases done <;> decide, rfl, by cases done <;> decide, _, List.mem_singleton.mpr rfl, rfl⟩
  · intro n h
    simp only [List.mem_cons, List.not_mem_nil, or_false] at h
    rcases h with rfl | rfl <;> exact ⟨⟨by decide, fun _ => by decide⟩, ⟨rfl, rfl⟩, rfl, by decide⟩
  · intro m h
    simp only [List.mem_cons, List.not_mem_nil, or_false] at h
    rcases h with rfl | rfl | rfl <;> exact ⟨_, rfl, rfl, rfl, rfl, rfl, rfl, rfl, by decide⟩

theorem test_fgrp_last_ack : (let k : Wait := .fgrp 9 9 3 5 ((List.range 31).map fun i => (i, true))
    (after (exec (.groupTableUpdate 0 0 31 false) (groupWorld 0 0 k))).warps.map fun W => Warp.s W 9) = [2] := by decide
theorem test_multicast_own_member : (after (exec (.multicastLineServe (.own 0 0 false)) (fmcWorld (mrec (some 4) [2, 7] false)))).homes.map
    (fun h => h.todo.map fun t => (t.1, t.2.1, t.2.2.1)) = [[(0, 32, 1), (1, 64, 5)]] := by decide +kernel

theorem witness_FabricEventsAct :
    (∀ a : Bool × Nat × Bool × Bool, a ∈ [(true, 2 ^ 35 - 1, false, true), (true, 2 ^ 35, true, false)] →
      let P : Port := { Port.zero with up := a.1, counter := a.2.1, alarm := a.2.2.1, want := a.2.2.2 }
      let p : Sent := { kind := 1, dst := 5, data := [], lanes := [31], port := some 31, owner := some (0, 0) }
      let s : State := { homeWorld (reqWarp 5 (.ld .b32 9) 0) with
        ports := [(31, P), (4, { Port.zero with up := true })], sent := [p], laterep := [5 * 2 ^ 32 + 1], hints := [(3, 5)] }
      (AMap.get? s.ports 31).getD Port.zero = P ∧ ((31, 6) ∉ s.hints) ∧ (31 : Nat) < 32 ∧
      State.paths s 5 = [4] ∧ State.paths { s with ports := [] } 5 = [] ∧ s.laterep ≠ [] ∧ s.unsent = [] ∧
      State.unanswered s p = true ∧ State.unanswered { s with warps := [warp []] } p = false ∧
      (∀ o, o ∈ s.sent → o.again = false) ∧
      ∃ r : Req, s.warps[0]? = some (reqWarp 5 (.ld .b32 9) 0) ∧ (reqWarp 5 (.ld .b32 9) 0).reqs = [r] ∧ r.path = .fb ∧ r.done = false ∧
        r.op = .fax 5 3 (.ld .b32 9) [[31]] [] ∧ s.fabid ≠ 5) ∧
    ((1 : Nat) + 1) % 2 ^ 16 = 2 := by
  refine ⟨?_, by decide⟩
  intro a h
  simp only [List.mem_cons, List.not_mem_nil, or_false] at h
  rcases h with rfl | rfl <;> exact ⟨rfl, by decide, by decide, by decide, by decide, by decide, rfl, by decide, by decide, by decide,
    _, rfl, rfl, rfl, rfl, rfl, by decide⟩
/-! ### System registers, queues and launch -/

/-- A warp that saves and restores at 0x100000 + S[5], on a core with a grant and a counter. -/
def sysWarp (x : Word) (k : Wait) : Warp :=
  let b1 : Bank := { Bank.empty with trq := List.replicate 4 ⟨true, false, false, entry 0 0⟩ }
  let b2 : Bank := { Bank.empty with trq := List.replicate 4 ⟨true, false, true, entry 0 1⟩ }
  waiting k { warp [(5, x), (9, 0xAA)] with tvec := 64, tsbase := 0x100000, bank1 := b1, bank2 := b2 }
def sysWorld (x : Word) (k : Wait := .ready) : State :=
  { boundWorld (sysWarp x k) with grants := [(0, 1)], events := [(0, ⟨some 2, 77, 1⟩ :: List.replicate 7 ⟨none, 0, 0⟩)] }

theorem witness_SystemRegistersAndServices :
    (∀ a, a ∈ [(512 : Word), 8, 0xFE00] → ∃ c, State.ctx? (sysWorld a) = some c ∧ Ctx.mayTrap c ∧ c.warp.bank1.trq.length = 4 ∧
      c.warp.bank2.trq.length = 4 ∧ (∃ t, c.warp.bank2.trq[3]? = some t) ∧ c.warp.mtouch = [] ∧
      State.inForest (sysWorld a) (0x100000 + a.toNat) 512 = false ∧
      (∃ t, c.warp.bank1.trq[3]? = some t) ∧ c.warp.reqs = [] ∧
      (∀ e o, e ∈ (sysWorld a).arrays → o ∈ e.2.ops → o.w = c.w → MWork.handle? o.work = none) ∧
      (∀ f, f ∈ Warp.live c.warp → ∀ l v n, f.2.wait ≠ .save l v n) ∧
      ((c.warp.tsbaseh.toNat * 2 ^ 32 + c.warp.tsbase.toNat + (Warp.s c.warp 5).toNat) % 512 = 0 ↔ a ≠ 8) ∧
      (State.coreOf (sysWorld a) c.warp, State.asidOf (sysWorld a) c.warp) ∈ (sysWorld a).grants ∧
      (∀ w, w ∈ [true, false] → State.lies (sysWorld a) c.warp (.main (0x100000 + a.toNat)) w = some (.main (0x100000 + a.toNat))) ∧
      Memory.uncorrectable (sysWorld a).main (0x100000 + a.toNat) 512 = false) ∧
    (∀ note, note ∈ [true, false] → ∃ c, State.ctx? (sysWorld 0 (.svc 9 note)) = some c ∧ c.frag.wait = .svc 9 note ∧
      Ctx.owns { c with warp := Warp.owe c.warp (.frag 0) [9] } 9) ∧
    (∃ e : EvCounter, ((AMap.get? (sysWorld 0).events 0).getD [])[0]? = some e ∧ e.source = some 2) ∧
    (∃ g, (sysWorld 0).grids[0]? = some g ∧ g.status = .live ∧ 0 ∈ g.dies ∧ 3520 + 576 ≤ g.scrLen ∧ 3520 % 64 = 0) ∧
    (∃ c, State.ctx? (world (warp [])) = some c ∧
      (State.coreOf (world (warp [])) c.warp, State.asidOf (world (warp [])) c.warp) ∉ (world (warp [])).grants) ∧
    ((255 : Nat) < 256 ∧ (2 ^ 511 - 1).testBit 511 = false) := by
  refine ⟨?_, fun note _ => ⟨_, rfl, rfl, (fun h => by cases h), fun _ => List.mem_of_elem_eq_true rfl⟩, ⟨_, rfl, rfl⟩, ⟨grid, rfl, rfl, by decide, by decide, by decide⟩, ⟨_, rfl, by decide⟩,
    by decide +kernel⟩
  intro a h
  simp only [List.mem_cons, List.not_mem_nil, or_false] at h
  rcases h with rfl | rfl | rfl <;>
    exact ⟨_, rfl, ⟨rfl, rfl, rfl⟩, rfl, rfl, ⟨_, rfl⟩, rfl, by decide, ⟨_, rfl⟩, rfl, (fun e o h => by cases h),
      (fun f hf l v n => by rw [List.mem_singleton.mp hf]; exact Wait.noConfusion), by decide, by decide, by decide, by decide⟩

theorem test_ssave : Memory.read (after (exec (.ssave 5) (sysWorld 512))).main (0x100200 + 36) 4 = 0xAA := by decide +kernel
theorem test_evrd : (after (exec (.evrd 20 0) (sysWorld 0))).warps.map (fun W => (Warp.s W 20, Warp.s W 21)) = [(77, 0)] := by decide
theorem test_wrsr_tstate_ignored : (after (exec (.wrsr 9 2) (sysWorld 0))).warps.map (fun W => (W.tlev, W.idem)) = [(0, false)] := by decide

/-- A packet of an opcode with a body, its version and no flags. -/
def packet (op body : Nat) : Packet := { va := 0x5000, x := op + 2 ^ 12 + body }
/-- The world in which queue 0 has a packet, perhaps inside a buffer. -/
def queueWorld (p : Packet) (levels : List (Nat × Nat) := []) (state : QState := .running) : State :=
  { world (warp []) (Memory.write (Memory.write Memory.empty 0x100008 8 7) 0x100100 64 0) with
    tlb := [{ page .ringmaster 0x100000 true false with d := true }, { page .hub 0x100000 true false with d := true }],
    queues := [(0, { Queue.zero with base := 0x100000, asid := 1, enable := true, state := state, wptr := 3, levels := levels, pre := [p] })],
    hosts := [(0, 1)] }
/-- A WAITSIG for the signal 7 at 0x100008 with a condition and a value. -/
def waitsig (cond v : Nat) : Packet := packet 4 (cond * 2 ^ 32 + 0x100008 * 2 ^ 64 + v * 2 ^ 128 + 2 ^ 192)

/-- A grid of one team of one warp, handed over by queue 0. -/
def smallOffer (nwarps : Nat := 1) : Grid :=
  Grid.handed 1 0 0x100100 (1 + 2 ^ 10 + 2 ^ 20) nwarps 0 0 0x5000 false (List.replicate 8 0) (diesOf 0) (some 0) none

theorem witness_QueuePacketsServed :
    (∀ p, p ∈ [packet 0 0, packet 11 0, packet 2 0, packet 3 (0x100008 * 2 ^ 64 + 2 ^ 32 + 5 * 2 ^ 128), waitsig 0 7, waitsig 1 7, waitsig 2 7,
        waitsig 3 7, packet 5 (0x100100 * 2 ^ 64 + 2 ^ 128), packet 9 (0x100100 * 2 ^ 64), packet 10 0, packet 0 (2 ^ 40)] →
      State.turn? (queueWorld p) 0 = some p ∧ (State.queue (queueWorld p) 0).state = .running ∧ (queueWorld p).hubCopies.length < 64 ∧
        (p.ok = true ↔ p ≠ packet 0 (2 ^ 40)) ∧ (Queue.past (State.queue (queueWorld p) 0) p).isSome = true) ∧
    (∀ h, h ∈ [true, false] → ({ Queue.zero with harvested := h } : Queue).harvested = h) ∧
    (Queue.past (State.queue (queueWorld (packet 6 0) [(0x100140, 1)]) 0) (packet 6 0)).isSome = true ∧
    State.turn? (queueWorld (packet 1 0)) 0 = some (packet 1 0) ∧
    ((∃ u, State.signalAt (State.endTurn (queueWorld (waitsig 0 7)) 0) .ringmaster 1 0x100008 true = .ok (u, 0x100008)) ∧
      ∃ u, State.signalAt (State.endTurn (queueWorld (waitsig 0 7)) 0) .ringmaster 1 0x100008 false = .ok (u, 0x100008)) ∧
    State.inForest (queueWorld (waitsig 0 7)) 0x100008 8 = false ∧
    (let d := Memory.write Memory.empty 0x100100 64 (0x10000 + 0x20000 * 2 ^ 64 + 2 * 2 ^ 357 + 8 * 2 ^ 376)
     isOk (State.accept { queueWorld (packet 7 0) with main := d } (Grid.handed 1 0 0x100100 (1 + 2 ^ 10 + 2 ^ 20) 1 0 0 0x5000 false []
       (diesOf 0) (some 0) none)) = true ∧ isOk (State.ringRead (queueWorld (packet 7 0)) 1 0 0) = true ∧
     Packet.launchOk (packet 7 (0x100100 * 2 ^ 64 + (1 + 2 ^ 10 + 2 ^ 20) * 2 ^ 128)) = true ∧ teamCount (24 + 2 ^ 10 + 2 ^ 20) ≤ 24) := by
  refine ⟨?_, by decide, by decide +kernel,
    by decide +kernel,
    ⟨⟨_, rfl⟩, _, rfl⟩, by decide,
    by decide +kernel, by decide +kernel, by decide +kernel, by decide⟩
  intro p h
  simp only [List.mem_cons, List.not_mem_nil, or_false] at h
  rcases h with rfl | rfl | rfl | rfl | rfl | rfl | rfl | rfl | rfl | rfl | rfl | rfl <;> decide +kernel

/-- Queue 0's state, reason and QRPTR after an instruction. -/
def queueAfter (o : Out State) : QState × Nat × Nat :=
  let Q := State.queue (after o) 0
  (Q.state, Q.reason, Q.rptr)

theorem test_waitsig : queueAfter (exec (.waitsig 0) (queueWorld (waitsig 2 7))) = (.running, 0, 1) ∧
    queueAfter (exec (.waitsig 0) (queueWorld (waitsig 3 7))) = (.waiting, 0, 0) := by decide +kernel
theorem test_bad_packet : queueAfter (exec (.nopPacket 0) (queueWorld (packet 0 (2 ^ 40)))) = (.halted, 2, 0) ∧
    queueAfter (exec (.nopPacket 0) (queueWorld (packet 11 0))) = (.halted, 1, 0) := by decide +kernel

/-- A hub copy of 40 bytes between the two ends of a page. -/
def hubCopy (done : List Nat) (sigVA : Nat) : HubCopy :=
  { queue := 0, packet := 0x5000, asid := 1, dst := 0x100810, src := 0x100400, size := 40, sigVA := sigVA, sigVal := 3, done := done,
    stop := .running, late := false, turn := 0, moved := 0 }
def hubWorld (c : HubCopy) : State := { queueWorld (packet 0 0) with hubCopies := [(0, c)], main := Memory.write Memory.empty 0x100400 1 9 }

theorem witness_QueuesAreControlled :
    (∀ st, st ∈ [QState.idle, .running, .waiting, .halted, .resetting] → ∀ n, n ∈ [16, 17, 0xFFFFFFFF] →
      (State.queue (queueWorld (packet 0 0) [] st) 0).state = st ∧ (State.queue (queueWorld (packet 0 0) [] st) 0).unacked = [] ∧
        ((n + 2 ^ 32 - (State.queue (queueWorld (packet 0 0) [] st) 0).rptr) % 2 ^ 32 ≤ 2 ^ (State.queue (queueWorld (packet 0 0) [] st) 0).size ↔ n = 16)) ∧
    (∀ p, p ∈ [packet 9 (0x100100 * 2 ^ 64), packet 7 0, packet 8 0, packet 10 0, waitsig 0 7] →
      (State.queue (queueWorld p [] .waiting) 0).pre = p :: [] ∧ (State.queue (queueWorld p [] .waiting) 0).xlate = none ∧
        State.queueLate (queueWorld p [] .waiting) 0 = false ∧ State.liveGrids (queueWorld p [] .waiting) < 4096) ∧
    (AMap.get? (queueWorld (packet 0 0)).hosts 0 = some 1 ∧ AMap.get? (queueWorld (packet 0 0)).hosts 0 ≠ some 2 ∧
      (let Q : Queue := { State.queue (queueWorld (packet 0 0)) 0 with pre := [], levels := [(0x100140, 0)] }
       Q.state = .running ∧ 0 = Q.rptr ∧ ∀ l, l ∈ Q.levels → l.2 = 0)) ∧
    ((waitsig 0 7).satisfied (Memory.read (queueWorld (waitsig 0 7)).main 0x100008 8) = true ∧ bits (waitsig 0 7).x 223 192 ≠ 0) ∧
    (∃ N va rest, Queue.pastAll (State.queue (queueWorld (packet 0 0)) 0).pre (State.queue (queueWorld (packet 0 0)) 0) = some N ∧
      Queue.take? N = some (va, rest) ∧ isOk (State.ringRead (queueWorld (packet 0 0)) 1 va 64) = true) ∧
    (AMap.get? (hubWorld (hubCopy [] 0)).hubCopies 0 = some (hubCopy [] 0) ∧ (hubCopy [] 0).left = [0x8040, 0x8041] ∧
      AMap.get? (hubCopy [] 0).ready 0x8040 = none ∧
      AMap.get? ({ hubCopy [] 0 with ready := [(0x8040, 0x100810, 9)] } : HubCopy).ready 0x8040 = some (0x100810, 9) ∧
      (∀ e, e ∈ (hubWorld (hubCopy [] 0)).hubCopies → State.hubActive (hubWorld (hubCopy [] 0)) e.2 = true →
        (hubCopy [] 0).turn ≤ e.2.turn) ∧
      State.hubAhead (hubWorld (hubCopy [] 0)) (hubCopy [] 0) 0x8040 = [] ∧
      (hubCopy [] 0).moved < 7 ∧ ¬ ({ hubCopy [] 0 with moved := 7 } : HubCopy).moved < 7 ∧
      isOk (State.hubRead (hubWorld (hubCopy [] 0)) 1 16 0x100400) = true ∧
      isOk (State.translate (hubWorld (hubCopy [] 0)) .hub 1 0x100810 .write) = true) ∧
    ((hubCopy [0x8040, 0x8041] 0x100008).left = [] ∧
      State.physBytes (hubWorld (hubCopy [0x8040, 0x8041] 0x100008)) 1 0x100810 40 = [] ∧
      isOk (State.signalAt (hubWorld (hubCopy [0x8040, 0x8041] 0x100008)) .hub 1 0x100008 true) = true) := by
  refine ⟨?_, ?_, by decide +kernel, by decide +kernel, ⟨_, _, _, rfl, rfl, by decide +kernel⟩, by decide +kernel,
    by decide +kernel⟩
  · intro st hs n hn
    simp only [List.mem_cons, List.not_mem_nil, or_false] at hs hn
    rcases hs with rfl | rfl | rfl | rfl | rfl <;> rcases hn with rfl | rfl | rfl <;> decide +kernel
  · intro p h
    simp only [List.mem_cons, List.not_mem_nil, or_false] at h
    rcases h with rfl | rfl | rfl | rfl | rfl <;> decide +kernel

theorem test_hub_copy : Memory.read (after (exec (.hubCopyBlock 0 0x8040) (hubWorld (hubCopy [] 0)))).main 0x100810 1 = 9 ∧
    (after (exec (.hubCopyBlock 0 0x8040) (hubWorld (hubCopy [] 0)))).hubCopies.map (fun e => e.2.done) = [[0x8040]] := by decide +kernel
theorem test_doorbell_overrun : queueAfter (exec (.doorbell ⟨none, 0⟩ 17) (queueWorld (packet 0 0))) = (.halted, 2, 0) ∧
    queueAfter (exec (.doorbell ⟨some 1, 0⟩ 16) (queueWorld (packet 0 0))) = (.running, 0, 0) := by decide +kernel

/-- A copy whose second granule's source is uncorrectable, before its first is written and after (R346); one that waits for
the supervisor; and a halted queue with a signal update due (R370). -/
theorem witness_HubCopiesFailAndResume :
    (let s (c : HubCopy) : State := { hubWorld c with main := Memory.spoil (hubWorld c).main 0x100420 }
     let c : HubCopy := { hubCopy [] 0 with ready := [(0x8040, 0x100810, 9)] }
     let e : HubCopy := hubCopy [0x8040] 0
     (∃ pa, State.hubRead (s c) c.asid (c.span 0x8041).2 (c.src + (c.span 0x8041).1) = .error (.unc pa)) ∧
     c.left = [0x8040, 0x8041] ∧ AMap.get? c.ready 0x8041 = none ∧ AMap.get? c.ready 0x8040 ≠ none ∧
     (∃ pa, State.hubRead (s e) e.asid (e.span 0x8041).2 (e.src + (e.span 0x8041).1) = .error (.unc pa)) ∧
     e.left = [0x8041] ∧ AMap.get? e.ready 0x8041 = none ∧ (State.queue (s e) e.queue).state = .running ∧
     (∀ x, x ∈ (s c).hubCopies → State.hubActive (s c) x.2 = true → c.turn ≤ x.2.turn) ∧
     (∀ x, x ∈ (s e).hubCopies → State.hubActive (s e) x.2 = true → e.turn ≤ x.2.turn) ∧
     ({ c with last := some 0x8041 } : HubCopy).left = [0x8040]) ∧
    (let c : HubCopy := { hubCopy [0x8040] 0 with stop := .asked }
     0x8041 ∈ c.left ∧ AMap.get? c.ready 0x8041 = none ∧ (∀ h, h ∈ c.left → 0x8041 ≤ h) ∧
       (State.queue (hubWorld c) c.queue).state ≠ .resetting) ∧
    (let s : State := { queueWorld (packet 0 0) [] .halted with hubCopies := [(0, { hubCopy [0x8040, 0x8041] 8 with late := true, stop := .failed })] }
     (State.queue s 0).state = .halted ∧ State.queueLate s 0 = true) ∧
    (∀ st, st ∈ [QState.running, .waiting] → ({ Queue.zero with state := st, xlate := some 0x5000 } : Queue).xlate = some 0x5000) := by
  refine ⟨⟨⟨_, rfl⟩, by decide, rfl, by decide, ⟨_, rfl⟩, by decide, rfl, by decide, by decide, by decide, by decide⟩,
    by decide, by decide, by decide⟩

/-- A copy that fails at its second granule keeps that granule's destination (R346). -/
theorem test_hub_copy_fails :
    (let c : HubCopy := { hubCopy [0x8040] 0 with last := none }
     let s : State := { hubWorld c with main := Memory.spoil (Memory.write (hubWorld c).main 0x100820 1 5) 0x100420 }
     let t := after (exec (.hubCopyBlock 0 0x8041) s)
     Memory.read t.main 0x100820 1 = 5 ∧ (State.queue t 0).reason = 0x0C ∧ t.hubCopies.map (fun e => e.2.stop) = [.failed]) := by
  decide +kernel

/-- Tokens of a queue's warps cut off by its reset, and those of another's left (R355). -/
theorem witness_ResetCutsTokens :
    (let s : State := { world (warp []) with streams := [(0, ⟨0, 512, 0, 5, true, none, some 0⟩), (1, ⟨0, 1088, 0, 5, true, none, none⟩)] }
     (∃ W, s.warps[0]? = some W ∧ State.queueOf s W = some 0) ∧
       AMap.get? s.streams 0 = some ⟨0, 512, 0, 5, true, none, some 0⟩ ∧
       ((after (exec (.queueReset 0) s)).streams.map fun e => (e.1, e.2.due, e.2.wseq)) = [(0, false, 4), (1, true, 5)]) :=
  ⟨⟨_, rfl, rfl⟩, rfl, by decide⟩

/-- A descriptor's main memory: with its reserved fields, code, registers, spill and VHIGH. -/
def descWorld (x : Nat) : State :=
  { queueWorld (packet 7 0) with main := Memory.write Memory.empty 0x100100 64 x }
/-- A sound descriptor of 64 registers and no images; its lane code is unit 0x20000, scanned with VHIGH 8. -/
def desc (regs : Nat := 2) (spill : Nat := 0) (vhigh : Nat := 8) (shlen : Nat := 0) (rest : Nat := 0) : Nat :=
  0x10000 + 0x20000 * 2 ^ 64 + shlen * 2 ^ 320 + regs * 2 ^ 357 + spill * 2 ^ 361 + vhigh * 2 ^ 376 + rest
/-- Why a descriptor is not accepted, 0 if it is and 99 if one of its images is not there, for a grid of teams of some warps. -/
def refusal (x : Nat) (nwarps : Nat := 1) : Nat :=
  match State.accept (descWorld x) (smallOffer nwarps) with
  | .ok _ => 0
  | .error (.reason r) => r
  | .error _ => 99

/-- Descriptors at the bounds of R348 and of R14, and beyond them. -/
theorem test_descriptors :
    [desc, desc 8 8192, desc (shlen := 512 * 1024), desc (rest := 2 ^ 384), desc (rest := 2 ^ 352), desc 2 8193, desc 1, desc 9,
      desc (shlen := 512 * 1024 + 1), desc (vhigh := 7)].map refusal = [0, 0, 99, 6, 6, 6, 6, 6, 6, 7] ∧
    [refusal desc 32, refusal (desc 5) 32, refusal (desc 4 4097) 17, refusal (desc 4 4097) 16] = [0, 8, 8, 0] := by decide +kernel

/-- Launch packets whose fields are at the bounds of R349, and beyond them. -/
theorem test_launch_fields :
    [((1 : Nat), 8, 0), (1, 4096, 8), (0, 0, 0), (1, 4, 0), (1, 4104, 0), (1, 0, 4), (1, 0, 2 ^ 57)].map (fun x =>
      Packet.launchOk (packet 7 ((x.1 + 2 ^ 10 + 2 ^ 20) * 2 ^ 128 + x.2.1 * 2 ^ 160 + x.2.2 * 2 ^ 256))) =
      [true, true, false, false, false, false, false] := by decide +kernel
/-! ### Launch, pre-emption, scans, the island and the step -/

/-- A launch record at scratchpad 128 for a child of the descriptor at 0x100100. -/
def launchWorld (rec counts n : Nat) (index : Nat := 0) (idem : Bool := false) (depth : Nat := 0) (x : Word := 128) : State :=
  let W : Warp := { warp [(8, x), (9, BitVec.ofNat 32 counts), (10, 192), (11, BitVec.ofNat 32 n)] with tvec := 64, index := index, idem := idem }
  let s := world W (Memory.write Memory.empty 0x100100 64 (0x10000 + 0x20000 * 2 ^ 64 + 2 * 2 ^ 357 + 8 * 2 ^ 376))
  let G : Grid := { grid (Memory.write Memory.empty 128 64 rec) with depth := depth }
  { s with grids := [G], tlb := [{ page .ringmaster 0x100000 true false with d := true }] }

/-- Whether a grid waits for room for its regions. -/
def isFull {α : Type} (e : Except AcceptFail α) : Bool :=
  match e with
  | .error .full => true
  | _ => false

/-- A grid whose next team is to be placed on die 0. -/
def placeWorld (nbhd : Bool) (core : Nat) : State :=
  let G : Grid := { grid with placed := 0, counts := (if nbhd then 2 else 1) + 2 ^ 10 + 2 ^ 20, nbhd := nbhd, teams := [], shLen := 256 }
  let T : Team := { team with core := core }
  { world (warp []) with grids := [G], teams := [T] }

theorem witness_GridsAreLaunchedPlacedAndRetired :
    (let s := launchWorld 0x100100 (1 + 2 ^ 10 + 2 ^ 20) 8
     ∃ c g, State.ctx? s = some c ∧ State.gridOf? s c.warp = some g ∧ Ctx.mayTrap c ∧ c.warp.index = 0 ∧ c.warp.idem = false ∧
      g.depth < 10 ∧ (Warp.s c.warp 8).toNat = 128 ∧ (Warp.s c.warp 10).toNat = 192 ∧ (Warp.s c.warp 11).toNat = 8 ∧
      State.liveGrids s < 4096 ∧ State.chipRead s 0 c.warp .scratch 128 64 c.warp.nextReq = .ok s 0x100100 ∧
      State.chipRead s 0 c.warp .scratch 192 8 c.warp.nextReq = .ok s 0 ∧ launchBad 0x100100 (1 + 2 ^ 10 + 2 ^ 20) 8 = none ∧
      launchBad 0x100100 0 8 = some 0 ∧ State.openRead s 0 c.warp .scratch 128 64 c.warp.nextReq = false ∧ bits (0 : Nat) 9 0 = 0) ∧
    (∀ a : Nat × Nat × Bool × Bool, a ∈ [(1, 0, true, false), (33, 0, false, false), (1, 64 * 2 ^ 20, false, true)] →
      let big : Grid := { grid with scrLen := a.2.1 }
      let s : State := { launchWorld 0 0 0 with grids := [big, smallOffer a.1] }
      s.grids[1]? = some (smallOffer a.1) ∧ (smallOffer a.1).status = .offered ∧ (smallOffer a.1).queue = some 0 ∧
        (smallOffer a.1).xl = none ∧ (State.queue s 0).state = .running ∧ State.liveGrids s < 4096 ∧
        isOk (State.accept s (smallOffer a.1)) = a.2.2.1 ∧ isFull (State.accept s (smallOffer a.1)) = a.2.2.2) ∧
    (∀ a : Nat × Bool × Nat × Word, a ∈ [(1, false, 0, (128 : Word)), (0, true, 0, 128), (0, false, 10, 128), (0, false, 9, 130),
        (0, false, 9, 4032), (0, false, 9, 4096)] →
      ∃ c g, State.ctx? (launchWorld 0x100100 0 8 a.1 a.2.1 a.2.2.1 a.2.2.2) = some c ∧ Ctx.mayTrap c ∧
        State.gridOf? (launchWorld 0x100100 0 8 a.1 a.2.1 a.2.2.1 a.2.2.2) c.warp = some g ∧ g.depth = a.2.2.1 ∧ c.warp.index = a.1 ∧
        c.warp.idem = a.2.1 ∧ (Warp.s c.warp 8) = a.2.2.2) ∧
    (∃ g, (placeWorld false 0).grids[0]? = some g ∧ State.requeued (placeWorld false 0) g = none ∧
      State.nextSite (placeWorld false 0) 0 = some (0, 0, [1])) ∧
    (∃ g, (placeWorld true 79).grids[0]? = some g ∧ g.nbhd = true ∧ State.requeued (placeWorld true 79) g = none ∧
      State.nextSite (placeWorld true 79) 0 = some (0, 0, [0, 8])) ∧
    (∀ sig, sig ∈ [0, 0x100008] →
      let G : Grid := { grid with sigVA := sig }
      let T : Team := { team with status := .ended }
      let s : State := { world spent with grids := [G], teams := [T] }
      s.grids[0]? = some G ∧ G.queue = some 0 ∧ G.status = .live ∧ G.xl = none ∧ State.inForest s 0x100008 8 = false ∧ (State.queue s 0).state ≠ .resetting ∧ State.gridDone s 0 G = true ∧
        isOk (State.signalAt (State.flushAD s fun e => e.asid = G.asid) .ringmaster 1 0x100008 true) = true) := by
  refine ⟨⟨_, _, rfl, rfl, ⟨rfl, rfl, rfl⟩, rfl, rfl, by decide, rfl, rfl, rfl, by decide, by rfl, by rfl, by decide, by decide, by decide, by decide⟩, ?_, ?_,
    ⟨_, rfl, rfl, by decide +kernel⟩, ⟨_, rfl, rfl, rfl, by decide +kernel⟩, ?_⟩
  · intro a h
    simp only [List.mem_cons, List.not_mem_nil, or_false] at h
    rcases h with rfl | rfl | rfl <;> decide +kernel
  · intro a h
    simp only [List.mem_cons, List.not_mem_nil, or_false] at h
    rcases h with rfl | rfl | rfl | rfl | rfl | rfl <;> exact ⟨_, _, rfl, ⟨rfl, rfl, rfl⟩, rfl, rfl, rfl, rfl, rfl⟩
  · intro sig h
    simp only [List.mem_cons, List.not_mem_nil, or_false] at h
    rcases h with rfl | rfl <;> exact ⟨rfl, rfl, rfl, rfl, rfl, by decide +kernel, by decide +kernel, by decide +kernel⟩

/-- Launch records at the bounds of R351: every field of its own widest value, and one bit beyond each. -/
theorem test_launch_record :
    (let ok := 2 ^ 57 - 1 + (2 ^ 57 - 8) * 2 ^ 64 + 2 ^ 128 + 15 * 2 ^ 197 + 2 ^ 205
     launchBad ok (24 + 2 ^ 10 + 2 ^ 20) 4096 = none ∧ launchBad ok (25 + 2 ^ 10 + 2 ^ 20) 4096 = some (25 + 2 ^ 10 + 2 ^ 20) ∧
     launchBad (ok - 2 ^ 205) (1023 + 1023 * 2 ^ 10 + 1023 * 2 ^ 20) 0 = none ∧ launchBad ok (1 + 2 ^ 10 + 2 ^ 20) 4104 = some 4104 ∧
     [57, 64, 121, 192, 201, 206, 511].all (fun b => (launchBad (ok - 2 ^ 205 + 2 ^ b) (1 + 2 ^ 10 + 2 ^ 20) 0).isSome) = true ∧
     launchBad (launchMend (2 ^ 512 - 1) (25 + 2 ^ 10 + 2 ^ 20)) (25 + 2 ^ 10 + 2 ^ 20) 8 = none) := by decide +kernel

/-- A descriptor that cannot be translated, and one that is uncorrectable. -/
theorem witness_OffersFail :
    (let s : State := { launchWorld 0 0 0 with tlb := [] }
     ∃ f va, State.accept s (smallOffer 1) = .error (.access (.xlate f va))) ∧
    (let s := launchWorld 0 0 0
     let b : State := { s with main := Memory.spoil s.main 0x100100 }
     ∃ pa, State.accept b (smallOffer 1) = .error (.access (.unc pa))) ∧
    ∃ u bs, State.ringRead (launchWorld 0 0 0) 1 0x100100 64 = .ok (u, bs) :=
  ⟨⟨_, _, rfl⟩, ⟨_, rfl⟩, _, _, rfl⟩

theorem test_team_place : (after (exec (.teamPlace 0) (placeWorld false 0))).teams.map (fun T => (T.core, T.warps)) = [(0, [0]), (1, [1])] ∧
    (after (exec (.teamPlace 0) (placeWorld false 0))).warps.map (fun W => Warp.s W 7) = [0, 1] := by decide +kernel
theorem test_nbhd_place : (after (exec (.nbhdPlace 0) (placeWorld true 79))).teams.map (fun T => T.core) = [79, 0, 8] := by decide +kernel

/-- A team whose warp waits for its fabric request to peer 5, with another grid's team queued behind. -/
def parkedWorld : State :=
  let W : Warp := waiting (.counter .fb 0) (reqWarp 5 (.ld .b32 9) 0)
  let G : Grid := { grid with placed := 0, teams := [] }
  let s := world W
  { s with hints := [(0, 5)], grids := s.grids ++ [G] }

/-- A saved team. -/
def savedWorld (nbhd : Bool) (img : Option MImage) : State :=
  let T : Team := { team with status := .saved }
  let G : Grid := { grid with nbhd := nbhd, dies := [0] }
  let s := world { warp [] with mimage := img }
  { s with teams := [T], grids := [G] }

/-- Warps that sleep at a barrier, own the array with an operation, and wait with a reservation. -/
def sleepWorld : State :=
  world (waiting (.barrier 9 0 0 3 true)) Memory.empty (Memory.write Memory.empty 0 8 (Bar.toNat ⟨3, 1, 0, 1, 3, false⟩))
def ownerWorld : State := opWorld (.mzero 2) 1023
def ctxResWorld : State :=
  { world (waiting (.ctxRes 9)) with contexts := [(5, { attn with waiting := [⟨0, 0, 9, 4096, some 0⟩] })] }

/-- Only the array of core 0 is held. -/
theorem ownerWorld_hold (core : Nat) (h : MHold) (e : (State.array ownerWorld core).hold = some h) : core = 0 := by
  match core with
  | 0 => rfl
  | _ + 1 => simp [State.array, ownerWorld, opWorld, arrayWorld, AMap.get?, MArray.empty] at e

theorem witness_TeamsAreSavedAndResumed :
    (∀ s, s ∈ [world (waiting (.waitv 9 .shared 0 5 true)), parkedWorld, sleepWorld, ownerWorld, relRun (eqrel (some relRoots) 0 [] [] 0),
        ctxResWorld] → ∃ T : Team, s.teams[0]? = some T ∧ T.status = .running ∧
      T.warps.Nodup ∧ State.members s T ≠ [] ∧
      (∀ x, x ∈ State.members s T → x.1 = 0 ∧ x.2.mimage = none ∧ Warp.savable x.2 = true ∧ State.strayOps s x.1 x.2 = false ∧
        (x.2.reqs.map (·.id)).Nodup) ∧
      (∀ core h W, (State.array s core).hold = some h → h.w = 0 → s.warps[0]? = some W → (State.owned s 0 W).isSome = true)) ∧
    (∃ c h, State.ctx? ownerWorld = some c ∧ State.owned ownerWorld 0 c.warp = some h ∧ h.follower = none ∧
      (State.array ownerWorld 0).cur = h.session) ∧
    (∃ T W f, sleepWorld.teams[0]? = some T ∧ (0, W) ∈ State.members sleepWorld T ∧ Warp.frag? W 0 = some f ∧
      f.wait = .barrier 9 0 0 3 true ∧ Memory.uncorrectable T.shm 0 8 = false) ∧
    (∃ A W f, AMap.get? ctxResWorld.contexts 5 = some A ∧ ctxResWorld.warps[0]? = some W ∧ Warp.frag? W 0 = some f ∧ f.wait = .ctxRes 9 ∧
      A.waiting ≠ []) ∧
    (∃ T : Team, parkedWorld.teams[0]? = some T ∧ (∀ x, x ∈ State.members parkedWorld T → State.parked parkedWorld x.1 x.2 = true) ∧
      ∃ G, G ∈ parkedWorld.grids ∧ State.unplaced parkedWorld G = true ∧ dieOf T.core ∈ G.dies) ∧
    (∀ img, img ∈ [none, some { n := 2, leader := ⟨[], []⟩, follower := some ⟨[], []⟩, ops := [] }] → ∃ (T : Team) (g : Grid),
      (savedWorld false img).teams[0]? = some T ∧ (savedWorld false img).grids[T.grid]? = some g ∧ g.status = .live ∧
      State.resumable (savedWorld false img) T = true ∧ dieOf 78 ∈ g.dies ∧ State.fits (savedWorld false img) g 78 = true ∧
      State.suits (savedWorld false img) T 78 = true) ∧
    (∃ g, (savedWorld true none).grids[0]? = some g ∧ g.teams.Nodup ∧ State.rectangle (savedWorld true none) g g.dies = some [0] ∧
      ∀ x, x ∈ State.neighbours (savedWorld true none) g → State.resumable (savedWorld true none) x.2.2 = true) := by
  refine ⟨?_, ⟨_, _, rfl, rfl, rfl, rfl⟩, ⟨_, _, _, rfl, List.mem_singleton.mpr rfl, rfl, rfl, by decide⟩,
    ⟨_, _, _, rfl, rfl, rfl, rfl, by decide⟩, ⟨_, rfl, by decide, { grid with placed := 0, teams := [] }, by decide +kernel, by decide +kernel, by decide⟩, ?_,
    ⟨_, rfl, by decide, by decide +kernel, by decide +kernel⟩⟩
  · intro s h
    simp only [List.mem_cons, List.not_mem_nil, or_false] at h
    rcases h with rfl | rfl | rfl | rfl | rfl | rfl <;> refine ⟨_, rfl, rfl, by decide, by decide, by decide, ?_⟩ <;> intro core h W hc _ hw <;>
      first
        | (cases hc; done)
        | (cases ownerWorld_hold core h hc; cases hw; decide)
  · intro img h
    simp only [List.mem_cons, List.not_mem_nil, or_false] at h
    rcases h with rfl | rfl <;> exact ⟨_, _, rfl, rfl, rfl, by decide +kernel, by decide, by decide +kernel, by decide⟩

theorem test_preempt : (after (exec (.preempt 0) (world (waiting (.waitv 9 .shared 0 5 true))))).teams.map (fun T => T.status) = [.saved] ∧
    (after (exec (.parkedSwapOut 0) parkedWorld)).teams.map (fun T => T.status) = [.saved] := by decide +kernel

/-- A shoot-down of context 1, and a unit of two words at 0x40000 to be scanned. -/
def xlWorld (x arg0 arg1 : Nat) : State :=
  { world (warp []) tables with xlRegs := { pending := some x, arg0 := arg0, arg1 := arg1, res := 7 }, roots := [(1, 0x300000)] }
def scanWorld (w0 w1 : Nat) : State :=
  { xlWorld 1 0 0 with main := Memory.write (Memory.write (Memory.write tables 0x302000 8 0x1B) 0x40000 4 w0) 0x40004 4 w1 }
def scanReq (lane : Bool) : ScanReq := { asid := 1, va := 0x40000, len := if lane then 12 else 8, lane := lane, partner := none, report := 0x50000 }

theorem witness_ShootDownsAndScans :
    (∀ a : Nat × Nat × Nat, a ∈ [(0x10001, 0x1FFFF, 1), (0x10002, 0, 0), (0x10003, 0, 0)] →
      (xlWorld a.1 a.2.1 a.2.2).xlRegs.pending = some a.1 ∧ State.inFlight (xlWorld a.1 a.2.1 a.2.2) 1 (fun e => e.asid = 1) = false) ∧
    State.outstanding (world (waiting (.mem 0) (reqWarp 5 (.ld .b32 9) 0x100000))) 1 0 (2 ^ 57) = false ∧
    (∃ e, e ∈ (xlWorld 0 0 0).tlb ∧ (e.asid = 1 ∧ e.va < 0x1FFFF + 1 ∧ 0x1FFFF < e.va + e.size)) ∧
    (State.scanTurn (scanWorld 0 0) (scanReq true) = true ∧ State.inForest (scanWorld 0 0) 0x50000 16 = false ∧
      State.scanTurn { scanWorld 0 0 with scans := [(0, scanReq false), (0, scanReq true)] } (scanReq true) = false ∧
      State.unitFault { scanWorld 0 0 with roots := [] } 1 0x40000 12 = some 0x40000) ∧
    (∃ starts top, scanLane (fun i => (State.unitWord (scanWorld 0x00466060 0x02014000) 1 0x40000 (3 * i), 0, 0)) 0 0 [] = (starts, top, none)) ∧
    (∀ lane, lane ∈ [true, false] → State.unitMapped (scanWorld 0x003C80E0 0) 1 0x40000 (scanReq lane).len = true) ∧
    (∃ starts, scanScalar (State.unitWord (scanWorld 0x003C80E0 0x003C80E0) 1 0x40000) 2 [] = (starts, none) ∧ 1 ∈ starts) ∧
    ∃ starts i c, scanScalar (State.unitWord (scanWorld 0x003C80E0 0xFFFFFFFF) 1 0x40000) 2 [] = (starts, some (i, c)) ∧ i = 1 := by
  refine ⟨?_, by decide, ⟨page (.core 0) 0x10000 false true, by decide, by decide⟩, by decide +kernel, ⟨_, _, rfl⟩, by decide +kernel,
    ⟨[0, 1], by decide +kernel, by decide⟩, ?_⟩
  · intro a h
    simp only [List.mem_cons, List.not_mem_nil, or_false] at h
    rcases h with rfl | rfl | rfl <;> exact ⟨rfl, by decide⟩
  · exact ⟨_, _, _, rfl, by decide +kernel⟩

/-- A GATH whose translation a command names, and a mapping of which one 64 KiB page is lost. -/
theorem witness_AccessesInFlight :
    (let r : Req := { Warp.newReq (warp []) .cp (.gath 8 []) with todo := [⟨3, 0x100040, 0, 0, []⟩] }
     let s : State := { world { warp [] with reqs := [r], nextReq := 1 } with xlRegs := { pending := some 0x10003, arg0 := 0, arg1 := 0, res := 7 } }
     State.inFlight s 1 (fun e => e.asid = 1) = true ∧
     State.inFlight s 1 (fun e => e.asid = 1 ∧ e.va < 0x10F000 + 1 ∧ 0x10F000 < e.va + e.size) = true) ∧
    (let m : ExecMap := { ExecMap.mk 1 0x10000 0x20000 false [0] 0 [] with gone := [1] }
     let s : State := { world (warp []) with execMaps := [m] }
     State.mapping? s 1 0x10004 = some m ∧ State.mapping? s 1 0x20004 = none) := by decide +kernel

/-- A partner's mapping, whole and with a page lost, and a unit of which a page may be written (R71, R69). -/
theorem witness_PartnersAndWritablePages :
    State.partnerRuns (world (warp [])) 1 (some 0x20000) = [0, 2] ∧
    (let s : State := { world (warp []) with execMaps := [{ ExecMap.mk 1 0x20000 0xC0 true [0, 2] 8 [] with gone := [0] }] }
     State.partnerRuns s 1 (some 0x20000) = []) ∧
    (let s : State := { scanWorld 0 0 with main := Memory.write (scanWorld 0 0).main 0x302000 8 0x1F }
     State.writable s 1 0x40000 = true ∧ State.unitFault s 1 0x40000 8 = some 0x40000) ∧
    State.unitMapped (scanWorld 0 0) 1 0x40000 8 = true := by decide +kernel

theorem test_shoot_range : (after (exec .shootRange (xlWorld 0x10001 0x1FFFF 1))).tlb.map (fun e => e.va) = [0x20000, 0x100000, 0x100000, 0x100000] := by
  decide +kernel
theorem test_scan : (after (exec (.scanRequest (scanReq false)) (scanWorld 0x003C80E0 0x003C80E0))).execMaps.length = 3 ∧
    Memory.read (after (exec (.scanRequest (scanReq false)) (scanWorld 0x003C80E0 0xFFFFFFFF))).main 0x50000 16 =
      1 * 2 ^ 96 + 0x40004 * 2 ^ 64 := by decide +kernel

/-- A world whose island has one command. -/
def islandWorld (x arg : Nat) (cmds : List Nat := [3]) : State :=
  let s := world (warp [])
  { s with island := { s.island with booted := true, version := 7, fusedMin := 5, commands := cmds },
           health := [(3, { Health.zero with regs := { CmdRegs.zero with pending := some x, arg0 := arg } })] }

theorem witness_IslandBootsServesAndCountsErrors :
    (world (warp [])).island.booted = false ∧ (world (warp [])).island.fusedMin = 0 ∧
    (∀ x arg, (islandWorld x arg).island.commands = 3 :: [] ∧ (State.healthOf (islandWorld x arg) 3).regs.pending = some x ∧
      (State.healthOf (islandWorld x arg) 3).regs.arg0 = arg ∧ (islandWorld x arg []).island.commands = []) ∧
    ((4 + 639 * 2 ^ 24) % 256 = 4 ∧ bits (4 + 639 * 2 ^ 24) 33 24 < 640 ∧ bits (4 + 639 * 2 ^ 24) 63 35 = 0 ∧
      ¬ bits (4 + 640 * 2 ^ 24) 33 24 < 640 ∧ bits (5 + 7 * 2 ^ 8) 31 8 ≤ 7 ∧ 5 ≤ bits (5 + 5 * 2 ^ 8) 31 8 ∧ ¬ bits (5 + 8 * 2 ^ 8) 31 8 ≤ 7 ∧
      bits (2 ^ 48 + 1) 63 48 ≠ 0 ∧ (2 ^ 48 + 1) % 256 = 1) ∧
    (∀ x arg, arg = 0x100000 → (3 : Nat) ∉ ([] : List Nat) ∧ Memory.uncorrectable (islandWorld x arg).main arg 64 = false ∧
      State.inForest (islandWorld x arg) arg 51200 = false ∧ arg % 64 = 0) ∧
    (∃ cs e, AMap.get? (sysWorld 0).events 0 = some cs ∧ cs[0]? = some e) ∧ (31 / 4 = 7) ∧
    (world (warp [])).warps[0]? = some (warp []) ∧ dieOf (State.coreOf (world (warp [])) (warp [])) = 0 ∧
    (∃ T : Team, (world (warp [])).teams[0]? = some T ∧ dieOf T.core = 0) ∧ AMap.get? (ctxWorld (.acq 9 5 1)).contexts 5 = some attn := by
  refine ⟨rfl, rfl, fun x arg => ⟨rfl, rfl, rfl, rfl⟩, by decide, ?_, ⟨_, _, rfl, rfl⟩, rfl, rfl, rfl, ⟨_, rfl, rfl⟩, rfl⟩
  intro x arg h
  subst h
  exact ⟨by decide, rfl, rfl, rfl⟩

/-- A data block in main memory, and one word of it that is met as uncorrectable by the die that holds it (R25). -/
theorem witness_MainMemoryErrors :
    isMain 0x100000 51200 = true ∧ isMain (2 ^ 40) 1 = false ∧ isMain (2 ^ 36) 8 = true ∧
    (let s : State := { world (warp []) with main := Memory.spoil Memory.empty 0x100040 }
     s.main.bad = [0x100040 / 8] ∧ (∃ die : Nat, die = (Config.dieOfAddr (8 * (0x100040 / 8))).val)) :=
  ⟨by decide, by decide, by decide, by decide, _, rfl⟩

/-- An EXTEND whose data block's second granule is uncorrectable (R358). -/
theorem witness_SecondGranule :
    (let s : State := { islandWorld 3 0x100000 with main := Memory.spoil Memory.empty 0x100038 }
     s.island.commands = [3] ∧ (State.healthOf s 3).regs.pending = some 3 ∧ isMain 0x100000 64 = true ∧
       s.main.bad = [0x100038 / 8] ∧ 0x100000 ≤ 8 * (0x100038 / 8) / 32 * 32 ∧ 8 * (0x100038 / 8) / 32 * 32 = 0x100020 ∧
       Memory.badGranules s.main 0x100000 64 = [0x100020]) := by decide +kernel

theorem test_raisemin : (after (exec .raisemin (islandWorld (5 + 7 * 2 ^ 8) 0))).island.fusedMin = 7 ∧
    (State.healthOf (after (exec .raisemin (islandWorld (5 + 8 * 2 ^ 8) 0))) 3).regs.res = 3 := by decide +kernel
theorem test_soft_error : (State.healthOf (after (exec (.softError (.array 0)) (world (warp [])))) 0).uecnt = 1 ∧
    (after (exec (.softError (.shared 0 13)) (world (warp [])))).teams.map (fun T => Memory.uncorrectable T.shm 8 8) = [true] := by decide +kernel

/-- An island of device 2 with partners 4 to 6, of which one has been heard of before. -/
def quorumWorld (key : Option Nat) (accepted : List Nat) : State :=
  let s := homeWorld (warp [])
  { s with hostMem := [(1, 0x100000, 0x1000)],
           island := { s.island with partners := [4, 5, 6], key := key, accepted := accepted, epochs := [(6, 9)], silent := [5], dev := 2 } }
/-- A reset message of sender 6 to device 2, authenticated under key 1. -/
def quorumMsg (epoch : Nat) (expired : List Nat) : QuorumMsg :=
  let body := epoch * 2 ^ 64 + 2 * 2 ^ 32 + 6
  { bits := BitVec.ofNat 512 (numOfBytes ((List.range 32).map (Config.kmac256 1 (bytesOfNat 32 body))) * 2 ^ 256 + body), expired := expired }

/-- A message's TAG is that of its other bits under key 1. -/
def authentic (m : QuorumMsg) : Prop :=
  m.bits.toNat / 2 ^ 256 = numOfBytes ((List.range 32).map (Config.kmac256 1 (bytesOfNat 32 (m.bits.toNat % 2 ^ 256))))

theorem numOfBytes_lt : ∀ bs : List Byte, numOfBytes bs < 256 ^ bs.length
  | [] => by decide
  | b :: bs => by
    have h := numOfBytes_lt bs
    have hb := b.isLt
    rw [numOfBytes, List.length_cons, Nat.pow_succ]
    omega

theorem quorumMsg_fields (epoch : Nat) (expired : List Nat) (h : epoch < 2 ^ 64) :
    authentic (quorumMsg epoch expired) ∧ bits (quorumMsg epoch expired).bits.toNat 40 32 = 2 ∧
      bits (quorumMsg epoch expired).bits.toNat 8 0 = 6 ∧ bits (quorumMsg epoch expired).bits.toNat 127 64 = epoch := by
  have ht := numOfBytes_lt ((List.range 32).map (Config.kmac256 1 (bytesOfNat 32 (epoch * 2 ^ 64 + 2 * 2 ^ 32 + 6))))
  rw [List.length_map, List.length_range] at ht
  have hx : (quorumMsg epoch expired).bits.toNat = numOfBytes ((List.range 32).map (Config.kmac256 1
      (bytesOfNat 32 (epoch * 2 ^ 64 + 2 * 2 ^ 32 + 6)))) * 2 ^ 256 + (epoch * 2 ^ 64 + 2 * 2 ^ 32 + 6) := by
    rw [quorumMsg, BitVec.toNat_ofNat, Nat.mod_eq_of_lt]
    omega
  have hm : (quorumMsg epoch expired).bits.toNat % 2 ^ 256 = epoch * 2 ^ 64 + 2 * 2 ^ 32 + 6 := by rw [hx]; omega
  refine ⟨?_, ?_, ?_, ?_⟩
  · rw [authentic, hm, hx]; omega
  · rw [hx, bits]; omega
  · rw [hx, bits]; omega
  · rw [hx, bits]; omega

theorem witness_ModuleEvents :
    (4 ∈ (quorumWorld none []).island.partners ∧ 4 ∉ (quorumWorld none []).island.silent ∧ (quorumWorld (some 1) []).island.key = some 1) ∧
    (∀ a : Nat × List Nat × Nat × List Nat, a ∈ [(9, [4, 5], 3, []), (10, [4], 2, []), (10, [4, 5], 3, []), (10, [4, 5], 2, [5])] →
      let isle := (quorumWorld (some 1) a.2.1).island
      let m := quorumMsg a.1 a.2.2.2
      (isle.key = some 1 ∧ authentic m ∧ isle.dev = 2 ∧ bits m.bits.toNat 40 32 = 2 ∧ bits m.bits.toNat 8 0 = 6 ∧ 6 ∈ isle.partners) ∧
      AMap.get? isle.epochs 6 = some 9 ∧ bits m.bits.toNat 127 64 = a.1 ∧ (9 < a.1 ↔ a.1 = 10) ∧
      (((isle.accepted.filter fun p => p ∉ m.expired).filter fun p => p ≠ 6) ++ [6]).length = a.2.2.1) ∧
    (∀ p, p ∈ [none, some 1] → ∀ st, st ∈ [QState.idle, .waiting] → (∃ g : CmdRegs, g.pending = p) ∧
      (State.queue (queueWorld (packet 0 0) [] st) 255).state = .idle ∧ (State.queue (queueWorld (packet 0 0) [] st) 0).state = st) ∧
    (2 ^ 52 - 2 + ([0, 0] : List Byte).length ≤ 2 ^ 52 ∧ 2 ^ 52 < 2 ^ 52 - 1 + ([0, 0] : List Byte).length) ∧
    ((1, 0x100000, 0x1000) ∈ (quorumWorld none []).hostMem ∧ 0x100000 ≤ 0x100FFE ∧ 0x100FFE + 2 ≤ 0x100000 + 0x1000 ∧
      ¬ 0x100FFF + 2 ≤ 0x100000 + 0x1000 ∧ State.inForest (quorumWorld none []) 0x100FFE 2 = false) ∧
    ∃ G, (world (warp [])).grids[0]? = some G ∧ 7 < G.scr.length := by
  refine ⟨by decide, ?_, ?_, by decide, by decide, _, rfl, by decide⟩
  · intro a h
    simp only [List.mem_cons, List.not_mem_nil, or_false] at h
    rcases h with rfl | rfl | rfl | rfl
    · have f := quorumMsg_fields 9 [] (by decide)
      exact ⟨⟨rfl, f.1, rfl, f.2.1, f.2.2.1, by decide⟩, by decide, f.2.2.2, by decide, by decide⟩
    · have f := quorumMsg_fields 10 [] (by decide)
      exact ⟨⟨rfl, f.1, rfl, f.2.1, f.2.2.1, by decide⟩, by decide, f.2.2.2, by decide, by decide⟩
    · have f := quorumMsg_fields 10 [] (by decide)
      exact ⟨⟨rfl, f.1, rfl, f.2.1, f.2.2.1, by decide⟩, by decide, f.2.2.2, by decide, by decide⟩
    · have f := quorumMsg_fields 10 [5] (by decide)
      exact ⟨⟨rfl, f.1, rfl, f.2.1, f.2.2.1, by decide⟩, by decide, f.2.2.2, by decide, by decide⟩
  · intro p _ st h
    simp only [List.mem_cons, List.not_mem_nil, or_false] at h
    rcases h with rfl | rfl <;> exact ⟨⟨⟨p, 0, 0, 0⟩, rfl⟩, rfl, rfl⟩

/-- Bytes of a table that a host cannot reach (R341), and of its own memory. -/
theorem witness_HostsAndTables :
    (let s : State := { world (warp []) tables with hostMem := [(1, 0x300000, 0x3000)], roots := [(1, 0x300000)] }
     State.inTables s 0x300008 8 = true ∧ State.inTables s 0x301FF8 4 = true ∧ State.inTables s 0x100000 8 = false ∧
     (1, 0x300000, 0x3000) ∈ s.hostMem ∧ State.inForest s 0x300008 8 = false) := by decide +kernel

/-- A port whose counter allows exactly the beats of three partners, and one that a message of two flits would exhaust. -/
theorem witness_BeatsAndCounters :
    (let s : State := { quorumWorld (some 1) [] with ports := [(0, { Port.zero with up := true, counter := 2 ^ 36 - 5 })] }
     ∀ n P, AMap.get? s.ports n = some P → P.counter + s.island.partners.length ≤ 2 ^ 36 - 2) ∧
    2 ^ 36 - 2 < 2 ^ 36 - 3 + 2 := by
  refine ⟨fun n P h => ?_, by decide⟩
  simp only [AMap.get?] at h
  split at h
  · cases h; decide
  · cases h

theorem test_register_qcfg : (let s := after (exec (.registerWrite 0xFFB000FC8 (2 ^ 32 + 5 * 2 ^ 16 + 3 * 2 ^ 8 + 20)) (world (warp [])))
    let Q := State.queue s 63
    (Q.size, Q.prio, Q.asid, Q.enable)) = (20, 3, 5, true) := by decide +kernel
/-- Without a key no message counts (R363, R364). -/
theorem test_quorum_needs_key : (after (exec (.quorumResetMessage ⟨2 * 2 ^ 32 + 6 + 10 * 2 ^ 64, []⟩) (quorumWorld none [4, 5]))).island.dropped = 1 := by
  decide +kernel
theorem test_host_store : Memory.read (after (exec (.hostMemoryWrite ⟨1, 0x100FFE⟩ [1, 2]) (quorumWorld none []))).main 0x100FFE 2 = 0x201 ∧
    Memory.read (after (exec (.hostMemoryWrite ⟨1, 0x100FFF⟩ [1, 2]) (quorumWorld none []))).main 0x100FFF 2 = 0 := by decide +kernel

/-- The world with its turn and a first instruction. -/
def stepWorld (w : Nat) (agenda : List Turn) : State := { world (warp [(15, 7), (16, 8)]) (Memory.write Memory.empty 0x10000 4 w) with
    agenda := agenda, execMaps := [ExecMap.mk 1 0x10000 0x400 false [0] 0 []], island := { Island.zero with booted := true, loaded := true } }

/-- What a successful computation gives. -/
def okOr {ε α : Type} (e : Except ε α) (a : α) : α :=
  match e with
  | .ok x => x
  | .error _ => a

theorem eq_okOr {ε α : Type} {e : Except ε α} (a : α) (h : isOk e = true) : e = .ok (okOr e a) := by
  cases e with
  | ok x => rfl
  | error _ => cases h

/-- The state of the first turn, its fragment, and what the check of the program counter gives. -/
def firstTurn : State := { State.issueTo (stepWorld 0x003C80E0 []) 0 0 with cur := (0, 0) }
def firstCheck : Except FetchFault (State × Nat) := State.checkStart firstTurn (.core 0) 1 0x10000 false

theorem witness_StepRunsDecodedInstruction :
    (State.nextTurn (stepWorld 0x003C80E0 []) = some (.scalar 0 0, stepWorld 0x003C80E0 []) ∧
      State.nextTurn (stepWorld 0x003C80E0 [.scalar 0 0]) = some (.scalar 0 0, stepWorld 0x003C80E0 []) ∧
      State.chosen (stepWorld 0x003C80E0 []) (0, 0) = true ∧ (stepWorld 0x003C80E0 []).island.booted = true ∧
      (stepWorld 0x003C80E0 []).island.loaded = true ∧ State.chosen (stepWorld 0x003C80E0 []) (0, 1) = false ∧
      State.claim (stepWorld 0x003C80E0 []) (0, 0) = some (0, false) ∧ (0, 0) ∈ (stepWorld 0x003C80E0 []).rr ∧
      (∃ c, State.ctx? firstTurn = some c ∧ State.active firstTurn c.warp = true ∧ Frag.issuable c.frag c.warp = true ∧
        c.warp.laneTrap = none ∧ Warp.dueAsync c.warp = none ∧ State.scalarVA firstTurn c.warp c.frag.pc = 0x10000) ∧
      ∃ x pa, firstCheck = .ok (x, pa) ∧ scalarLength (Memory.read x.main pa 4) = 1 ∧ Memory.uncorrectable x.main pa 4 = false ∧
        (decodeScalar (Memory.read x.main pa 4) none).toOption = some (.add 15 16 14)) ∧
    scalarLength 0x38600000 = 2 ∧
    (∃ e, State.checkStart (world (warp [])) (.core 0) 1 0x30000 false = .error e) ∧
    ((world (queued 1)).agenda = [] ∧ State.nextTurn State.reset = none) ∧
    (∃ u, State.nextTurn { world laneWarp with agenda := [.lane 0, .event .heartbeatSend], island := { Island.zero with booted := true } } = some (.lane 0, u) ∧ u.agenda = [.event .heartbeatSend] ∧ u.island.booted = true ∧
      u.warps[0]? = some laneWarp ∧ State.active u laneWarp = true ∧ laneWarp.exec = some runAt ∧ runAt.trail = none) ∧
    Instr.kind .heartbeatSend = .event := by
  refine ⟨⟨rfl, rfl, by decide, rfl, rfl, by decide, by decide, by decide, ⟨_, rfl, by decide, by decide, rfl, by decide, by decide⟩,
      (okOr firstCheck (firstTurn, 0)).1, (okOr firstCheck (firstTurn, 0)).2, eq_okOr (firstTurn, 0) (by decide +kernel), by decide +kernel, by decide +kernel, by decide +kernel⟩,
    by decide, ⟨_, rfl⟩, ⟨rfl, rfl⟩, ⟨_, rfl, rfl, rfl, rfl, by decide, rfl, rfl⟩, by decide⟩

/-- Uncorrectable instruction bytes at the program counter, and a slot of a run that was lost as it was fetched (R25). -/
theorem witness_LostInstructionBytes :
    (let s : State := { stepWorld 0x003C80E0 [] with main := Memory.spoil (stepWorld 0x003C80E0 []).main 0x10000 }
     let v : State := { State.issueTo s 0 0 with cur := (0, 0) }
     isOk (State.checkStart v (.core 0) 1 0x10000 false) = true ∧ Memory.uncorrectable v.main 0x10000 4 = true ∧
     State.nextTurn s = some (.scalar 0 0, s)) ∧
    (let e : RunExec := { runAt with entry := { runAt.entry with code := [{ w0 := 0, w1 := 0, w2 := 0, lost := true }] } }
     let W : Warp := { laneWarp with exec := some e }
     let u : State := { world W with agenda := [.lane 0], island := { Island.zero with booted := true } }
     (∃ x, State.nextTurn u = some (.lane 0, x)) ∧ e.entry.code[e.idx]? = some ⟨0, 0, 0, true⟩ ∧ State.active u W = true ∧
       (State.laneCtx? { u with laneCur := 0 }).isSome = true) := by
  refine ⟨by decide +kernel, ⟨_, rfl⟩, rfl, by decide, rfl⟩

/-- A two-word instruction whose second word lies in its mapping, and one whose second word lies outside every mapping. -/
theorem witness_SecondWords :
    (let s := stepWorld 0x38600000 []
     let u : State := { s with execMaps := [ExecMap.mk 1 0x10000 4 false [0] 0 []] }
     (State.mapping? s 1 0x10004).isSome = true ∧ isOk (State.translate s (.core 0) 1 0x10004 .fetch) = true ∧
     State.mapping? u 1 0x10004 = none ∧ State.unmappedFetch u (.core 0) 1 0x10004 = .outside ∧
     isOk (State.checkStart u (.core 0) 1 0x10000 false) = true) ∧
    (let s : State := { world (warp []) (Memory.write Memory.empty 0x20000 4 (0x3C0 * 2 ^ 22)) with
       tlb := [{ page (.core 0) 0x20000 false true with pa := 0x20000 }] }
     isOk (fetchSlots s (.core 0) 1 24 0x20000) = true) := by decide +kernel

/-- Where the fetch of a run's slots meets an address outside every executable mapping. -/
def strays (s : State) (va : Nat) : Option Nat :=
  match fetchSlots s (.core 0) 1 24 va with
  | .error (.outside, a) => some a
  | _ => none

/-- The slots of a run that reach a page that has been lost fault there (R73). -/
theorem test_run_reaches_lost_page :
    (let s : State := { world (warp []) with execMaps := [{ ExecMap.mk 1 0x10000 0x20000 true [0] 8 [] with gone := [1] }] }
     strays s 0x1FFF4) = some 0x20000 := by decide +kernel

theorem test_step_adds : (after (step (stepWorld 0x003C80E0 []))).warps.map (fun W => (Warp.s W 15, (Warp.frag? W 0).map fun f => f.pc)) = [(8, some 4)] := by
  decide +kernel

theorem witness_DecodingUndoesEncoding : ∀ i, i ∈ [Instr.add 127 0 127, .laneAdd (lop .i32 (.v 255) .w2 0 0xFFFFFFFF), .heartbeatSend] → i.wf = true := by
  decide
theorem witness_DecodedInstructionsAreWellFormed : (0xFFFFFFFF : Nat) < 2 ^ 32 ∧ decodeScalar 0x003C80E0 none = .ok (.add 15 16 14) ∧
    ∃ i, decodeLane 0x28000030 0x84480000 0 = .ok i := ⟨by decide, rfl, _, rfl⟩
theorem witness_MemoryStaysCanonical : ∃ t, State.canonical (stepWorld 0x003C80E0 []) ∧ step (stepWorld 0x003C80E0 []) = .next t :=
  ⟨_, by unfold State.canonical; decide +kernel, rfl⟩
/-! ### Further clauses of the statements -/

/-- A warp that divides by zero with TCTL.DZ set. -/
def dzWarp : Warp := { warp [(1, 7)] with tctl := 1, tvec := 64 }

theorem witness_DivideByZeroTraps :
    State.ctx? (world dzWarp) = some (ctx dzWarp) ∧ Warp.s dzWarp 2 = 0 ∧ dzWarp.tctl.getLsbD 0 = true ∧ Ctx.mayTrap (ctx dzWarp) :=
  ⟨rfl, by decide, by decide, rfl, rfl, rfl⟩

theorem test_divide_by_zero : [Instr.div 3 1 2, .remn 3 1 2].map (fun i => (after (exec i (world dzWarp))).warps.map
    fun W => (W.bank1.tcause, W.bank1.tval)) = [[(0x40, 7)], [(0x40, 7)]] := by decide

/-- A run whose second word lies outside every mapping. -/
theorem witness_RunLeavesItsMapping :
    (let s : State := { world (queued 3) with execMaps := [ExecMap.mk 1 0x20000 0x10000 true [5461] 8 []] }
     isOk (State.checkStart s (.core 0) 1 0x2FFFC true) = true ∧ strays s 0x2FFFC = some 0x30000) := by decide +kernel

/-- A team of which the last fragment that can go on ends: its other one waits on the empty stage queue. -/
def stallingWarp : Warp := { warp [] with frags := table [frag, frag 8 [] .stageGet 2] }

/-- The stalled team is reported once (R176). -/
theorem test_exit_reports_stall :
    ((after (exec .exit (world stallingWarp))).reports = [⟨.stalledTeam, [0]⟩] ∧
      (after (exec .exit (world stallingWarp))).teams.map (fun T => T.told) = [true]) ∧
    (let s : State := { world stallingWarp with teams := [{ team with told := true }] }
     (after (exec .exit s)).reports = []) := by decide

/-- A fragment in its handler that waits, runs that hold back a wait for runs, and a team with a fragment at its join. -/
theorem witness_WaitsEndInHandlers :
    (let W : Warp := { warp [] with tlev := 1, frags := table [{ frag with hlev := 1, wait := .counter .sh 0 }] }
     (world W).warps[0]? = some W ∧ State.active (world W) W = true ∧
       Warp.frag? W 0 = some { frag with hlev := 1, wait := .counter .sh 0 } ∧ W.tlev ≤ 1 ∧
       ({ pendingTrap with lev := 1 } : Pending).lev ≠ 0) ∧
    (∃ e, e ∈ (waiting (.runs 255 1) (queued 1)).queue ∧ e.seq < 1 ∧ (255 : Nat).testBit (RunEntry.token e) = true) ∧
    (let r : Req := { Warp.newReq (warp []) .sh (.load .shared .i32 9) with run := some 0, token := 7 }
     r.run = some 0 ∧ 0 < 1 ∧ Req.pendingResults r = true ∧ (128 : Nat).testBit r.token = true) ∧
    (let s := world (waiting .atJoin)
     ∃ T, s.teams[0]? = some T ∧ State.stalled s T = false) :=
  ⟨by decide, ⟨entry 0 0, by decide⟩, by decide, ⟨_, rfl, by decide⟩⟩

theorem witness_SpecialFunctionBounds :
    (∃ n d, decodeF Fmt.f32 0x3F800000 = .fin false n d ∧ ((2 : Rat) ^ (0 : Int)) ^ 2 * ((n : Rat) / d) ≤ 1 ∧
      1 < ((2 : Rat) ^ ((0 : Int) + 1)) ^ 2 * ((n : Rat) / d)) ∧
    (let x := decodeF Fmt.f32 0x3F000000
     (∃ n d, x = .fin false n d) ∧ Ext.lt x (Ext.ofInt 128) = true ∧ Ext.lt x (Ext.ofInt (-150)) = false ∧
       Ext.lt x (Ext.ofInt 89) = true ∧ Ext.lt x (Ext.scaled true 13627828 (-17)) = false) ∧
    SpecialFn.tanh ∈ [SpecialFn.sin, .cos, .tanh] := by
  refine ⟨⟨_, _, rfl, by decide +kernel, by decide +kernel⟩, ⟨⟨_, _, rfl⟩, by decide +kernel⟩, by decide⟩

theorem pow_two_mod_three : ∀ n : Nat, 2 ^ n % 3 ≠ 0
  | 0 => by decide
  | n + 1 => by have := pow_two_mod_three n; rw [Nat.pow_succ]; omega

theorem fin_eq_false {n d p q : Nat} (h : n * q ≠ p * d) : Ext.eq (.fin false n d) (.fin false p q) = false := by
  simp only [Ext.eq, Ext.lt]
  rcases Nat.lt_or_gt_of_ne h with h | h <;> simp [h]

/-- 0.5 is no integer, and 3 no power of two: R132 leaves their answers to its bounds. -/
theorem witness_HalfIsNoInteger (i : Int) : Ext.eq (decodeF Fmt.f32 0x3F000000) (Ext.ofInt i) = false := by
  have h : decodeF Fmt.f32 0x3F000000 = .fin false 8388608 16777216 := by decide +kernel
  rw [h, Ext.ofInt]
  split
  · decide
  · simp only [Ext.eq, Ext.lt]
    split <;> simp <;> omega

theorem witness_ThreeIsNoPower (i : Int) : Ext.eq (decodeF Fmt.f32 0x40400000) (Ext.scaled false 1 i) = false := by
  have h : decodeF Fmt.f32 0x40400000 = .fin false 12582912 4194304 := by decide +kernel
  rw [h, Ext.scaled, if_neg (by decide)]
  apply fin_eq_false
  have h3 := pow_two_mod_three i.toNat
  rw [pow2, pow2]
  generalize 2 ^ i.toNat = p at h3 ⊢
  generalize 2 ^ (-i).toNat = q
  omega

/-- A descriptor without INIT: two elements at 0x110000, a log of two, with BYSIZE. -/
def scanDesc : Nat := 0x118000 * 2 ^ 192 + 0x110000 * 2 ^ 128 + 2 * 2 ^ 96 + 2 * 2 ^ 64 + 1
/-- An OPEN whose pages are pinned, over an array of which element 1 hangs below `q`. -/
def scanOpen (q : Nat) : State :=
  { world (eqWarp (.open_ (some scanDesc) true (some true)))
      (Memory.write (Memory.write tables 0x110000 8 (2 * 2 ^ 32)) 0x110008 8 (q + 2 ^ 32)) with roots := [(1, 0x300000)] }

theorem witness_OpenScansItsArray :
    (∀ q, q ∈ [0, 1, 2] →
      let s := scanOpen q
      let E (e : Nat) : Nat × Nat := if e = 0 then (0, 2) else (q, 1)
      bits scanDesc 1 1 = 0 ∧ State.pin s 1 0x110000 16 = some [(0x110000, 0x110000, 16)] ∧
        State.pin s 1 0x118000 16 = some [(0x118000, 0x118000, 16)] ∧
        (∀ e, e < 2 → (E e).1 < 2 ^ 32 ∧ (E e).2 < 2 ^ 32 ∧ State.physOf s 1 (0x110000 + 8 * e) = some (0x110000 + 8 * e) ∧
          Memory.uncorrectable s.main (0x110000 + 8 * e) 8 = false ∧
          Memory.read s.main (0x110000 + 8 * e) 8 = (E e).1 + (E e).2 * 2 ^ 32) ∧
        ((∃ e, e < 2 ∧ 2 ≤ (E e).1) ↔ q = 2) ∧ State.forestHeld s 7 = false) := by
  intro q h
  simp only [List.mem_cons, List.not_mem_nil, or_false] at h
  rcases h with rfl | rfl | rfl <;> decide +kernel

/-- An OPEN of an array with a root beyond its end answers 5 (R235), and of a sound one opens the forest. -/
theorem test_open_scans : (after (exec (.eqServe 0 0) (scanOpen 2))).warps.map (fun W => Warp.s W 20) = [5] ∧
    (AMap.get? (after (exec (.eqServe 0 0) (scanOpen 0))).forests 7).map (fun F => (F.classes, F.lsize, F.lroot)) = some (1, 2, 0) ∧
    (AMap.get? (after (exec (.eqServe 0 0) (scanOpen 1))).forests 7).map (fun F => (F.classes, F.lsize, F.lroot)) = some (2, 2, 0) := by
  decide +kernel

/-- A snapshot with a log of two unions. -/
def undoTwo : Forest := { forest true with fill := 2, logs := [(0, (0, 1)), (1, (4, 5))] }

theorem witness_UndoOfTwo :
    (let F := undoTwo
     let s := forestWorld (eqWarp .undo) F
     let E (i e : Nat) : Nat × Nat :=
       if i < 2 ∧ e = 5 then (5, 1) else if i < 2 ∧ e = 4 then (4, 1) else if i < 1 ∧ e = 1 then (1, 1)
       else if i < 1 ∧ e = 0 then (0, 2) else State.entry s F e
     F.classes + F.fill < 2 ^ 32 ∧ F.fill ≤ F.unions ∧ F.unions < 2 ^ 64 ∧ (∀ e, E F.fill e = State.entry s F e) ∧
     ∀ i, i < F.fill → State.forestBad s F (F.log + 8 * i) = false ∧
       (let q := (State.logEntry s F i).1
        let child := (State.logEntry s F i).2
        q ≠ child ∧ State.entryBad s F q = false ∧ State.entryBad s F child = false ∧ E i child = (child, (E (i + 1) child).2) ∧
          E i q = ((E (i + 1) q).1, ((E (i + 1) q).2 + 2 ^ 32 - (E (i + 1) child).2) % 2 ^ 32))) := by
  refine ⟨by decide, by decide, by decide, fun e => by simp [undoTwo], by decide +kernel⟩

theorem test_undo_two : (AMap.get? (after (exec (.eqServe 0 0) (forestWorld (eqWarp .undo) undoTwo))).forests 7).map (fun F =>
    (F.classes, F.unions, F.snap)) = some (7, 1, false) ∧
    [0, 1, 4, 5].map (entryAfter (exec (.eqServe 0 0) (forestWorld (eqWarp .undo) undoTwo))) =
      [some (0, 2), some (1, 1), some (4, 1), some (5, 1)] := by decide +kernel

/-- A copy with its operands. -/
def copyWorld (a : Word × Word × Word) : State := boundWorld (groupWarp a.1 a.2.1 a.2.2 0xF0000000)
/-- The cause and TVAL of the trap that an instruction takes. -/
def trapOf (o : Out State) : List (Word × Word) := (after o).warps.map fun W => (W.bank1.tcause, W.bank1.tval)

/-- One word tuple for each failing check of CPY.LIN and CPY.TILE, with what it traps with (R167). -/
def linFails : List ((Word × Word × Word) × (Word × Word)) :=
  [((0x30000000, 0, 0), (0x100, 0x30000000)), ((0, 0x30000000, 0), (0x100, 0x30000000)), ((0, 0, 0x40000000), (0x100, 0x40000000)),
   ((0, 0, 0x04000000), (0x100, 0x04000000)), ((0x20000000, 0, 0x04000004), (0x101, 0x20000000)), ((2, 0, 4), (0x103, 2)),
   ((0, 2, 4), (0x103, 2)), ((0, 0, 2), (0x103, 2)), ((4096, 0, 4), (0xC0, 4096)), ((0, 0x10001000, 4), (0xC1, 0x10001000)),
   ((0x1000007C, 0, 4), (0xC2, 0x1000007C))]
def tileFails : List ((Word × Word × Word) × (Word × Word)) :=
  [((0x30000000, 0, 0x03000000), (0x100, 0x30000000)), ((0, 0x20000000, 0x03000001), (0x100, 0x03000001)),
   ((0, 0x20000000, 0x04000000), (0x101, 0x20000000)), ((0, 0x10000000, 0x03000000), (0x102, 0)),
   ((0, 0x20000001, 0x03000000), (0x102, 0x20000001)), ((16, 0x20000000, 0x03000000), (0x103, 16)),
   ((0x00000FA0, 0x20000000, 0x03000000), (0xC0, 0x00000FA0)), ((0x10000040, 0x20000000, 0x03000000), (0xC2, 0x10000040))]

theorem witness_CopyChecks : ∀ a, a ∈ linFails ++ tileFails →
    ∃ c, State.ctx? (copyWorld a.1) = some c ∧ Ctx.mayTrap c ∧ Warp.s c.warp 8 = a.1.1 ∧ Warp.s c.warp 9 = a.1.2.1 ∧
      Warp.s c.warp 10 = a.1.2.2 := by
  intro a _
  exact ⟨_, rfl, ⟨rfl, rfl, rfl⟩, rfl, rfl, rfl⟩

theorem test_copy_checks : linFails.map (fun a => trapOf (exec (.cpyLin 8) (copyWorld a.1))) = linFails.map (fun a => [a.2]) ∧
    tileFails.map (fun a => trapOf (exec (.cpyTile 8) (copyWorld a.1))) = tileFails.map (fun a => [a.2]) := by decide +kernel

/-- A command that its core's copy unit has not advanced, and one that alone is left to advance. -/
theorem witness_CopyTurns :
    (0, 0) ∉ State.copyRound pieceWorld 0 ∧
    (let s : State := { pieceWorld with copyRounds := [(0, [(0, 0)])] }
     (0, 0) ∈ State.copyRound s 0 ∧ ∀ v V q, s.warps[v]? = some V → q ∈ V.reqs → (v, q.id) = (0, 0)) := by
  refine ⟨by decide, by decide, ?_⟩
  intro v V q hv hq
  match v with
  | 0 =>
    cases hv
    cases List.mem_singleton.mp hq
    rfl
  | _ + 1 => cases hv

/-- A granule is not served while another command of the core waits for its turn (R168). -/
theorem test_copy_turn :
    (let s : State := { pieceWorld with warps := pieceWorld.warps ++ pieceWorld.warps, copyRounds := [(0, [(0, 0)])] }
     let s : State := { s with teams := s.teams.map fun T => { T with warps := [0, 1] } }
     sharedAfter (exec (.copyGranule 0 0 127) s) 4084 12 = 0 ∧
     sharedAfter (exec (.copyGranule 1 0 127) s) 4084 12 = 0xA + 0xB * 2 ^ 32 + 0xC * 2 ^ 64) := by decide +kernel

/-- The world with a stencil header and its taps at scratchpad x. -/
def stencilWorld (head taps : Nat) (x : Nat := 192) : State :=
  { world { warp [(5, BitVec.ofNat 32 x)] with tvec := 64 } with
    grids := [grid (Memory.write (Memory.write Memory.empty x 16 head) (x + 16) 16 taps)] }
/-- A tap at -1 and one at 0, both of class 0 of one dimension, and the header that counts them. -/
def twoTaps : Nat := 0xFF + 0x3E800000 * 2 ^ 32 + 0x3F000000 * 2 ^ 96
def twoHead : Nat := 2 ^ 8 + 2 * 2 ^ 64

theorem witness_TablesAndLayouts :
    (∀ a : Nat × Nat × Nat, a ∈ [(twoHead, twoTaps, 192), (twoHead, twoTaps, 4072), (twoHead, twoTaps, 4096)] →
      ∃ c, State.ctx? (stencilWorld a.1 a.2.1 a.2.2) = some c ∧ Ctx.mayTrap c ∧ c.warp.reqs = [] ∧ c.warp.mtouch = [] ∧
        (Warp.s c.warp 5).toNat = a.2.2) ∧
    State.badPlace (stencilWorld twoHead twoTaps) 0 (.scratch 0 0 192) 32 = false ∧
    bits twoHead 7 0 ≤ 1 ∧ bits twoHead 15 8 = 1 ∧ bits twoHead 71 64 = 2 ∧ bits twoHead 79 72 = 0 ∧
    (let r := record 0
     bits r 511 448 = 0 ∧ bits r 319 224 = 0 ∧ bits r 63 48 = 0 ∧ bits r 35 32 ≤ 3 ∧ bits r 39 36 ≤ 2 ∧ bits r 175 160 = 64 ∧
       bits r 215 208 = 64 ∧ bits r 383 320 % 32 = 0 ∧ bits r 175 160 * 2 ^ bits r 35 32 % 32 = 0) ∧
    (∀ told, told ∈ [true, false] → ∃ T : Team, ({ team with told := told } : Team) = T ∧ T.told = told) := by
  refine ⟨?_, by decide, by decide, by decide, by decide, by decide, by decide +kernel, fun told _ => ⟨_, rfl, rfl⟩⟩
  intro a h
  simp only [List.mem_cons, List.not_mem_nil, or_false] at h
  rcases h with rfl | rfl | rfl <;> exact ⟨_, rfl, ⟨rfl, rfl, rfl⟩, rfl, rfl, by decide⟩

/-- The statuses of STBIND, in the order of its checks (R186), and its range (R187). -/
theorem test_stbind :
    [(twoHead, twoTaps), (twoHead + 2, twoTaps), (twoHead - 2 ^ 8, twoTaps), (twoHead + 2 ^ 16, twoTaps), (twoHead + 26 * 2 ^ 64, twoTaps),
      (twoHead + 2 ^ 72, twoTaps), (twoHead, twoTaps + 3), (twoHead, twoTaps + 2 ^ 72), (twoHead, twoTaps + 2 ^ 24),
      (twoHead, twoTaps / 2 ^ 64 + twoTaps % 2 ^ 64 * 2 ^ 64)].map (fun a =>
        (bound (exec (.stbind 9 3 5) (stencilWorld a.1 a.2))).1) = [0, 1, 1, 1, 1, 1, 2, 2, 2, 3] ∧
    trapOf (exec (.stbind 9 3 5) (stencilWorld twoHead twoTaps 4080)) = [(0xC1, 4080)] ∧
    trapOf (exec (.stbind 9 3 5) (stencilWorld twoHead twoTaps 4096)) = [(0xC1, 4096)] := by decide +kernel

/-- A word in the stage queue whose reader waits is no stall (R176). -/
theorem test_no_stall_with_an_entry :
    (let s : State := { world spent with warps := [spent, waiting .stageGet { warp [] with index := 1 }],
                                         teams := [{ team with warps := [0, 1], stage := [5] }] }
     (after (exec (.warpEnd 0) s)).reports = [] ∧
     (after (exec (.warpEnd 0) { s with teams := [{ team with warps := [0, 1] }] })).reports = [⟨.stalledTeam, [0]⟩]) := by decide +kernel

/-- A closed batch with ranges that its MWAIT gives back: at once, and once an earlier request is performed (R204). -/
theorem witness_RangesAreGivenBack :
    (let r : MTouch := { batch := some 1, below := none, at_ := .chip .shared 0, len := 32 }
     let x : MTouch := { r with below := some 1 }
     let W : Warp := { atomicWarp (.store .shared 4) with batch := 1, mtouch := [r, x], sregs := [(5, 1)] }
     ∃ c, State.ctx? (world W) = some c ∧ (Warp.s c.warp 5) = 1 ∧ c.warp.batch = 1 ∧ r ∈ c.warp.mtouch ∧ x ∈ c.warp.mtouch ∧
       c.warp.mfail = none ∧ ∃ q, q ∈ c.warp.reqs ∧ q.done = false ∧ q.id < 1) :=
  ⟨_, rfl, by decide, rfl, List.mem_cons_self .., List.mem_cons_of_mem _ (List.mem_singleton.mpr rfl), rfl, _, List.mem_singleton.mpr rfl,
    rfl, by decide⟩

/-- A request issued before the MWAIT still meets the range once it has returned, and a later one does not (R204). -/
theorem test_mwait_lifts :
    (let r : MTouch := { batch := some 1, below := none, at_ := .chip .shared 4092, len := 4 }
     let W : Warp := { atomicWarp (.store .shared 4) with batch := 1, mtouch := [r], sregs := [(5, 1)] }
     (after (exec (.mwait 5) (world W))).warps.map fun V => (State.hidden (world V) V 0 (.chip (.team 0 4092)) 4,
       State.hidden (world V) V 1 (.chip (.team 0 4092)) 4)) = [(true, false)] := by decide +kernel

/-- Core 0's array with one operation of the pair of cores 0 and 1. -/
def pairOp (work : MWork) (unit : Nat) (img : AMap Nat := []) : MOp :=
  { mop work unit with pair := some 1, fphys := [4, 5, 6], img := img }
def pairUnit (work : MWork) (unit : Nat) (img : AMap Nat := []) : State :=
  { opWorld work unit with
    arrays := [(0, { MArray.empty with hold := some held, ops := [pairOp work unit img] }), (1, { MArray.empty with cur := 512 })] }

/-- Format blocks: E4M3 by E4M3, transposed F16 with groups of 32, Q8 by Q8 in groups, E2M1 by E2M1. -/
def fmtBlocks : List FmtBlock :=
  [⟨13, 13, 0, 95, false, 13, 0, 0, 0, 0, 0⟩, ⟨9, 10, 1, 47, true, 9, 0, 0, 1024, 0, 0⟩, ⟨17, 17, 2, 95, false, 10, 0, 512, 1024, 2048, 0⟩,
   ⟨15, 15, 0, 191, false, 15, 0, 0, 0, 0, 0⟩]

theorem witness_PairsAct :
    (∀ a : MWork × Nat, a ∈ [(.mzero 2, 2047), (.mld 2 false .shared 0, 2047), (.mld 2 true .shared 0, 2047), (.mbl 0 0, 767),
        (.mst 2 .shared 0, 1023), (.mblTile 0 bind 0, 767), (.drain 2 0 15, 63), (.drain 2 0 11, 63), (.drainTile 2 3 9, 63),
        (.mma 2 0 0 ⟨17, 17, 2, 95, false, 10, 0, 512, 1024, 2048, 0⟩, 63), (.mma 2 0 1 ⟨15, 15, 0, 191, false, 15, 0, 0, 0, 0, 0⟩, 63),
        (.mmaTile 2 bind 0 0 ⟨9, 10, 1, 47, true, 9, 0, 0, 1024, 0, 0⟩, 63)] →
      let img : AMap Nat := (List.range 192).map fun g => (g, 5)
      let s := pairUnit a.1 a.2 (if a.2 = 63 then img else [(767, 5)])
      ∃ o, (State.array s 0).ops = [o] ∧ o.work = a.1 ∧ o.unit = a.2 ∧ o.pair = some 1 ∧ s.warps[o.w]? = some (warp []) ∧
        (State.array s 0).cur = o.session ∧ o.dead = false ∧ o.fault = none ∧ o.declined = none ∧ o.unit < MOp.units o ∧
        (State.array s 1).ops = [] ∧ (State.array s 1).cur = o.session + 512) ∧
    (∀ b, b ∈ fmtBlocks → b.af ∈ [9, 10, 13, 14, 15, 16, 17] ∧ b.bf ∈ [9, 10, 13, 14, 15, 16, 17] ∧ (b.at_ = true → b.af ≠ 15) ∧
      8 * b.bsc + 2 * 256 * 3 ≤ 65536) ∧
    (∀ core i g, UMem.uncorrectable (MArray.tile (State.array (pairUnit (.mzero 2) 0) core) i) (32 * g) 32 = false ∧
      UMem.uncorrectable (MArray.slot (State.array (pairUnit (.mzero 2) 0) core) i) (32 * g) 32 = false) ∧
    (∀ g, State.badPlace (pairUnit (.mld 2 false .shared 0) 2047) 0 (.team 0 (32 * g)) 32 = false) ∧
    (∀ g, g < 192 → AMap.get? ((List.range 192).map fun g => (g, 5)) g = some 5) ∧
    Where.meets (.chip (State.placeOf (pairUnit (.drain 2 0 15) 63) (warp []) .shared (128 * 63))) 128
      (.chip (State.placeOf (pairUnit (.drain 2 0 15) 63) (warp []) .shared (128 * 127))) 128 = false := by
  refine ⟨?_, by decide, ?_, fun _ => rfl, by decide +kernel, by decide +kernel⟩
  · intro a h
    simp only [List.mem_cons, List.not_mem_nil, or_false] at h
    rcases h with rfl | rfl | rfl | rfl | rfl | rfl | rfl | rfl | rfl | rfl | rfl | rfl <;>
      exact ⟨_, rfl, rfl, rfl, rfl, rfl, rfl, rfl, rfl, rfl, by decide, rfl, rfl⟩
  · intro core i g
    match core with
    | 0 => exact ⟨rfl, rfl⟩
    | 1 => exact ⟨rfl, rfl⟩
    | _ + 2 => exact ⟨rfl, rfl⟩

/-- The 64 by 128 elements of a column load come from columns of 64 (R198). -/
theorem test_column_load :
    (let s := arrayWorld (warp []) { MArray.empty with hold := some held, ops := [mop (.mld 2 true .shared 0) 9] } 0
       (Memory.write Memory.empty 288 32 (2 ^ 255 + 5))
     (tileAfter (exec (.matrixOpUnit 0 .unit) s) 2 (512 * 8 + 4) 4, tileAfter (exec (.matrixOpUnit 0 .unit) s) 2 (512 * 15 + 4) 4)) =
      (5, 0x80000000) := by decide +kernel

/-- A context whose position 2 was abandoned at layer 0. -/
def abandoned : AttnCtx := { attn with abn := [posKey 2 0] }

/-- One operation for each failing check of R260, with its cause and value. -/
def ctxFails : List (CtxOp × Nat × Nat) :=
  [(.res 9 5 0, 0x1C2, 0), (.res 9 5 4097, 0x1C2, 4097), (.acq 9 5 2, 0x1C1, 2), (.pub 5 2 0 1, 0x1C1, 2), (.pub 5 0 0 0, 0x1C2, 0),
   (.pub 5 0 100 1, 0x1C2, 1), (.pub 5 0 3 2, 0x1C3, 4), (.pub 5 0 6 2, 0x1C3, 6), (.pub 5 0 1 3, 0x1C4, 2), (.abn 9 5 0 0, 0x1C2, 0),
   (.abn 9 5 3 2, 0x1C3, 4), (.stat 9 5 0x204, 0x1C1, 2), (.stat 9 5 10, 0x1C6, 10), (.stat 9 5 0x10000, 0x1C6, 0x10000)]

theorem witness_ContextChecks :
    (∀ a, a ∈ ctxFails →
      let c : Ctx := ctx (ctxWarp a.1) (frag 0 [] (.ctx a.1 0))
      Ctx.stands c (ctxWorld a.1 abandoned) ∧ c.frag.wait = .ctx a.1 0 ∧ Warp.ctxWaits c.warp 0 = false ∧ Ctx.mayTrap c ∧
        c.warp.tlev ≤ c.frag.hlev ∧ c.warp.killed = false ∧ CtxOp.word a.1 = 5) ∧
    abandoned.bad = [] ∧ CtxWord.asid ∉ abandoned.bad ∧ AttnCtx.mayGrant abandoned = false ∧ abandoned.layers = 2 ∧ abandoned.next = 4 ∧
    abandoned.frontier.min? = some 0 ∧ 256 * 2 + 0 ∈ abandoned.abn := by
  refine ⟨?_, by decide⟩
  intro a h
  simp only [ctxFails, List.mem_cons, List.not_mem_nil, or_false] at h
  rcases h with rfl | rfl | rfl | rfl | rfl | rfl | rfl | rfl | rfl | rfl | rfl | rfl | rfl | rfl <;>
    exact ⟨⟨rfl, rfl⟩, rfl, by decide, ⟨rfl, rfl, rfl⟩, by decide, rfl, by decide⟩

theorem test_context_checks : ctxFails.map (fun a => trapOf (exec (.ctxServe 0 0) (ctxWorld a.1 abandoned))) =
    ctxFails.map (fun a => [(BitVec.ofNat 32 a.2.1, BitVec.ofNat 32 a.2.2)]) := by decide +kernel

/-- A CREATE of a record on die 0, beside some contexts. -/
def createWorld (rcd : Nat) (cs : List (Nat × AttnCtx)) : State :=
  { world (warp []) with contexts := cs,
                         ctxUnits := [(0, { CmdRegs.zero with pending := some 1, arg0 := rcd % 2 ^ 64, arg1 := rcd / 2 ^ 64 })] }
/-- A record of a capacity, a scope and 256 layers. -/
def ctxRecord (cap scope : Nat) : Nat := cap * 2 ^ 96 + 2 ^ 80 + 255 * 2 ^ 72 + scope * 2 ^ 67
/-- The status that CREATE leaves. -/
def createStatus (o : Out State) : Nat := bits (State.ctxRegs (after o) 0).res 15 8

/-- Records at the bounds of R255; a die whose numbers, or whose 2 MiB, are used (R254, R256). -/
theorem test_create :
    [(0, 3), (1, 3), (2 ^ 24, 4), (2 ^ 24 + 1, 3), (1, 5), (1, 6), (1, 2)].map (fun a => createStatus (exec (.create 0) (createWorld (ctxRecord a.1 a.2) []))) =
      [3, 0, 0, 3, 3, 0, 3] ∧
    createStatus (exec (.create 0) (createWorld (ctxRecord 1 3) ((List.range 256).map fun i => (i, attn)))) = 2 ∧
    createStatus (exec (.create 0) (createWorld (ctxRecord 1 3) ((List.range 7).map fun i => (i, { attn with layers := 256 })))) = 1 ∧
    createStatus (exec (.create 0) (createWorld (ctxRecord 1 3) ((List.range 6).map fun i => (i, { attn with layers := 256 })))) = 0 := by decide +kernel

theorem witness_CreateFails :
    (∃ g, AMap.get? (createWorld (ctxRecord 0 3) []).ctxUnits 0 = some g ∧ g.pending = some 1) ∧
    (∀ i, i < 256 → AMap.get? (createWorld (ctxRecord 1 3) ((List.range 256).map fun i => (i, attn))).contexts (256 * 0 + i) ≠ none) ∧
    bits (ctxRecord 1 3) 127 96 = 1 ∧ bits (ctxRecord 1 3) 71 67 = 3 := ⟨⟨_, rfl, rfl⟩, by decide +kernel, by decide, by decide⟩

/-- Packets along and not along a token's way, and a port that its flits would exhaust. -/
theorem witness_TokensWait :
    (let p : Sent := { kind := 5, dst := 16, data := [], win := 7, bytes := 4, owner := some (0, 0) }
     Sent.along p { p with dst := 17 } = false ∧ Sent.along p { p with win := 6 } = false ∧ Sent.along p { p with kind := 1 } = false ∧
       Sent.along p p = true ∧ Sent.flits p = 2 ∧
       (let s : State := { homeWorld (warp []) with sent := [{ p with owner := some (9, 9) }] }
        State.unanswered s { p with owner := some (9, 9) } = false ∧ some (9, 9) ≠ p.owner) ∧
       (2 ^ 36 - 4) + 2 ≤ 2 ^ 36 - 2 ∧ ¬ (2 ^ 36 - 3) + 2 ≤ 2 ^ 36 - 2) := by decide +kernel

/-- FMC and FGRP: the words of a group, an address and an offset, with all records perhaps used. -/
def groupRegs (n x off : Word) (used : Bool := false) : State :=
  { world { warp [(4, n), (5, x), (6, off)] with
      tvec := 64, mrecs := if used then (List.range 8).map fun k => (k, ⟨0, 9, 3, 0, 32, 64, 1, none, [], 2, 0, [], true⟩) else [] } with
    grpperm := 0x10001, jobs := [(1, 9)] }

/-- One failing check of FMC and FGRP each, with what it traps with. -/
def fmcFails : List ((Word × Word × Word × Bool) × Word × Word) :=
  [((0x10000, 0, 0, false), 0x242, 0x10000), ((3, 0x20000000, 0, false), 0x242, 0x20000000), ((3, 16, 0, false), 0xC5, 16),
   ((3, 32, 16, false), 0xC5, 16), ((3, 4064, 0, false), 0xC0, 4064), ((3, 0x10000FE0, 0, false), 0xC1, 0x10000FE0),
   ((3, 0, 0, true), 0x246, 0)]
def fgrpFails : List ((Word × Word) × Word × Word) :=
  [((256, 0), 0x242, 256), ((3, 32), 0xC5, 32), ((3, 4096), 0xC1, 4096)]

theorem witness_MulticastChecks :
    (∀ a, a ∈ fmcFails → ∃ c, State.ctx? (groupRegs a.1.1 a.1.2.1 a.1.2.2.1 a.1.2.2.2) = some c ∧ Ctx.mayTrap c ∧ Warp.s c.warp 4 = a.1.1 ∧
      Warp.s c.warp 5 = a.1.2.1 ∧ Warp.s c.warp 6 = a.1.2.2.1 ∧
      (a.1.2.2.2 = true → ∀ k, k < 8 → AMap.get? c.warp.mrecs k ≠ none)) ∧
    (∀ a, a ∈ fgrpFails → ∃ c, State.ctx? (groupRegs a.1.1 a.1.2 0) = some c ∧ Ctx.mayTrap c ∧
      State.mayGroup (groupRegs a.1.1 a.1.2 0) (State.asidOf (groupRegs a.1.1 a.1.2 0) c.warp) = true) := by
  refine ⟨?_, ?_⟩ <;> intro a h <;> simp only [fmcFails, fgrpFails, List.mem_cons, List.not_mem_nil, or_false] at h
  · rcases h with rfl | rfl | rfl | rfl | rfl | rfl | rfl <;> exact ⟨_, rfl, ⟨rfl, rfl, rfl⟩, rfl, rfl, rfl, by decide⟩
  · rcases h with rfl | rfl | rfl <;> exact ⟨_, rfl, ⟨rfl, rfl, rfl⟩, by decide⟩

theorem test_multicast_checks :
    fmcFails.map (fun a => trapOf (exec (.fmc 9 4 5 1) (groupRegs a.1.1 a.1.2.1 a.1.2.2.1 a.1.2.2.2))) = fmcFails.map (fun a => [a.2]) ∧
    fgrpFails.map (fun a => trapOf (exec (.fgrpOr 9 4 5) (groupRegs a.1.1 a.1.2 0))) = fgrpFails.map (fun a => [a.2]) := by decide +kernel

/-- Two lines of one warp to one place, with no path to a chip, of which the second waits for the first (R300). -/
def twoLines : State :=
  let m : MRec := { mrec none [] false with req := 1, line := 9 }
  let rs : List Req := [Warp.newReq (warp []) .fb (.fmc 0), { Warp.newReq (warp []) .fb (.fmc 1) with id := 1 }]
  let W : Warp := { fmcWarp (mrec none [] false) with mrecs := [(0, mrec none [] false), (1, m)], nextReq := 2, reqs := rs }
  { fmcWorld (mrec none [] false) with warps := [W], ports := [] }

theorem test_multicast_order : [0, 1].map (fun k => (after (exec (.multicastReplicate 0 k 32) twoLines)).warps.map fun W =>
    W.mrecs.map fun e => e.2.chip) = [[[some 32, none]], [[none, none]]] := by decide +kernel

/-- A peer's multicast line and unicast line, inside its window and beyond it, new and repeated. -/
def lineWorld (seqs : List (Bool × Nat × Nat) := []) : State := { homeWorld (warp []) with seqs := seqs, peers := [] }

theorem witness_LinesArrive :
    (∀ h, h ∈ [hdr 3, hdr 1] → ((AMap.get? (lineWorld).ports h.port).getD Port.zero).up = true ∧ h.tagOk = true ∧ h.ver = 2 ∧
      State.outdated (lineWorld) h.src h.queue h.rcnt = false) ∧
    Window.check (State.window (lineWorld) 3) 9 (.st 32) 0xFFC0 64 false = 0 ∧
    Window.check (State.window (lineWorld) 3) 9 (.st 32) 0xFFE0 64 false ≠ 0 ∧
    (true, 8, 0) ∉ (lineWorld).seqs ∧ (true, 8, 0) ∈ (lineWorld [(true, 8, 0)]).seqs ∧ 32 ≤ (List.replicate 64 (0 : Byte)).length ∧
    (∃ u, State.homePlace (lineWorld) (State.window (lineWorld) 3) (.st 32) 0xFFE0 = some (u, 0x10FFE0)) :=
  ⟨by decide, by decide, by decide, by decide, by decide, by decide, _, rfl⟩

/-- A unicast line is one packet of whole lines (R289, R301), and a line beyond its window is answered as a whole. -/
theorem test_unicast_line :
    ((after (exec (.multicastLineServe (.unicast (hdr 1) 0xFFC0 (List.replicate 64 3) false)) (lineWorld))).homes.map fun h =>
      h.todo.map fun t => (t.1, t.2.1)) = [[(0, 0xFFC0), (1, 0xFFE0)]] ∧
    ((after (exec (.multicastLineServe (.unicast (hdr 1) 0xFFE0 (List.replicate 64 3) false)) (lineWorld))).homes = [] ∧
      ((after (exec (.multicastLineServe (.unicast (hdr 1) 0xFFE0 (List.replicate 64 3) false)) (lineWorld))).sent ++
        (after (exec (.multicastLineServe (.unicast (hdr 1) 0xFFE0 (List.replicate 64 3) false)) (lineWorld))).unsent).map
          (fun p => (p.kind, p.lanes)) = [(2, [0, 1])]) := by decide +kernel

/-- A peer's port that fails under a packet, a token of a peer's from before its reset, and packets that wait. -/
theorem witness_PeersFail :
    (let p : Sent := { kind := 1, dst := 5, data := [], lanes := [31], port := some 4, owner := some (0, 0) }
     let s : State := { homeWorld (reqWarp 5 (.ld .b32 9) 0) with sent := [p], peers := [(5, 0x90)] }
     5 < 511 ∧ ((AMap.get? s.peers 5).getD 0).testBit 4 = true ∧ ((AMap.get? s.peers 5).getD 0).testBit 3 = false ∧
       (∀ V e, V ∈ s.warps → e ∈ V.mrecs → e.2.done = true ∨ e.2.chip ≠ some 4 ∨ 5 ∉ e.2.left) ∧ State.unanswered s p = true ∧
       State.unanswered { s with warps := [warp []] } p = false ∧ s.unsent = [] ∧
       State.paths { s with peers := [(5, 0x80)] } 5 = [] ∧
       State.paths { s with peers := [(5, 0x80)], ports := [(7, { Port.zero with up := true, counter := 2 ^ 36 - 3 })] } 5 = [7]) ∧
    (let h : PktHdr := { hdr 5 with rcnt := 4 }
     let e : Stream := { inbox 0x100 62 true (some h) with warp := none }
     e.due = true ∧ e.reply = some h ∧ h.src = 8 ∧ h.queue = 1 ∧ (h.rcnt + 1) % 2 ^ 16 = 5) ∧
    (let p : Sent := { kind := 1, dst := 5, data := [], win := 3, owner := some (0, 0), lanes := [31] }
     let s : State := { homeWorld (reqWarp 5 (.ld .b32 9) 0) with unsent := [p], sent := [{ p with port := some 9 }] }
     p.again = false ∧ p ∈ s.unsent ∧ State.unanswered s { p with port := some 9 } = true ∧ 9 ∉ State.paths s 5) ∧
    2 ^ 36 - 2 < (2 ^ 36 - 2) + 1 := by
  refine ⟨⟨by decide, by decide, by decide, ?_, by decide⟩, by decide, by decide, by decide⟩
  intro V e hV he
  cases List.mem_singleton.mp hV
  cases he

/-- A peer's port fails: what had been sent over it is to be sent again (R288). -/
theorem test_peer_port_failure :
    (let p : Sent := { kind := 1, dst := 5, data := [], lanes := [31], port := some 4, owner := some (0, 0) }
     let s : State := { homeWorld (reqWarp 5 (.ld .b32 9) 0) with sent := [p], peers := [(5, 0x10)] }
     ((after (exec (.portFailure ⟨4, some 5⟩) s)).unsent.map fun x => (x.dst, x.again)) = [(5, true)]) := by decide +kernel

/-- A context of an owner that has ended is gone (R253). -/
theorem test_contexts_end : (AMap.get? (after (exec (.supervisorReply (.root 1 none)) (ctxWorld (.acq 9 5 1)))).contexts 5).isNone = true := by
  decide
end Sys2Proof.Tests
end

section
/-! How a step chooses the agent that acts and what that agent then does: the arbiter of a core
(R111), the fetch of a fragment's words and of a run's slots (R73), and O55, which puts them together. -/
namespace Sys2Proof.Machine

/-! ### The arbiter -/

/-- A claim of issue is that of a fragment that may issue, of a warp that is active. -/
theorem State.claim_eq_some {s : State} {e : Nat × Nat} {core : Nat} {lev : Bool}
    (h : State.claim s e = some (core, lev)) :
    ∃ W f, s.warps[e.1]? = some W ∧ Warp.frag? W e.2 = some f ∧ State.active s W = true ∧
      Frag.issuable f W = true := by
  unfold State.claim State.warp? at h
  obtain ⟨W, hW, h⟩ := Option.bind_eq_some_iff.mp h
  obtain ⟨f, hf, h⟩ := Option.bind_eq_some_iff.mp h
  split at h
  · rename_i hc
    obtain ⟨ha, hi⟩ := Bool.and_eq_true_iff.mp hc
    exact ⟨W, f, hW, hf, ha, hi⟩
  · cases h

/-- The arbiter's fragment is the choice of the core at which it claims issue. -/
theorem State.chosen_iff {s : State} {e : Nat × Nat} :
    State.chosen s e = true ↔
      ∃ core lev, State.claim s e = some (core, lev) ∧ State.choice s core = some e := by
  unfold State.chosen
  cases State.claim s e with
  | none => simp
  | some p => obtain ⟨core, lev⟩ := p; simp

/-- Why the arbiter of a core serves a fragment (R111): it is of level 0 and has been passed over 64 times;
or no such fragment claims issue, and it is of level 1; or no such one does either, and it is of level 0. -/
theorem State.choice_cases {s : State} {core : Nat} {e : Nat × Nat} (h : State.choice s core = some e) :
    (State.claim s e = some (core, false) ∧ 64 ≤ State.age s e) ∨
    ((∀ x ∈ s.rr, State.claim s x = some (core, false) → State.age s x < 64) ∧
      (State.claim s e = some (core, true) ∨
        State.claim s e = some (core, false) ∧ ∀ x ∈ s.rr, State.claim s x ≠ some (core, true))) := by
  unfold State.choice at h
  cases hold : s.rr.find? fun e => State.claim s e = some (core, false) && 64 ≤ State.age s e with
  | some x =>
    obtain rfl : x = e := by simpa [hold] using h
    exact .inl (by simpa using List.find?_some hold)
  | none =>
    have young : ∀ x ∈ s.rr, State.claim s x = some (core, false) → State.age s x < 64 := by
      simpa using hold
    refine .inr ⟨young, ?_⟩
    cases hone : s.rr.find? fun e => State.claim s e = some (core, true) with
    | some x =>
      obtain rfl : x = e := by simpa [hold, hone] using h
      exact .inl (by simpa using List.find?_some hone)
    | none =>
      have hzero : (s.rr.find? fun e => State.claim s e = some (core, false)) = some e := by
        simpa [hold, hone] using h
      exact .inr ⟨by simpa using List.find?_some hzero, by simpa using hone⟩

/-- A fragment that is served before one of level 1 is of level 1 itself or has been passed over 64 times. -/
theorem State.chosen_before_level1 {s : State} {e x : Nat × Nat} {core : Nat} {lev : Bool}
    (hch : State.chosen s e = true) (he : State.claim s e = some (core, lev)) (hx : x ∈ s.rr)
    (hcx : State.claim s x = some (core, true)) : lev = true ∨ 64 ≤ State.age s e := by
  obtain ⟨core', lev', he', hc⟩ := State.chosen_iff.mp hch
  obtain ⟨rfl, rfl⟩ : core = core' ∧ lev = lev' := by simpa [he] using he'
  rcases State.choice_cases hc with ⟨_, hage⟩ | ⟨_, hone | ⟨_, hno⟩⟩
  · exact .inr hage
  · exact .inl (by simpa [he] using hone)
  · exact absurd hcx (hno x hx)

/-- A fragment that is served before one of level 0 that has been passed over 64 times is such a one itself. -/
theorem State.chosen_before_aged {s : State} {e x : Nat × Nat} {core : Nat} {lev : Bool}
    (hch : State.chosen s e = true) (he : State.claim s e = some (core, lev)) (hx : x ∈ s.rr)
    (hcx : State.claim s x = some (core, false)) (hage : 64 ≤ State.age s x) :
    lev = false ∧ 64 ≤ State.age s e := by
  obtain ⟨core', lev', he', hc⟩ := State.chosen_iff.mp hch
  obtain ⟨rfl, rfl⟩ : core = core' ∧ lev = lev' := by simpa [he] using he'
  rcases State.choice_cases hc with ⟨hzero, hold⟩ | ⟨young, _⟩
  · exact ⟨by simpa [he] using hzero, hold⟩
  · exact absurd (young x hx hcx) (Nat.not_lt.mpr hage)

/-- Serving a fragment changes only the arbiter's order and the counts of the passed over (R111). -/
theorem State.issueTo_only (s : State) (w slot : Nat) :
    State.issueTo s w slot =
      { s with rr := (State.issueTo s w slot).rr, ages := (State.issueTo s w slot).ages } := by
  unfold State.issueTo; split <;> rfl

@[simp] theorem State.issueTo_warps (s : State) (w slot : Nat) :
    (State.issueTo s w slot).warps = s.warps := by rw [State.issueTo_only]

@[simp] theorem State.issueTo_teams (s : State) (w slot : Nat) :
    (State.issueTo s w slot).teams = s.teams := by rw [State.issueTo_only]

/-- Whether a warp is active rests on the teams alone. -/
theorem State.active_congr {s t : State} (h : t.teams = s.teams) (W : Warp) :
    State.active t W = State.active s W := by
  unfold State.active State.resident State.teamOf?; rw [h]

/-! ### The turn of a step -/

theorem State.nextTurn_cons {s : State} {t : Turn} {rest : List Turn} (h : s.agenda = t :: rest) :
    State.nextTurn s = some (t, { s with agenda := rest }) := by
  unfold State.nextTurn; rw [h]

theorem step_of_no_turn {s : State} (h : State.nextTurn s = none) : step s = .next s := by
  unfold step; rw [h]

/-- An agent that may not act yet passes its turn. -/
theorem step_of_not_acts {s u : State} {t : Turn} (h : State.nextTurn s = some (t, u))
    (ha : State.acts u t = false) : step s = .next u := by
  unfold step; simp only [h, ha, Bool.not_false, if_true]

theorem step_of_event {s u : State} {i : Instr} (h : State.nextTurn s = some (.event i, u))
    (hk : i.kind = .event) (ha : State.acts u (.event i) = true) : step s = exec i u := by
  unfold step; simp only [h, ha, hk, Bool.not_true, Bool.false_eq_true, if_false, if_true]

theorem step_of_lane {s u : State} {w : Nat} (h : State.nextTurn s = some (.lane w, u))
    (hb : u.island.booted = true) : step s = stepLane { u with laneCur := w } := by
  have ha : State.acts u (.lane w) = true := hb
  unfold step; simp only [h, ha, Bool.not_true, Bool.false_eq_true, if_false]

theorem step_of_chosen {s u : State} {w slot : Nat} (h : State.nextTurn s = some (.scalar w slot, u))
    (hb : u.island.booted = true) (hc : State.chosen u (w, slot) = true) :
    step s = stepScalar { State.issueTo u w slot with cur := (w, slot) } := by
  have ha : State.acts u (.scalar w slot) = true := hb
  unfold step; simp only [h, ha, hc, Bool.not_true, Bool.false_eq_true, if_false, if_true]

theorem step_of_not_chosen {s u : State} {w slot : Nat} (h : State.nextTurn s = some (.scalar w slot, u))
    (hc : u.island.booted = false ∨ State.chosen u (w, slot) = false) : step s = .next u := by
  cases ha : State.acts u (.scalar w slot) with
  | false => exact step_of_not_acts h ha
  | true =>
    have hb : u.island.booted = true := ha
    have hc : State.chosen u (w, slot) = false := hc.resolve_left (by simp [hb])
    unfold step; simp only [h, ha, hc, Bool.not_true, Bool.false_eq_true, if_false]

/-- Once the device has booted and its firmware is loaded, every event's agent acts. -/
theorem State.acts_event {s : State} (hb : s.island.booted = true) (hl : s.island.loaded = true) (i : Instr) :
    State.acts s (.event i) = true := by
  unfold State.acts; simp [hb, hl]

/-! ### The words of a fragment -/

/-- The fragment that executes may issue, and no trap of its warp comes first (R111, R315). -/
structure Ctx.ready (c : Ctx) (s : State) : Prop where
  ctx : State.ctx? s = some c
  active : State.active s c.warp = true
  issuable : Frag.issuable c.frag c.warp = true
  noTrap : Warp.trapDue c.warp = false

theorem Warp.trapDue_eq_false {W : Warp} (hl : W.laneTrap = none) (hd : Warp.dueAsync W = none) :
    Warp.trapDue W = false := by
  unfold Warp.trapDue; simp [hl, hd]

/-- A fragment that may issue waits in nothing. -/
theorem Ctx.issuing_of_issuable {c : Ctx} (h : Frag.issuable c.frag c.warp = true) : Ctx.issuing c = c := by
  have hw : c.frag.wait = .ready := of_decide_eq_true (Bool.and_eq_true_iff.mp h).1
  unfold Ctx.issuing; rw [← hw]

/-- The fragment that its core's arbiter serves is ready once its turn has been taken, when no trap of its warp is
due. -/
theorem State.ready_of_chosen {u : State} {w slot : Nat} {c : Ctx} (hch : State.chosen u (w, slot) = true)
    (hc : State.ctx? { State.issueTo u w slot with cur := (w, slot) } = some c)
    (hl : c.warp.laneTrap = none) (hd : Warp.dueAsync c.warp = none) :
    Ctx.ready c { State.issueTo u w slot with cur := (w, slot) } := by
  obtain ⟨core, lev, hcl, -⟩ := State.chosen_iff.mp hch
  obtain ⟨W, f, hW, hf, ha, hi⟩ := State.claim_eq_some hcl
  obtain rfl : c = ⟨w, slot, W, f⟩ := by
    simpa [State.ctx?, State.warp?, hW, hf] using hc.symm
  exact ⟨hc, (State.active_congr (State.issueTo_teams u w slot) W).trans ha, hi, Warp.trapDue_eq_false hl hd⟩

/-- A ready fragment whose fetch fails takes the trap of the fetch. -/
theorem stepScalar_of_fault {s : State} {c : Ctx} {f : FetchFault} {va : Nat} (h : Ctx.ready c s)
    (hf : fetchScalar s c = .error (f, va)) : stepScalar s = Ctx.fetchFault c s (causeCode 2 0) f va := by
  have hn : nextScalar s = .fault f va := by
    simp [nextScalar, h.ctx, h.active, h.issuable, h.noTrap, hf]
  unfold stepScalar
  simp only [hn]
  rw [withFrag_ctx h.ctx, Ctx.issuing_of_issuable h.issuable]

/-- A ready fragment whose words decode executes their instruction, which is counted (R365). -/
theorem stepScalar_of_instr {s t : State} {c : Ctx} {w : Nat} {next : Option Nat} {i : Instr} (h : Ctx.ready c s)
    (hf : fetchScalar s c = .ok (t, w, next)) (hd : decodeScalar w next = .ok i) :
    stepScalar s = exec i (State.tick t (State.coreOf t c.warp) 1) := by
  have hn : nextScalar s = .instr i (State.tick t (State.coreOf t c.warp) 1) := by
    simp [nextScalar, h.ctx, h.active, h.issuable, h.noTrap, hf, hd]
  unfold stepScalar
  rw [hn]

/-- The check of a start leaves the executable mappings. -/
theorem State.mapping?_checkStart {s t : State} {ag : Agent} {asid va pa : Nat} {lane : Bool}
    (h : State.checkStart s ag asid va lane = .ok (t, pa)) : State.mapping? t = State.mapping? s := by
  rw [State.checkStart_only h]; rfl

/-- A word outside every executable mapping cannot be fetched. -/
theorem State.fetchWord_of_unmapped {s : State} {ag : Agent} {asid va : Nat} (hm : State.mapping? s asid va = none) :
    State.fetchWord s ag asid va = .error (State.unmappedFetch s ag asid va, va) := by
  unfold State.fetchWord; rw [hm]

/-- A word in an executable mapping whose address translates is fetched, and counted where it is uncorrectable. -/
theorem State.fetchWord_of_mapped {s t : State} {ag : Agent} {asid va pa : Nat}
    (hm : (State.mapping? s asid va).isSome = true) (ht : State.translate s ag asid va .fetch = .ok (t, pa)) :
    State.fetchWord s ag asid va =
      .ok (if Memory.uncorrectable t.main pa 4 then State.countMain t pa else t, Memory.read t.main pa 4,
        Memory.uncorrectable t.main pa 4) := by
  obtain ⟨m, hm⟩ := Option.isSome_iff_exists.mp hm
  unfold State.fetchWord
  simp only [hm, ht]
  cases Memory.uncorrectable t.main pa 4 <;> rfl

theorem fetchScalar_of_start_error {s : State} {c : Ctx} {f : FetchFault}
    (h : Ctx.target c s c.frag.pc = .error f) :
    fetchScalar s c = .error (f, State.scalarVA s c.warp c.frag.pc) := by
  unfold Ctx.target at h
  unfold fetchScalar; simp only [h]

section FirstWord
variable {s t : State} {c : Ctx} {pa : Nat} (h : Ctx.target c s c.frag.pc = .ok (t, pa))
include h

theorem fetchScalar_of_bad_first (hb : Memory.uncorrectable t.main pa 4 = true) :
    fetchScalar s c = .error (.bad, State.scalarVA s c.warp c.frag.pc) := by
  unfold Ctx.target at h
  unfold fetchScalar; simp only [h, hb, if_true]

theorem fetchScalar_of_one_word (hb : Memory.uncorrectable t.main pa 4 = false)
    (hl : scalarLength (Memory.read t.main pa 4) = 1) :
    fetchScalar s c = .ok (t, Memory.read t.main pa 4, none) := by
  unfold Ctx.target at h
  unfold fetchScalar; simp [h, hb, hl]

variable (hb : Memory.uncorrectable t.main pa 4 = false) (hl : scalarLength (Memory.read t.main pa 4) = 2)
include hb hl

/-- The second word of a two-word form lies outside every executable mapping. -/
theorem fetchScalar_of_unmapped_second
    (hm : State.mapping? s (State.asidOf s c.warp) (State.scalarVA s c.warp c.frag.pc + 4) = none) :
    fetchScalar s c = .error (State.unmappedFetch t (.core (State.coreOf s c.warp)) (State.asidOf s c.warp)
      (State.scalarVA s c.warp c.frag.pc + 4), State.scalarVA s c.warp c.frag.pc + 4) := by
  rw [← State.mapping?_checkStart h] at hm
  unfold Ctx.target at h
  unfold fetchScalar
  simp only [h, hb, hl, State.fetchWord_of_unmapped hm, Bool.false_eq_true, if_false, if_true]

variable {u : State} {pb : Nat}
  (hm : (State.mapping? s (State.asidOf s c.warp) (State.scalarVA s c.warp c.frag.pc + 4)).isSome = true)
  (ht : State.translate t (.core (State.coreOf s c.warp)) (State.asidOf s c.warp)
    (State.scalarVA s c.warp c.frag.pc + 4) .fetch = .ok (u, pb))
include hm ht

theorem fetchScalar_of_bad_second (hb' : Memory.uncorrectable u.main pb 4 = true) :
    fetchScalar s c = .error (.bad, State.scalarVA s c.warp c.frag.pc + 4) := by
  rw [← State.mapping?_checkStart h] at hm
  unfold Ctx.target at h
  unfold fetchScalar
  simp only [h, hb, hl, State.fetchWord_of_mapped hm ht, hb', Bool.false_eq_true, if_false, if_true]

theorem fetchScalar_of_two_words (hb' : Memory.uncorrectable u.main pb 4 = false) :
    fetchScalar s c = .ok (u, Memory.read t.main pa 4, some (Memory.read u.main pb 4)) := by
  rw [← State.mapping?_checkStart h] at hm
  unfold Ctx.target at h
  unfold fetchScalar
  simp only [h, hb, hl, State.fetchWord_of_mapped hm ht, hb', Bool.false_eq_true, if_false, if_true]

end FirstWord

/-! ### The slots of a run -/

/-- A fetched word lies in an executable mapping, and its fetch leaves the mappings. -/
theorem State.fetchWord_mapped {s t : State} {ag : Agent} {asid va : Nat} {word : Nat × Bool}
    (h : State.fetchWord s ag asid va = .ok (t, word)) :
    (State.mapping? s asid va).isSome = true ∧ State.mapping? t = State.mapping? s := by
  cases hm : State.mapping? s asid va with
  | none => rw [State.fetchWord_of_unmapped hm] at h; cases h
  | some m =>
    refine ⟨rfl, ?_⟩
    cases ht : State.translate s ag asid va .fetch with
    | error f => unfold State.fetchWord at h; simp [hm, ht] at h
    | ok r =>
      obtain ⟨u, pa⟩ := r
      rw [State.fetchWord_of_mapped (by simp [hm]) ht, State.translate_only ht] at h
      cases h
      split <;> rfl

/-- The fetch of a slot's three words, and then of the slots behind it unless it is the TRAIL. -/
theorem fetchSlots_succ {s t : State} {ag : Agent} {asid n va : Nat} {code : List Slot}
    (h : fetchSlots s ag asid (n + 1) va = .ok (t, code)) :
    ∃ (a b d : State) (w0 w1 w2 : Nat × Bool) (slot : Slot) (rest : List Slot),
      State.fetchWord s ag asid va = .ok (a, w0) ∧ State.fetchWord a ag asid (va + 4) = .ok (b, w1) ∧
      State.fetchWord b ag asid (va + 8) = .ok (d, w2) ∧ code = slot :: rest ∧
      (rest = [] ∨ fetchSlots d ag asid n (va + 12) = .ok (t, rest)) := by
  unfold fetchSlots at h
  split at h
  · cases h
  rename_i a _ _ h0
  split at h
  · cases h
  rename_i b _ _ h1
  split at h
  · cases h
  rename_i d _ _ h2
  dsimp only at h
  split at h
  · cases h
    exact ⟨a, b, _, _, _, _, _, [], h0, h1, h2, rfl, .inl rfl⟩
  · split at h
    · cases h
    · rename_i u rest hr
      cases h
      exact ⟨a, b, d, _, _, _, _, rest, h0, h1, h2, rfl, .inr hr⟩

/-- Every word of every slot that a run's fetch gives lies in an executable mapping (R73). -/
theorem fetchSlots_mapped {ag : Agent} {asid n : Nat} {s t : State} {va : Nat} {code : List Slot}
    (h : fetchSlots s ag asid n va = .ok (t, code)) (k : Nat) (hk : k < 3 * code.length) :
    (State.mapping? s asid (va + 4 * k)).isSome = true := by
  induction n generalizing s va code k with
  | zero => cases h; exact absurd hk (Nat.not_lt_zero k)
  | succ n ih =>
    obtain ⟨a, b, d, _, _, _, _, rest, h0, h1, h2, rfl, hr⟩ := fetchSlots_succ h
    obtain ⟨m0, ea⟩ := State.fetchWord_mapped h0
    obtain ⟨m1, eb⟩ := State.fetchWord_mapped h1
    obtain ⟨m2, ed⟩ := State.fetchWord_mapped h2
    rw [ea] at m1
    rw [eb, ea] at m2
    match k with
    | 0 => exact m0
    | 1 => exact m1
    | 2 => exact m2
    | k + 3 =>
      rcases hr with rfl | hr
      · exact absurd hk (by rw [List.length_singleton]; omega)
      · have := ih hr k (by rw [List.length_cons] at hk; omega)
        rwa [ed, eb, ea, show va + 12 + 4 * k = va + 4 * (k + 3) by omega] at this

section Slot
variable {s : State} {W : Warp} {e : RunExec} {slot : Slot} (hw : s.warps[s.laneCur]? = some W)
  (he : W.exec = some e) (ht : e.trail = none)
include hw he ht

/-- A run that is not at its TRAIL is the executing one of its warp. -/
theorem State.laneCtx?_of_exec : State.laneCtx? s = some ⟨s.laneCur, W, e⟩ := by
  simp [State.laneCtx?, State.warp?, hw, he, ht]

variable (ha : State.active s W = true) (hs : e.entry.code[e.idx]? = some slot)
include ha hs

/-- A run executes the instruction of its next slot (R119). -/
theorem stepLane_of_slot {i : Instr} (hl : slot.lost = false) (hd : decodeLane slot.w0 slot.w1 slot.w2 = .ok i) :
    stepLane s = exec i s := by
  have hn : nextLane s = some (.ok i) := by
    simp [nextLane, State.warp?, hw, ha, he, ht, hs, hl, hd]
  unfold stepLane; rw [hn]

/-- A run that comes to a lost slot traps with MEMUNC at the slot's address (R25). -/
theorem stepLane_of_lost_slot (hl : slot.lost = true) :
    stepLane s = LaneCtx.trap ⟨s.laneCur, W, e⟩ s (causeCode 4 4) e.live
      (dword (State.runVA s W (LaneCtx.index ⟨s.laneCur, W, e⟩))) := by
  have hn : nextLane s = none := by
    simp [nextLane, State.warp?, hw, ha, he, ht, hs, hl]
  have hlost : State.lostSlot s = some (LaneCtx.trap ⟨s.laneCur, W, e⟩ s (causeCode 4 4) e.live
      (dword (State.runVA s W (LaneCtx.index ⟨s.laneCur, W, e⟩)))) := by
    simp [State.lostSlot, State.laneCtx?_of_exec hw he ht, hs, hl, ha]
  unfold stepLane; rw [hn, hlost]; rfl

end Slot

/-! ### A step runs what it decodes -/

/-- Settles O55: a step is the turn's agent's, and a ready fragment's or an active run's is what its fetch gives. -/
theorem stepRunsDecodedInstruction : Obligations.StepRunsDecodedInstruction := by
  unfold Obligations.StepRunsDecodedInstruction
  refine ⟨?fragment, ?run, fun s t ag asid n va code h k hk => fetchSlots_mapped h k hk,
    fun s u i h hk => ⟨step_of_event h hk, step_of_not_acts h⟩, fun s i hb hl => State.acts_event hb hl i,
    fun s e x core lev hch he hx => ⟨State.chosen_before_level1 hch he hx, State.chosen_before_aged hch he hx⟩,
    fun s t rest h => State.nextTurn_cons h, fun s h => step_of_no_turn h⟩
  case fragment =>
    intro s u w slot h v
    refine ⟨step_of_not_chosen h, fun c hb hch hc hl hd => ?_⟩
    rw [step_of_chosen h hb hch]
    have hr : Ctx.ready c v := State.ready_of_chosen hch hc hl hd
    refine ⟨fun x pa hx => ⟨fun hb => ?_, fun hb h2 hm ho => ?_, fun y pb hb h2 hm ht hb' => ?_,
        fun i hb h1 hi => ?_, fun y pb i hb h2 hm ht hb' hi => ?_⟩,
      fun hx => stepScalar_of_fault hr (fetchScalar_of_start_error hx),
      fun hx => stepScalar_of_fault hr (fetchScalar_of_start_error hx),
      fun f hx => stepScalar_of_fault hr (fetchScalar_of_start_error hx)⟩
    · exact stepScalar_of_fault hr (fetchScalar_of_bad_first hx hb)
    · have hf := fetchScalar_of_unmapped_second hx hb h2 hm
      rw [ho] at hf
      exact stepScalar_of_fault hr hf
    · exact stepScalar_of_fault hr (fetchScalar_of_bad_second hx hb h2 hm ht hb')
    · exact stepScalar_of_instr hr (fetchScalar_of_one_word hx hb h1) hi
    · exact stepScalar_of_instr hr (fetchScalar_of_two_words hx hb h2 hm ht hb') hi
  case run =>
    intro s u w W e slot i h hb hw ha he ht hs v
    rw [step_of_lane h hb]
    refine ⟨stepLane_of_slot (s := v) hw he ht ha hs, fun hl c hc => ?_⟩
    obtain rfl : c = ⟨w, W, e⟩ := Option.some.inj (hc.symm.trans (State.laneCtx?_of_exec (s := v) hw he ht))
    exact stepLane_of_lost_slot (s := v) hw he ht ha hs hl

end Sys2Proof.Machine
end

section
/-! How a run starts and commits (R19, R26, R112, R121): what write-backs, issued requests and departing
packets leave of a warp and of the device, and O16, which puts them together. -/
namespace Sys2Proof.Machine

/-! ### Register lanes -/

/-- Lanes below 32 of vector registers have keys of their own. -/
theorem vKey_inj {d e L M : Nat} (hL : L < 32) (hM : M < 32) : vKey d L = vKey e M ↔ d = e ∧ L = M := by
  unfold vKey; omega

theorem Warp.v_setV_same (W : Warp) (d L : Nat) (x : Word) : Warp.v (Warp.setV W d L x) d L = x :=
  SMap.get_set_same _ _ _

theorem Warp.v_setV_other (W : Warp) {d e L M : Nat} (x : Word) (hL : L < 32) (hM : M < 32)
    (h : ¬ (e = d ∧ M = L)) : Warp.v (Warp.setV W d L x) e M = Warp.v W e M :=
  SMap.get_set_other _ _ _ _ (mt (vKey_inj hM hL).mp h)

theorem Warp.v_setP (W : Warp) (n : Nat) (m : Word) (d L : Nat) : Warp.v (Warp.setP W n m) d L = Warp.v W d L := by
  unfold Warp.v; rw [Warp.setP_vregs]

theorem Warp.p_setV (W : Warp) (d L : Nat) (x : Word) (n : Nat) : Warp.p (Warp.setV W d L x) n = Warp.p W n := rfl

theorem Warp.p_setP_same (W : Warp) {n : Nat} (m : Word) (h : n ≠ 0) : Warp.p (Warp.setP W n m) n = m := by
  simp [Warp.p, Warp.setP, h]

theorem Warp.p_setP_other (W : Warp) {n k : Nat} (m : Word) (h : k ≠ n) : Warp.p (Warp.setP W n m) k = Warp.p W k := by
  unfold Warp.p Warp.setP
  by_cases hn : n = 0
  · rw [if_pos hn]
  · rw [if_neg hn, SMap.get_set_other _ _ _ _ h]

theorem getLsbD_setBit (m : Word) (i : Nat) (b : Bool) {L : Nat} (hL : L < 32) :
    (setBit m i b).getLsbD L = if i = L then b else m.getLsbD L := by
  unfold setBit
  by_cases h : i = L
  · cases b <;> simp [h, hL]
  · have h' : L ≠ i := Ne.symm h
    cases b <;> simp [h, h', hL]

/-! ### Write-backs -/

/-- The lane of a write-back. -/
def WriteBack.lane : WriteBack → Nat
  | .vreg L _ _ => L
  | .preg L _ _ => L

/-- A write-back aimed elsewhere leaves a register lane. -/
theorem Warp.v_writeBack_other (W : Warp) (b : WriteBack) {d L : Nat} (hb : b.lane < 32) (hL : L < 32)
    (h : ∀ v, b ≠ .vreg L d v) : Warp.v (Warp.writeBack W b) d L = Warp.v W d L := by
  cases b with
  | vreg M e x => exact Warp.v_setV_other W x hb hL fun ⟨hd, hM⟩ => h x (by rw [hd, hM])
  | preg M p c => exact Warp.v_setP _ _ _ _ _

/-- A write-back aimed elsewhere leaves a predicate lane. -/
theorem Warp.p_writeBack_other (W : Warp) (b : WriteBack) {p L : Nat} (hL : L < 32)
    (h : ∀ c, b ≠ .preg L p c) : (Warp.p (Warp.writeBack W b) p).getLsbD L = (Warp.p W p).getLsbD L := by
  cases b with
  | vreg M e x => rfl
  | preg M q c =>
    show (Warp.p (Warp.setP W q (setBit (Warp.p W q) M c)) p).getLsbD L = _
    by_cases hp : p = q
    · subst hp
      have hM : M ≠ L := fun hM => h c (by rw [hM])
      by_cases h0 : p = 0
      · simp [Warp.setP, h0]
      · rw [Warp.p_setP_same _ _ h0, getLsbD_setBit _ _ _ hL, if_neg hM]
    · rw [Warp.p_setP_other _ _ hp]

/-- Write-backs of which none is aimed at a register lane leave it. -/
theorem Warp.v_writeBacks_other (bs : List WriteBack) (W : Warp) {d L : Nat} (hb : ∀ b ∈ bs, b.lane < 32)
    (hL : L < 32) (h : ∀ v, WriteBack.vreg L d v ∉ bs) :
    Warp.v (bs.foldl Warp.writeBack W) d L = Warp.v W d L := by
  induction bs generalizing W with
  | nil => rfl
  | cons b bs ih =>
    rw [List.foldl_cons, ih _ (fun x hx => hb x (.tail _ hx)) fun v hv => h v (.tail _ hv),
      Warp.v_writeBack_other W b (hb b (.head _)) hL fun v hv => h v (hv ▸ .head _)]

/-- Write-backs of which none is aimed at a predicate lane leave it. -/
theorem Warp.p_writeBacks_other (bs : List WriteBack) (W : Warp) {p L : Nat} (hL : L < 32)
    (h : ∀ c, WriteBack.preg L p c ∉ bs) :
    (Warp.p (bs.foldl Warp.writeBack W) p).getLsbD L = (Warp.p W p).getLsbD L := by
  induction bs generalizing W with
  | nil => rfl
  | cons b bs ih =>
    rw [List.foldl_cons, ih _ fun v hv => h v (.tail _ hv),
      Warp.p_writeBack_other W b hL fun v hv => h v (hv ▸ .head _)]

/-- A register lane holds the last write-back aimed at it. -/
theorem Warp.v_writeBacks_last (xs ys : List WriteBack) (W : Warp) {d L : Nat} (v : Word)
    (hb : ∀ b ∈ xs ++ WriteBack.vreg L d v :: ys, b.lane < 32) (h : ∀ v', WriteBack.vreg L d v' ∉ ys) :
    Warp.v ((xs ++ WriteBack.vreg L d v :: ys).foldl Warp.writeBack W) d L = v := by
  have hL : L < 32 := hb (.vreg L d v) (by simp)
  rw [List.foldl_append, List.foldl_cons,
    Warp.v_writeBacks_other ys _ (fun b hy => hb b (by simp [hy])) hL h]
  exact Warp.v_setV_same _ _ _ _

/-- A predicate lane holds the last write-back aimed at it. -/
theorem Warp.p_writeBacks_last (xs ys : List WriteBack) (W : Warp) {p L : Nat} (c : Bool) (hL : L < 32)
    (hp : p ≠ 0) (h : ∀ c', WriteBack.preg L p c' ∉ ys) :
    (Warp.p ((xs ++ WriteBack.preg L p c :: ys).foldl Warp.writeBack W) p).getLsbD L = c := by
  rw [List.foldl_append, List.foldl_cons, Warp.p_writeBacks_other ys _ hL h]
  show (Warp.p (Warp.setP _ p _) p).getLsbD L = c
  rw [Warp.p_setP_same _ _ hp, getLsbD_setBit _ _ _ hL, if_pos rfl]

/-- Write-backs change vector registers and predicates, and nothing else of a warp. -/
theorem Warp.writeBacks_only (bs : List WriteBack) (W : Warp) :
    ∃ vs ps, bs.foldl Warp.writeBack W = { W with vregs := vs, preds := ps } := by
  induction bs generalizing W with
  | nil => exact ⟨W.vregs, W.preds, rfl⟩
  | cons b bs ih =>
    obtain ⟨vs, ps, h⟩ := ih (Warp.writeBack W b)
    refine ⟨vs, ps, ?_⟩
    rw [List.foldl_cons, h]
    cases b with
    | vreg L d v => rfl
    | preg L p c => unfold Warp.writeBack Warp.setP; dsimp only; split <;> rfl

/-! ### Requests issued together -/

/-- Requests that issue one after another are numbered in their order. -/
theorem Warp.issues_eq (rs : List Req) (W : Warp) {m k : Nat} (h : W.nextReq = m + k) :
    rs.foldl Warp.issue W =
      { W with reqs := W.reqs ++ (rs.zipIdx k).map fun x => { x.1 with id := m + x.2 },
               nextReq := W.nextReq + rs.length } := by
  induction rs generalizing W k with
  | nil => simp
  | cons r rs ih =>
    rw [List.foldl_cons, ih (Warp.issue W r) (k := k + 1) (by simp [Warp.issue, h, Nat.add_assoc])]
    simp [Warp.issue, List.zipIdx_cons, h]
    omega

/-- The warp after a commit: its registers those of the write-backs, its requests those of before and the
run's, in instruction order. -/
theorem Warp.commit_eq (W : Warp) (e : RunExec) :
    Warp.commit W e = { W with
      exec := none, vregs := (e.wbs.foldl Warp.writeBack W).vregs, preds := (e.wbs.foldl Warp.writeBack W).preds,
      reqs := W.reqs ++ e.reqs.zipIdx.map fun x => { x.1 with id := W.nextReq + x.2 },
      nextReq := W.nextReq + e.reqs.length } := by
  obtain ⟨vs, ps, h⟩ := Warp.writeBacks_only e.wbs W
  unfold Warp.commit
  dsimp only
  rw [Warp.issues_eq e.reqs _ (m := W.nextReq) (k := 0) (by rw [h]; rfl), h]

theorem Warp.v_commit (W : Warp) (e : RunExec) (d L : Nat) :
    Warp.v (Warp.commit W e) d L = Warp.v (e.wbs.foldl Warp.writeBack W) d L := by
  rw [Warp.commit_eq]; rfl

theorem Warp.p_commit (W : Warp) (e : RunExec) (p : Nat) :
    Warp.p (Warp.commit W e) p = Warp.p (e.wbs.foldl Warp.writeBack W) p := by
  rw [Warp.commit_eq]; rfl

/-- A request of a commit that carries a new number is one of the run's. -/
theorem Warp.commit_new {W : Warp} {e : RunExec} (hid : ∀ r, r ∈ W.reqs → r.id < W.nextReq) {r : Req}
    (h : r ∈ (Warp.commit W e).reqs) (hr : W.nextReq ≤ r.id) : ∃ q, q ∈ e.reqs ∧ r.op = q.op := by
  rw [Warp.commit_eq, List.mem_append, List.mem_map] at h
  rcases h with hold | ⟨⟨q, k⟩, hq, rfl⟩
  · exact absurd (hid r hold) (by omega)
  · exact ⟨q, (List.mem_zipIdx' hq).2 ▸ List.getElem_mem _, rfl⟩

/-! ### Packets that leave -/

/-- State `t` is state `s` after packets have left or begun to wait: only the packets, the numbers and flit
counters of their ports, and the reports of ports differ (R288, R289, R307). -/
def State.onlySends (s t : State) : Prop :=
  t = { s with sent := t.sent, unsent := t.unsent, seqOut := t.seqOut, ports := t.ports, reports := t.reports }

theorem State.onlySends_refl (s : State) : State.onlySends s s := rfl

theorem State.onlySends_trans {s t u : State} (h : State.onlySends s t) (k : State.onlySends t u) :
    State.onlySends s u := by
  unfold State.onlySends at h k ⊢
  rw [k, h]

/-- Packets sent one after another. -/
theorem State.onlySends_foldl {α : Type} (f : State → α → State) (hf : ∀ s a, State.onlySends s (f s a))
    (xs : List α) (s : State) : State.onlySends s (xs.foldl f s) := by
  induction xs generalizing s with
  | nil => exact State.onlySends_refl s
  | cons a xs ih => exact State.onlySends_trans (hf s a) (ih _)

theorem State.onlySends_flits (s : State) (p n : Nat) : State.onlySends s (State.flits s p n) := by
  unfold State.flits State.onPort
  dsimp only
  split <;> split <;> rfl

theorem State.onlySends_leave (n : Nat) (s : State) (p : Sent) : State.onlySends s (State.leave n s p) := by
  induction n generalizing s p with
  | zero => rfl
  | succ n ih =>
    unfold State.leave
    cases State.portFor s p with
    | none => rfl
    | some port =>
      have hf := State.onlySends_flits s port (Sent.flits p)
      dsimp only
      split
      · exact State.onlySends_trans hf rfl
      · exact State.onlySends_trans hf (ih _ _)

theorem State.onlySends_depart (s : State) (p : Sent) : State.onlySends s (State.depart s p) := by
  unfold State.depart
  split
  · rfl
  · exact State.onlySends_leave _ _ _

theorem State.onlySends_post (s : State) (p : Sent) : State.onlySends s (State.post s p) :=
  State.onlySends_trans (t := (State.number s p).1) rfl (State.onlySends_depart _ _)

/-- The packets of a FAX only leave or wait. -/
theorem State.onlySends_sendFax (w : Nat) (W : Warp) (s : State) (r : Req) :
    State.onlySends s (State.sendFax w W s r) := by
  unfold State.sendFax
  split
  · split
    · rfl
    · exact State.onlySends_foldl _ (fun _ _ => State.onlySends_post _ _) _ _
  · rfl

/-- A request that is no FAX, or a FAX to this device itself, sends nothing. -/
theorem State.sendFax_self (w : Nat) (W : Warp) {s : State} {r : Req}
    (h : ∀ peer win op pkts neg, r.op = .fax peer win op pkts neg → peer = 0x1FF ∨ peer = s.fabid) :
    State.sendFax w W s r = s := by
  unfold State.sendFax
  split
  · next peer win op pkts neg hop =>
    rw [if_pos]
    simpa [State.isSelf] using h peer win op pkts neg hop
  · rfl

/-- Nor do such requests together. -/
theorem State.sendFaxes_self (w : Nat) (W : Warp) {s : State} (rs : List Req)
    (h : ∀ r, r ∈ rs → ∀ peer win op pkts neg, r.op = .fax peer win op pkts neg → peer = 0x1FF ∨ peer = s.fabid) :
    rs.foldl (State.sendFax w W) s = s := by
  induction rs with
  | nil => rfl
  | cons r rs ih =>
    rw [List.foldl_cons, State.sendFax_self w W (h r (.head _)), ih fun q hq => h q (.tail _ hq)]

/-- Departing packets leave every byte. -/
theorem State.onlySends.sameBytes {s t : State} (h : State.onlySends s t) : sameBytes s t := by
  intro l
  rw [h]
  cases l <;> rfl

/-! ### The traps that hold the head of the run queue back -/

/-- No asynchronous trap is due exactly when every pending one is held (R316). -/
theorem Warp.dueAsync_eq_none {W : Warp} :
    Warp.dueAsync W = none ↔ ∀ p, p ∈ W.async → p.lev = 0 ∧ 1 ≤ W.tlev := by
  simp [Warp.dueAsync, Warp.holds, List.find?_eq_none, Nat.one_le_iff_ne_zero]

/-- While none is due, none of a token is. -/
theorem Warp.tokenTrap_eq_false {W : Warp} (h : Warp.dueAsync W = none) (mask : Nat) :
    Warp.tokenTrap W mask = false := by
  have hh := Warp.dueAsync_eq_none.mp h
  simp only [Warp.tokenTrap, List.any_eq_false]
  intro p hp
  simp [Warp.holds, hh p hp]

theorem Warp.returnHeld_of_idle {W : Warp} (h : W.exec = none) : Warp.returnHeld W = W := by
  unfold Warp.returnHeld; rw [h]

/-- Without a trap due, none is taken. -/
theorem takePending_eq_none {s : State} {w : Nat} {W : Warp} (hw : s.warps[w]? = some W) (he : W.exec = none)
    (hl : W.laneTrap = none) (hd : Warp.dueAsync W = none) : takePending s w = none := by
  simp [takePending, State.warp?, hw, Warp.returnHeld_of_idle he, he, hl, hd]

/-- A due asynchronous trap can be taken while no fragment waits in an instruction that completes first. -/
theorem takePending_isSome {s : State} {w : Nat} {W : Warp} {p : Pending} (hw : s.warps[w]? = some W)
    (he : W.exec = none) (hl : W.laneTrap = none) (hd : Warp.dueAsync W = some p)
    (hf : ∀ i f, Warp.frag? W i = some f → f.wait = .ready) : (takePending s w).isSome = true := by
  simp only [takePending, State.warp?, hw, Warp.returnHeld_of_idle he, he, hl, hd, Option.isSome_none,
    Bool.false_eq_true, if_false, Option.isSome_map]
  split
  · rfl
  · next i hi =>
    split
    · next f hif =>
      have hn : Warp.finishes W f = false := by
        simp [Warp.finishes, hf i f hif, Wait.completesFirst]
      simp [hn]
    · rfl

/-- Results that no queued run awaits do not hold the head of the queue. -/
theorem Warp.awaited_of_landed {W : Warp} {mask : Nat} (hd : Warp.dueAsync W = none)
    (hr : ∀ r, r ∈ W.reqs → r.run = none ∨ Req.pendingResults r = false ∨ mask.testBit r.token = false) :
    Warp.awaited W mask = true := by
  unfold Warp.awaited
  rw [Warp.tokenTrap_eq_false hd, Bool.not_false, Bool.and_true, Bool.not_eq_true', List.any_eq_false]
  intro r hm
  rcases hr r hm with h | h | h <;> simp [h, tokenIn]

/-! ### Starting and committing -/

section Start
variable {s : State} {w : Nat} {W : Warp} {e : RunEntry} {rest : List RunEntry}
  (hw : s.warps[w]? = some W) (hq : W.queue = e :: rest) (he : W.exec = none)
include hw hq he

/-- The head of the queue starts. -/
theorem execRunStart_starts (ha : State.active s W = true) (hl : W.laneTrap = none)
    (hp : takePending s w = none) (ht : Warp.awaited W e.await = true) :
    execRunStart w s = .next (State.setWarp s w { W with
      queue := rest,
      exec := some { entry := e, live := e.mask &&& ~~~W.exited, idx := 0, latch := [], wbs := [], reqs := [],
                     trail := none } }) := by
  simp [execRunStart, State.warp?, hw, hq, he, ha, hl, hp, ht]

/-- While a trap of its warp can be taken, it does not. -/
theorem execRunStart_held (hp : (takePending s w).isSome = true) : execRunStart w s = .next s := by
  have hn : (takePending s w).isNone = false := by simpa using hp
  simp [execRunStart, State.warp?, hw, hq, he, hn]

end Start

/-- The state in which a run has committed and its packets have still to leave. -/
def State.committed (s : State) (w : Nat) (W : Warp) (e : RunExec) : State :=
  State.tick (State.setWarp s w (Warp.commit W e)) (State.coreOf s W) 3

/-- The requests of a committed run that are new. -/
def Warp.newReqs (W : Warp) (e : RunExec) : List Req :=
  (Warp.commit W e).reqs.filter fun r => decide (W.nextReq ≤ r.id)

/-- A run at its TRAIL with room on every counter commits, and then its packets leave. -/
theorem execRunCommit_commits {s : State} {w : Nat} {W : Warp} {e : RunExec} (hw : s.warps[w]? = some W)
    (he : W.exec = some e) (ht : e.trail ≠ none) (hr : Warp.roomFor W e.reqs = true) :
    execRunCommit w s = .next ((Warp.newReqs W e).foldl (State.sendFax w (Warp.commit W e)) (State.committed s w W e)) := by
  simp [execRunCommit, State.warp?, hw, he, Option.isSome_iff_ne_none.mpr ht, hr, Warp.newReqs, State.committed]

/-- A commit leaves every byte. -/
theorem sameBytes_committed {s : State} {w : Nat} {W : Warp} (hw : s.warps[w]? = some W) (e : RunExec) :
    sameBytes s (State.committed s w W e) :=
  sameBytes_trans (sameBytes_setWarp hw _ (by rw [Warp.commit_eq])) (sameBytes_tick _ _ _)

/-- The lanes of a run's write-backs, from the two hypotheses about their kinds. -/
theorem WriteBack.lane_lt {bs : List WriteBack} (hv : ∀ L d v, WriteBack.vreg L d v ∈ bs → L < 32)
    (hp : ∀ L p b, WriteBack.preg L p b ∈ bs → L < 32 ∧ p ≠ 0) : ∀ b ∈ bs, b.lane < 32
  | .vreg L d v, h => hv L d v h
  | .preg L p b, h => (hp L p b h).1

/-- Settles O16: with no trap due and no awaited result outstanding the head of the run queue starts, and while a
due trap can be taken it is held; a commit is a fold of write-backs, of which the last stands, and of requests issued in order. -/
theorem runStartsAndCommits : Obligations.RunStartsAndCommits := by
  unfold Obligations.RunStartsAndCommits
  refine ⟨fun s w W e rest hw ha hq he hl => ⟨fun hd hr => ?start, fun ⟨p, hp, hdue⟩ hf => ?held⟩,
    fun s w W e hw he ht hroom hid hv hp => ?commit⟩
  case start =>
    have hnone := Warp.dueAsync_eq_none.mpr hd
    exact ⟨_, execRunStart_starts hw hq he ha hl (takePending_eq_none hw he hl hnone)
      (Warp.awaited_of_landed hnone hr), rfl, sameBytes_setWarp hw _ rfl⟩
  case held =>
    have hne : Warp.dueAsync W ≠ none := fun h => by
      obtain ⟨h0, h1⟩ := Warp.dueAsync_eq_none.mp h p hp
      omega
    obtain ⟨q, hsome⟩ := Option.ne_none_iff_exists'.mp hne
    exact execRunStart_held hw hq he (takePending_isSome hw he hl hsome hf)
  case commit =>
    have hb := WriteBack.lane_lt hv hp
    have hs := State.onlySends_foldl _ (State.onlySends_sendFax w (Warp.commit W e)) (Warp.newReqs W e)
      (State.committed s w W e)
    refine ⟨_, Warp.commit W e, execRunCommit_commits hw he ht hroom,
      sameBytes_trans (sameBytes_committed hw e) hs.sameBytes, ?frame, fun hself => ?quiet, by rw [Warp.commit_eq],
      fun xs ys L d v hx hy => ?_, fun L d hL hn => ?_, fun xs ys L p b hx hy => ?_, fun L p hL hn => ?_⟩
    case frame =>
      rw [hs]
      simp only [State.committed]
      rw [State.tick_only]
      rfl
    case quiet =>
      rw [State.sendFaxes_self]
      · simp [State.committed]
      · intro r hr peer win op pkts neg hop
        obtain ⟨hmem, hnew⟩ := List.mem_filter.mp hr
        obtain ⟨q, hq, hqop⟩ := Warp.commit_new hid hmem (of_decide_eq_true hnew)
        simpa [State.committed] using hself q peer win op pkts neg hq (hqop ▸ hop)
    · rw [Warp.v_commit, hx]; exact Warp.v_writeBacks_last xs ys W v (hx ▸ hb) hy
    · rw [Warp.v_commit]; exact Warp.v_writeBacks_other _ _ hb hL hn
    · obtain ⟨hL, hp0⟩ := hp L p b (by simp [hx])
      rw [Warp.p_commit, hx]; exact Warp.p_writeBacks_last xs ys W b hL hp0 hy
    · rw [Warp.p_commit]; exact Warp.p_writeBacks_other _ _ hL hn

end Sys2Proof.Machine
end

section
/-! Why O50 fails: an uncorrectable word among the arguments of a LAUNCH is counted in the health block of
its die (R358), and the statement lets no such count change. -/
namespace Sys2Proof.Machine

/-- A leading warp with a sound record at scratchpad 0, counts 1 × 1 × 1 and eight bytes of arguments at 64. -/
def launchingWarp : Warp := Warp.fresh 0 0 64 4096 0 false [0, 1 + 2 ^ 10 + 2 ^ 20, 64, 8]

/-- Its grid, of whose 128 bytes of scratchpad those at 64 to 71, the arguments, are uncorrectable. -/
def spoiledGrid : Grid :=
  { Grid.handed 1 0 0x1000 (1 + 2 ^ 10 + 2 ^ 20) 1 0 0 0x5000 false [] [0] (some 0) none with
    scr := List.replicate 8 { Memory.empty with bad := [8] }, scrLen := 128, teams := [0], status := .live, placed := 1 }

/-- The device with that warp alone on core 0. -/
def spoiledLaunch : State :=
  { State.reset with
    warps := [launchingWarp], grids := [spoiledGrid],
    teams := [{ grid := 0, tx := 0, ty := 0, tz := 0, status := .running, core := 0, shm := Memory.empty, shLen := 0,
                warps := [0] }] }

/-- The warp's executing fragment. -/
def spoiledLaunchCtx : Ctx :=
  ⟨0, 0, launchingWarp, { mask := BitVec.allOnes 32, pc := 0, joins := [], hlev := 0, wait := .ready }⟩

/-- How often the health block of die 0 has counted an uncorrectable error, in the state that is answered (R358). -/
def Out.errors : Out State → Option Nat
  | .next t => (AMap.get? t.health 0).map (·.uecnt)
  | .fault _ => none
  | .refused _ => none

/-- LAUNCH completes there, and the word that its arguments meet is counted. -/
theorem launch_counts_spoiled_arguments : Out.errors (exec (.launch 1) spoiledLaunch) = some 1 := by decide +kernel

/-- The record reads zero, which keeps R351. -/
theorem spoiledLaunch_reads_record :
    State.chipRead spoiledLaunch 0 launchingWarp .scratch 0 64 0 = .ok spoiledLaunch 0 := rfl

/-- An instruction that only completes leaves the health blocks. -/
theorem passes_errors {s : State} {c : Ctx} {n : Nat} {o : Out State} (h : passes o s c n) :
    Out.errors o = Out.errors (.next s) := by
  obtain ⟨t, V, rfl, ht, -⟩ := h
  rw [ht]
  rfl

/-- Refutes O50: LAUNCH with a sound record whose arguments hold an uncorrectable word completes, and the word is
counted (R358, log 14), while the statement allows no change of the device
but the child grid and the count of free values, and of the warp but the fragment's arrival. -/
theorem not_gridsAreLaunchedPlacedAndRetired : ¬ Obligations.GridsAreLaunchedPlacedAndRetired := by
  unfold Obligations.GridsAreLaunchedPlacedAndRetired
  rintro ⟨-, hlaunch, -⟩
  obtain ⟨hchild, -⟩ := hlaunch spoiledLaunch spoiledLaunchCtx 1 spoiledGrid rfl rfl
  obtain ⟨G, hpass, -⟩ := hchild rfl rfl (by decide) rfl rfl (by decide) (by decide) (by decide) _ _ _ _
    spoiledLaunch_reads_record (by decide +kernel) rfl
  have hsame : Out.errors (exec (.launch 1) spoiledLaunch) = none := passes_errors hpass
  rw [launch_counts_spoiled_arguments] at hsame
  cases hsame

end Sys2Proof.Machine
end
